-- ==== Sys2Proof/Word.lean ====
section
/-!
DEFINITION. The word types of the device: registers are 32 bits wide (conventions before R12), memory is addressed in bytes.
-/
namespace Sys2Proof

/-- A register word (32 bits). -/
abbrev Word := BitVec 32

/-- A byte. -/
abbrev Byte := BitVec 8

end Sys2Proof
end

