-- ==== Sys2Proof/Syntax.lean ====
section
/-!
DEFINITION. The commands of the block, one constructor for each row of spec/opcode_table.json, with the records their operands
are made of. Every command carries first `t`, the elapsed time since VDD_AON was applied at which it happens, in units of
2⁻¹⁶ ns of the device's own OSC_M time (log entry 2).
-/
namespace Sys2Proof

/-- A host path (chapter 3): the SPI target, or PCIe BAR0. -/
inductive Path
  | spi | pcie
deriving DecidableEq, Repr

/-- Where a command came from (R91, Table 4-12): a host path, a command ring (with the index of its slot and the number of times the
ring had been enabled), or the twin's mirror stream (R347). -/
inductive CmdSrc
  | spi | pcie | ring (r slot gen : Nat) | mirror
deriving DecidableEq, Repr

/-- The clock islands of Table 1-1, as sources of event records (R23). -/
inductive Island
  | macA | macB | macM | stream | tile (k : Nat) | time | control | aport | pcie | fabric | aon
deriving DecidableEq, Repr

/-- What the fuse array and the bond option hold (R34): variant code, die serial, key hash as a number with byte 0 least
significant, whether the CRC-32 over them matches, and whether the bonded package is M. -/
structure Fuses where
  code : Nat
  serial : Nat
  keyHash : Nat
  crcOk : Bool
  bondM : Bool
deriving DecidableEq, Repr

/-- Levels of the strap and TEST balls at a rising edge of RESET_N (R47, R49). -/
structure Straps where
  bootSel : Nat
  mgmtSel : Nat
  unitSel : Nat
  arbEn : Bool
  test : Bool
deriving DecidableEq, Repr

/-- One sample with what travels with it: its 32-bit value, the valid mark, and the IEC 60958 label bits where it has them. -/
structure Smp where
  v : Nat
  ok : Bool
  lab : Option Nat
deriving DecidableEq, Repr

/-- The PTP messages of Table 9-3. -/
inductive PtpKind
  | sync | followUp | delayReq | delayResp | pdelayReq | pdelayResp | pdelayRespFollowUp | announce | signaling | get | set
deriving DecidableEq, Repr

/-- An announce dataset. -/
structure PtpAnnounce where
  gm : Nat
  prio1 : Nat
  cls : Nat
  accuracy : Nat
  variance : Nat
  prio2 : Nat
  steps : Nat
  utcOffset : Nat
  flags : Nat
  timeSource : Nat
  srcClock : Nat
  srcPort : Nat
deriving DecidableEq, Repr

/-- A PTP message: `ts` is the timestamp it carries and `corr` its correctionField, both in 2⁻¹⁶ ns. -/
structure PtpMsg where
  kind : PtpKind
  domain : Nat
  seq : Nat
  twoStep : Bool
  srcClock : Nat
  srcPort : Nat
  reqClock : Nat
  reqPort : Nat
  ts : Int
  corr : Int
  ann : PtpAnnounce
  mgmt : Nat
deriving DecidableEq, Repr

/-- A mirrored command (R347): opcode, arguments and target epoch in whole milliseconds of the STC. -/
structure MirCmd where
  op : Nat
  arg0 : Nat
  arg1 : Nat
  epoch : Nat
deriving DecidableEq, Repr

/-- An item of the mirror stream (R343, R345, R347). -/
inductive MirrorItem
  | write (addr value : Nat)
  | cmd (c : MirCmd)
  | banks (swaps crc : Nat)
  | stateReset (epoch : Nat)
deriving DecidableEq, Repr

/-- A twin heartbeat frame (R337): role and GANDER coded as in TWIN_STATUS, HB_OUT symbol, mode, mute groups, STC in 2⁻⁸ ns, and whether
the sender asks its peer to yield (R363). -/
structure Heartbeat where
  role : Nat
  gander : Nat
  sym : Nat
  mode : Nat
  groups : Nat
  stc8 : Nat
  ask : Bool
deriving DecidableEq, Repr

/-- A twin hello frame (R340, R344). -/
structure Hello where
  serial : Nat
  unit : Nat
  code : Nat
  stepping : Nat
  configId : Nat
  policyId : Nat
  applyHash : Nat
  tileFault : Nat
  clockId : Nat
deriving DecidableEq, Repr

/-- A digest (R349): KIND and INDEX as in MISMATCH_INFO, the index k, and the CRC-32. -/
structure Digest where
  block : Bool
  index : Nat
  k : Nat
  crc : Nat
deriving DecidableEq, Repr

/-- A resynchronisation snapshot (R360): register words by address, OFF in 2⁻⁸ ns, NAMED, and the sequence number from which
the mirror stream restarts. -/
structure Snapshot where
  regs : List (Nat × Nat)
  off : Int
  named : Nat
  seq : Nat
deriving DecidableEq, Repr

/-- A lane hello (R367): the sender's serial and lane, and the serial it last received on that lane. -/
structure LaneHello where
  serial : Nat
  lane : Nat
  heard : Option Nat
deriving DecidableEq, Repr

/-- A link of a link-state record: lane, neighbour's serial and lane. -/
structure Link where
  lane : Nat
  serial : Nat
  far : Nat
deriving DecidableEq, Repr

/-- A link-state record (R369). `ver` orders the records of one device; `follows` is true while its slot in use is of type 6; `form`
tells that software has written FORM on that device (R370). -/
structure LinkState where
  serial : Nat
  ver : Nat
  code : Nat
  configId : Nat
  elig : Bool
  freerun : Bool
  follows : Bool
  form : Bool
  links : List Link
deriving DecidableEq, Repr

/-- What arrives from a member during a fabric APPLY (R384). -/
inductive FabReport
  | configId (id : Nat)
  | outcome (code res bound req : Nat)
  | plan (flows : List (Nat × List (Nat × Nat) × Nat))
deriving DecidableEq, Repr

/-- What the parameter page and the header show (R393, R399). -/
structure NandGeom where
  oneBit : Bool
  pageSize : Nat
  spare : Nat
  ppb : Nat
  gbit : Nat
  ecc : Nat
  sdr : Nat                  -- fastest SDR timing mode of the part
  ddr2 : Option Nat          -- fastest NV-DDR2 timing mode, where it has that interface
  ce1 : Bool
  endurance : Nat
  marked : List Nat          -- physical blocks with a factory bad-block marker
  headerOk : Bool
  headerErased : Bool
deriving DecidableEq, Repr

/-- How a NAND operation completed (R393, R397, R402): the start-up sequence with what it found, an operation that passed, or one that reported FAIL
on a physical block. `errs`: for the read of a SCRUB, the corrected bits of each sector of each programmed page. -/
inductive NandOutcome
  | started (g : NandGeom)
  | pass (errs : List (List Nat))
  | fail (erase : Bool) (block : Nat)
deriving DecidableEq, Repr

/-- The commands of the block, in the order of spec/opcode_table.json. -/
inductive Instr
  /-- POWER_UP (R425). -/
  | powerUp (t : Nat) (fuses : Fuses) (iov pwrd : Nat)
  /-- RESET_N_FALL (R425). -/
  | resetNFall (t : Nat) (lowNs : Nat)
  /-- RESET_N_RISE (R47). -/
  | resetNRise (t : Nat) (straps : Straps)
  /-- BROWNOUT_ASSERT (R426). -/
  | brownoutAssert (t : Nat)
  /-- BROWNOUT_RELEASE (R426). -/
  | brownoutRelease (t : Nat) (straps : Straps)
  /-- AUTOMATIC_BOOT (R84). -/
  | automaticBoot (t : Nat)
  /-- LOAD (R91). -/
  | load (t : Nat) (src : CmdSrc) (tag : Nat) (nodefer : Bool) (arg0 arg1 : Nat)
  /-- APPLY (R109). -/
  | apply (t : Nat) (src : CmdSrc) (tag : Nat) (nodefer : Bool) (arg0 arg1 : Nat)
  /-- COMMIT (R101). -/
  | commit (t : Nat) (src : CmdSrc) (tag : Nat) (nodefer : Bool) (arg0 arg1 : Nat)
  /-- ABORT (R95). -/
  | abort (t : Nat) (src : CmdSrc) (tag : Nat) (nodefer : Bool) (arg0 arg1 : Nat)
  /-- START (R87). -/
  | start (t : Nat) (src : CmdSrc) (tag : Nat) (nodefer : Bool) (arg0 arg1 : Nat)
  /-- STOP (R78). -/
  | stop (t : Nat) (src : CmdSrc) (tag : Nat) (nodefer : Bool) (arg0 arg1 : Nat)
  /-- MUTE (R99). -/
  | mute (t : Nat) (src : CmdSrc) (tag : Nat) (nodefer : Bool) (arg0 arg1 : Nat)
  /-- UNMUTE (R99). -/
  | unmute (t : Nat) (src : CmdSrc) (tag : Nat) (nodefer : Bool) (arg0 arg1 : Nat)
  /-- SELECT_REF (R210). -/
  | selectRef (t : Nat) (src : CmdSrc) (tag : Nat) (nodefer : Bool) (arg0 arg1 : Nat)
  /-- STEP_PHASE (R214). -/
  | stepPhase (t : Nat) (src : CmdSrc) (tag : Nat) (nodefer : Bool) (arg0 arg1 : Nat)
  /-- TAKEOVER (R363). -/
  | takeover (t : Nat) (src : CmdSrc) (tag : Nat) (nodefer : Bool) (arg0 arg1 : Nat)
  /-- YIELD (R363). -/
  | yield (t : Nat) (src : CmdSrc) (tag : Nat) (nodefer : Bool) (arg0 arg1 : Nat)
  /-- SLEEP (R89). -/
  | sleep (t : Nat) (src : CmdSrc) (tag : Nat) (nodefer : Bool) (arg0 arg1 : Nat)
  /-- WAKE (R88). -/
  | wake (t : Nat) (src : CmdSrc) (tag : Nat) (nodefer : Bool) (arg0 arg1 : Nat)
  /-- SNAPSHOT (R99). -/
  | snapshot (t : Nat) (src : CmdSrc) (tag : Nat) (nodefer : Bool) (arg0 arg1 : Nat)
  /-- LOG_FREEZE (R415). -/
  | logFreeze (t : Nat) (src : CmdSrc) (tag : Nat) (nodefer : Bool) (arg0 arg1 : Nat)
  /-- LOG_THAW (R415). -/
  | logThaw (t : Nat) (src : CmdSrc) (tag : Nat) (nodefer : Bool) (arg0 arg1 : Nat)
  /-- SCRUB (R402). -/
  | scrub (t : Nat) (src : CmdSrc) (tag : Nat) (nodefer : Bool) (arg0 arg1 : Nat)
  /-- RESET_BLOCK (R100). -/
  | resetBlock (t : Nat) (src : CmdSrc) (tag : Nat) (nodefer : Bool) (arg0 arg1 : Nat)
  /-- COMMIT_EPOCH (R102). -/
  | commitEpoch (t : Nat)
  /-- BANK_COPY_DONE (R102). -/
  | bankCopyDone (t : Nat)
  /-- JOURNAL_IMAGE_STORED (R103). -/
  | journalImageStored (t : Nat) (ok : Bool)
  /-- START_UNLOCKED_TIMEOUT (R87). -/
  | startUnlockedTimeout (t : Nat)
  /-- LOCKSTEP_MISMATCH (R31). -/
  | lockstepMismatch (t : Nat)
  /-- CONTROL_CORE_RESTART_DONE (R31). -/
  | controlCoreRestartDone (t : Nat)
  /-- LOCKSTEP_CAUSE_EXPIRY (R79). -/
  | lockstepCauseExpiry (t : Nat)
  /-- WAKE_IN_LEVEL (R421). -/
  | wakeInLevel (t : Nat) (level : Bool)
  /-- TEMPERATURE_WAKE (R421). -/
  | temperatureWake (t : Nat) (tj : Int)
  /-- LINK_ENERGY_WAKE (R420). -/
  | linkEnergyWake (t : Nat)
  /-- WAKE_PATTERN_MATCH (R155). -/
  | wakePatternMatch (t : Nat) (frame : List Byte)
  /-- WAKE_DOMAINS_UP (R422). -/
  | wakeDomainsUp (t : Nat)
  /-- SPI_TRANSACTION_START (R59). -/
  | spiTransactionStart (t : Nat) (opcode addr : Nat)
  /-- SPI_TRANSACTION_END (R60). -/
  | spiTransactionEnd (t : Nat)
  /-- WRITE (R60). -/
  | write (t : Nat) (words : List Nat)
  /-- READ (R60). -/
  | read (t : Nat) (n : Nat)
  /-- READ_STATUS (R61). -/
  | readStatus (t : Nat)
  /-- READ_ID (R61). -/
  | readId (t : Nat)
  /-- WRITE_WIN (R59). -/
  | writeWin (t : Nat) (words : List Nat)
  /-- READ_WIN (R59). -/
  | readWin (t : Nat) (n : Nat)
  /-- BAR0_READ (R56). -/
  | bar0Read (t : Nat) (addr n firstBe lastBe : Nat)
  /-- BAR0_WRITE (R57). -/
  | bar0Write (t : Nat) (addr firstBe lastBe : Nat) (words : List Nat)
  /-- BAR2_ACCESS (R55). -/
  | bar2Access (t : Nat) (wr : Bool) (addr n : Nat) (bytes : List Byte)
  /-- REGISTER_WRITE (R65). -/
  | registerWrite (t : Nat) (path : Path) (addr be value : Nat)
  /-- ALIAS_WRITE (R53). -/
  | aliasWrite (t : Nat) (path : Path) (addr be value : Nat)
  /-- ACCESS_COMPLETE (R439). -/
  | accessComplete (t : Nat) (path : Path)
  /-- ACCESS_TIMEOUT (R64). -/
  | accessTimeout (t : Nat) (path : Path)
  /-- UNLOCK_KEY_WRITE (R71). -/
  | unlockKeyWrite (t : Nat) (path : Path) (value : Nat)
  /-- UNLOCK_LAPSE (R71). -/
  | unlockLapse (t : Nat) (path : Path)
  /-- ATTN_SUMMARY_READ (R25). -/
  | attnSummaryRead (t : Nat) (path : Path)
  /-- CMD_DONE_READ (R96). -/
  | cmdDoneRead (t : Nat) (path : Path)
  /-- MAILBOX_LAST_WORD_READ (R76). -/
  | mailboxLastWordRead (t : Nat) (path : Path) (blk : Nat)
  /-- MAILBOX_TIMEOUT (R75). -/
  | mailboxTimeout (t : Nat) (path : Path) (blk : Nat)
  /-- PARITY_SCAN (R72). -/
  | parityScan (t : Nat) (flips : List (Nat × Nat))
  /-- MAC_FRAME_RECEIVED (R152). -/
  | macFrameReceived (t : Nat) (port : Nat) (pcsErr : Bool) (frame : List Byte)
  /-- PAUSE_EXPIRY (R145). -/
  | pauseExpiry (t : Nat) (port queue : Nat)
  /-- LINK_UP (R138). -/
  | linkUp (t : Nat) (port : Nat)
  /-- LINK_DOWN (R138). -/
  | linkDown (t : Nat) (port : Nat) (pcs fec an speedFault : Bool)
  /-- RATE_CHANGED (R139). -/
  | rateChanged (t : Nat) (path : Path) (port value : Nat)
  /-- GATE_INTERVAL_BOUNDARY (R143). -/
  | gateIntervalBoundary (t : Nat) (port : Nat)
  /-- TX_FRAME_START (R142). -/
  | txFrameStart (t : Nat) (port staged : Nat)
  /-- STREAM_LAUNCH (R168). -/
  | streamLaunch (t : Nat) (port entry : Nat)
  /-- TX_UNDERRUN (R148). -/
  | txUnderrun (t : Nat) (port sent : Nat)
  /-- TIMESTAMP_FIFO_POP (R151). -/
  | timestampFifoPop (t : Nat) (path : Path) (port tag : Nat)
  /-- MAC_COUNTER_READ (R156). -/
  | macCounterRead (t : Nat) (path : Path) (port sel tag : Nat)
  /-- MDIO_WRITE (R136). -/
  | mdioWrite (t : Nat) (path : Path) (value : Nat)
  /-- MDIO_READ (R136). -/
  | mdioRead (t : Nat) (path : Path) (value : Nat)
  /-- MDIO_ADDRESS (R136). -/
  | mdioAddress (t : Nat) (path : Path) (value : Nat)
  /-- MDIO_READ_INCREMENT (R136). -/
  | mdioReadIncrement (t : Nat) (path : Path) (value : Nat)
  /-- MDIO_FRAME_END (R136). -/
  | mdioFrameEnd (t : Nat) (rdata : Nat)
  /-- STREAM_PACKET_BUILD (R164). -/
  | streamPacketBuild (t : Nat) (entry : Nat)
  /-- KILL_CLEAR (R171). -/
  | killClear (t : Nat) (path : Path) (rx : Bool) (k bits : Nat)
  /-- RX_SAMPLE_READOUT (R184). -/
  | rxSampleReadout (t : Nat) (entry : Nat)
  /-- RX_LOCK_TIMEOUT (R189). -/
  | rxLockTimeout (t : Nat) (entry : Nat)
  /-- PATH_LIVE_TIMEOUT (R180). -/
  | pathLiveTimeout (t : Nat) (entry : Nat)
  /-- POLICER_TOKEN (R192). -/
  | policerToken (t : Nat) (kind index port : Nat)
  /-- STX_COUNTER_READ (R172). -/
  | stxCounterRead (t : Nat) (path : Path) (sel tag : Nat)
  /-- SRX_COUNTER_READ (R196). -/
  | srxCounterRead (t : Nat) (path : Path) (sel tag : Nat)
  /-- BELLWETHER_EVALUATION (R210). -/
  | bellwetherEvaluation (t : Nat) (lanes : List Int) (phases : List (Nat × Int))
  /-- FFO_UPDATE (R208). -/
  | ffoUpdate (t : Nat) (ffos : List (Nat × Int))
  /-- WAIT_TO_RESTORE_EXPIRY (R208). -/
  | waitToRestoreExpiry (t : Nat) (slot : Nat)
  /-- REF_LOSS_TIMEOUT (R207). -/
  | refLossTimeout (t : Nat) (slot : Nat)
  /-- REF_PIN_EDGE (R200). -/
  | refPinEdge (t : Nat) (pin : Nat)
  /-- PTP_MESSAGE_RECEIVED (R202). -/
  | ptpMessageReceived (t : Nat) (inst len lane src residence : Nat) (msg : PtpMsg)
  /-- PTP_MESSAGE_INTERVAL (R202). -/
  | ptpMessageInterval (t : Nat) (inst kind : Nat)
  /-- PTP_ANNOUNCE_TIMEOUT (R202). -/
  | ptpAnnounceTimeout (t : Nat) (inst : Nat)
  /-- PTP_RESTART (R204). -/
  | ptpRestart (t : Nat) (path : Path) (inst reg value : Nat)
  /-- PULL_COMPLETE (R213). -/
  | pullComplete (t : Nat)
  /-- PHASE_STEP_AT_ONCE (R214). -/
  | phaseStepAtOnce (t : Nat)
  /-- SEC_LOAD_ARM (R201). -/
  | secLoadArm (t : Nat) (path : Path) (value : Nat)
  /-- SEC_LOAD_APPLY (R201). -/
  | secLoadApply (t : Nat)
  /-- REF_CFG_WRITE (R207). -/
  | refCfgWrite (t : Nat) (path : Path) (slot value : Nat)
  /-- FPG_ALIGN_REQUEST (R220). -/
  | fpgAlignRequest (t : Nat) (path : Path) (k value : Nat)
  /-- FRAME_PULSE (R220). -/
  | framePulse (t : Nat) (k : Nat)
  /-- TIME_MAILBOX_READ (R200). -/
  | timeMailboxRead (t : Nat) (path : Path) (sel tag : Nat)
  /-- PTP_DATASET_READ (R205). -/
  | ptpDatasetRead (t : Nat) (path : Path) (sel tag : Nat)
  /-- FREQUENCY_CORRECTION_UPDATE (R224). -/
  | frequencyCorrectionUpdate (t : Nat) (target : Int)
  /-- MSY_UPDATE (R225). -/
  | msyUpdate (t : Nat) (path : Path) (m value : Nat)
  /-- MSY_ENABLE_WRITE (R225). -/
  | msyEnableWrite (t : Nat) (path : Path) (m value : Nat)
  /-- DITHER_SEED_LOAD (R226). -/
  | ditherSeedLoad (t : Nat)
  /-- SYNTH_LOCK (R233). -/
  | synthLock (t : Nat) (synth : Nat) (cmp : List (Int × Nat))
  /-- SYNTH_LOSS_OF_LOCK (R235). -/
  | synthLossOfLock (t : Nat) (synth : Nat) (cmp : List (Int × Nat))
  /-- SSY_CTL_WRITE (R231). -/
  | ssyCtlWrite (t : Nat) (path : Path) (value : Nat)
  /-- SPREAD_PERIOD_START (R230). -/
  | spreadPeriodStart (t : Nat)
  /-- CLKOUT_CONFIG_WRITE (R237). -/
  | clkoutConfigWrite (t : Nat) (path : Path) (n reg value : Nat)
  /-- SYNC_ARM (R239). -/
  | syncArm (t : Nat) (path : Path) (value : Nat)
  /-- SYNC_IN_EDGE (R240). -/
  | syncInEdge (t : Nat)
  /-- SIDE_CONFIG_WRITE (R245). -/
  | sideConfigWrite (t : Nat) (path : Path) (side reg value : Nat)
  /-- MASK_WRITE (R248). -/
  | maskWrite (t : Nat) (path : Path) (side value : Nat)
  /-- PORT_BLOCK_BOUNDARY (R250). -/
  | portBlockBoundary (t : Nat) (side : Nat) (frames : List (List (Option Smp)))
  /-- PORT_FAULT (R260). -/
  | portFault (t : Nat) (side kind : Nat)
  /-- PORT_ANCHOR (R261). -/
  | portAnchor (t : Nat) (side run rate : Nat)
  /-- AES_LOCK (R267). -/
  | aesLock (t : Nat) (p rate : Nat)
  /-- AES_CS_BLOCK_END (R267). -/
  | aesCsBlockEnd (t : Nat) (p : Nat) (cs : List Byte)
  /-- MADI_LOCK (R270). -/
  | madiLock (t : Nat) (p format : Nat)
  /-- OUT_GAIN_WRITE (R257). -/
  | outGainWrite (t : Nat) (path : Path) (x value : Nat)
  /-- ZERO_CROSSING_APPLY (R257). -/
  | zeroCrossingApply (t : Nat) (x : Nat) (smp : Smp)
  /-- ZERO_CROSSING_TIMEOUT (R257). -/
  | zeroCrossingTimeout (t : Nat) (x : Nat)
  /-- NODE_RELEASE (R277). -/
  | nodeRelease (t : Nat) (node : Nat)
  /-- BUNDLE_ISSUE (R286). -/
  | bundleIssue (t : Nat) (tile corr : Nat) (uncorr : Bool)
  /-- PROGRAM_INTERRUPT (R302). -/
  | programInterrupt (t : Nat) (tile : Nat)
  /-- TILE_TIMER_EXPIRY (R305). -/
  | tileTimerExpiry (t : Nat) (tile : Nat)
  /-- TRANSFER_COMPLETE (R306). -/
  | transferComplete (t : Nat) (tile node ch : Nat)
  /-- DEADLINE_MISS (R279). -/
  | deadlineMiss (t : Nat) (tile : Nat)
  /-- PREEMPTION_DEFER_EXPIRY (R303). -/
  | preemptionDeferExpiry (t : Nat) (tile : Nat)
  /-- TILE_REPLACED (R130). -/
  | tileReplaced (t : Nat)
  /-- CW_APPLY (R310). -/
  | cwApply (t : Nat) (path : Path) (value : Nat)
  /-- TILE_LOAD_READ (R309). -/
  | tileLoadRead (t : Nat) (path : Path) (tile : Nat)
  /-- RING_TAIL_WRITE (R318). -/
  | ringTailWrite (t : Nat) (path : Path) (ring value : Nat)
  /-- RING_ENABLE (R318). -/
  | ringEnable (t : Nat) (path : Path) (ring value : Nat)
  /-- RING_DISABLE (R318). -/
  | ringDisable (t : Nat) (path : Path) (ring value : Nat)
  /-- EXTRACTION_BLOCK (R323). -/
  | extractionBlock (t : Nat) (ring : Nat) (desc : List Byte)
  /-- INJECTION_BLOCK_CHECK (R324). -/
  | injectionBlockCheck (t : Nat) (ring : Nat)
  /-- INJECTION_DEADLINE (R324). -/
  | injectionDeadline (t : Nat) (ring : Nat)
  /-- DMA_READ_COMPLETION (R320). -/
  | dmaReadCompletion (t : Nat) (ring : Nat) (buf ok : Bool) (addr : Nat) (data : List Byte)
  /-- RX_RING_FRAME_WRITE (R325). -/
  | rxRingFrameWrite (t : Nat) (ring : Nat) (descs : List (List Byte))
  /-- TX_RING_FRAME_FETCH (R327). -/
  | txRingFrameFetch (t : Nat) (ring : Nat) (others : List Nat) (descs : List (List Byte)) (bytes : List Byte)
  /-- COMMAND_RING_FETCH (R328). -/
  | commandRingFetch (t : Nat) (ring : Nat) (desc : List Byte)
  /-- MSIX_COALESCE_TIMEOUT (R331). -/
  | msixCoalesceTimeout (t : Nat) (ring : Nat)
  /-- MSIX_UNMASK (R330). -/
  | msixUnmask (t : Nat) (path : Path) (vector value : Nat)
  /-- PCIE_LINK_LOST (R332). -/
  | pcieLinkLost (t : Nat) (perst : Bool)
  /-- BUS_MASTER_OFF (R332). -/
  | busMasterOff (t : Nat) (d3 : Bool)
  /-- PCIE_FLR (R332). -/
  | pcieFlr (t : Nat)
  /-- DMA_COUNTER_READ (R333). -/
  | dmaCounterRead (t : Nat) (path : Path) (sel tag : Nat)
  /-- TWIN_HEARTBEAT_TX (R337). -/
  | twinHeartbeatTx (t : Nat)
  /-- TWIN_HEARTBEAT_RX (R338). -/
  | twinHeartbeatRx (t : Nat) (lane : Nat) (hb : Heartbeat)
  /-- PEER_SILENCE_TIMEOUT (R338). -/
  | peerSilenceTimeout (t : Nat)
  /-- TWIN_TIME_AVERAGE (R339). -/
  | twinTimeAverage (t : Nat) (off : Int)
  /-- TWIN_LANE_DOWN (R337). -/
  | twinLaneDown (t : Nat) (lane : Nat)
  /-- HELLO_TX (R340). -/
  | helloTx (t : Nat)
  /-- HELLO_RECEIVED (R340). -/
  | helloReceived (t : Nat) (hello : Hello)
  /-- MIRROR_ITEM_RECEIVED (R345). -/
  | mirrorItemReceived (t : Nat) (seq : Nat) (item : MirrorItem)
  /-- DIGEST_RECEIVED (R349). -/
  | digestReceived (t : Nat) (dig : Digest)
  /-- DIGEST_TIMEOUT (R349). -/
  | digestTimeout (t : Nat)
  /-- CHECK_INDICATOR_EXPIRY (R350). -/
  | checkIndicatorExpiry (t : Nat) (ind : Nat)
  /-- HB_SYMBOL (R351). -/
  | hbSymbol (t : Nat)
  /-- GANDER_SYMBOL_RECOGNISED (R352). -/
  | ganderSymbolRecognised (t : Nat) (high1 high2 : Nat)
  /-- GANDER_LOST_TIMEOUT (R352). -/
  | ganderLostTimeout (t : Nat)
  /-- ARB_HB_SYMBOL (R351). -/
  | arbHbSymbol (t : Nat) (input highNs : Nat)
  /-- ARB_INPUT_SILENT (R351). -/
  | arbInputSilent (t : Nat) (input : Nat)
  /-- GANDER_DECISION (R353). -/
  | ganderDecision (t : Nat)
  /-- RESYNC_START (R360). -/
  | resyncStart (t : Nat)
  /-- RESYNC_SNAPSHOT (R360). -/
  | resyncSnapshot (t : Nat) (asked : Nat)
  /-- RESYNC_INSTALL_DONE (R360). -/
  | resyncInstallDone (t : Nat) (snap : Snapshot)
  /-- RESYNC_LIMIT_EXPIRY (R361). -/
  | resyncLimitExpiry (t : Nat)
  /-- REJOIN (R362). -/
  | rejoin (t : Nat)
  /-- STATE_RESET (R361). -/
  | stateReset (t : Nat) (path : Path) (value : Nat)
  /-- TWIN_FORCE_WRITE (R364). -/
  | twinForceWrite (t : Nat) (path : Path) (value : Nat)
  /-- TWIN_MAILBOX_READ (R365). -/
  | twinMailboxRead (t : Nat) (path : Path) (sel tag : Nat)
  /-- LANE_HELLO_TX (R367). -/
  | laneHelloTx (t : Nat) (lane : Nat)
  /-- LANE_HELLO_RECEIVED (R367). -/
  | laneHelloReceived (t : Nat) (lane : Nat) (hello : LaneHello)
  /-- LANE_HELLO_TIMEOUT (R367). -/
  | laneHelloTimeout (t : Nat) (lane : Nat)
  /-- UBLEY_BLOCK_LOCK_LOSS (R367). -/
  | ubleyBlockLockLoss (t : Nat) (lane : Nat)
  /-- LINK_STATE_TX (R369). -/
  | linkStateTx (t : Nat)
  /-- LINK_STATE_RECORD (R369). -/
  | linkStateRecord (t : Nat) (lane : Nat) (rec : LinkState)
  /-- FABRIC_FORM_TIMER (R370). -/
  | fabricFormTimer (t : Nat)
  /-- FORM (R370). -/
  | form (t : Nat) (path : Path) (value : Nat)
  /-- ROUTE_REBUILD (R373). -/
  | routeRebuild (t : Nat)
  /-- LANE_DELAY_EXCHANGE (R374). -/
  | laneDelayExchange (t : Nat) (lane trip residence : Nat)
  /-- FABRIC_TIME_TX (R375). -/
  | fabricTimeTx (t : Nat)
  /-- FABRIC_TIME_MESSAGE (R375). -/
  | fabricTimeMessage (t : Nat) (lane tm : Nat) (stc8 : Int) (residence : Nat)
  /-- CELL_SEND (R379). -/
  | cellSend (t : Nat) (flow : Nat)
  /-- CELL_RECEIVED (R380). -/
  | cellReceived (t : Nat) (lane : Nat) (cell : List Byte)
  /-- FABRIC_SAMPLE_READOUT (R380). -/
  | fabricSampleReadout (t : Nat) (flow : Nat)
  /-- FABRIC_FLOW_WRITE (R378). -/
  | fabricFlowWrite (t : Nat) (path : Path) (flow value : Nat)
  /-- FABRIC_CONFIG_REPORT (R384). -/
  | fabricConfigReport (t : Nat) (member : Nat) (report : FabReport)
  /-- FABRIC_AGREE_TIMEOUT (R384). -/
  | fabricAgreeTimeout (t : Nat)
  /-- FAB_MAILBOX_READ (R390). -/
  | fabMailboxRead (t : Nat) (path : Path) (sel tag : Nat)
  /-- EVENT_RECORD (R409). -/
  | eventRecord (t : Nat) (isls : List Island)
  /-- LOG_PAGE_TIMER (R410). -/
  | logPageTimer (t : Nat)
  /-- NAND_OP_COMPLETE (R393). -/
  | nandOpComplete (t : Nat) (outcome : NandOutcome)
  /-- NAND_OP_TIMEOUT (R412). -/
  | nandOpTimeout (t : Nat) (block : Option Nat)
  /-- MEDIUM_RETRY (R412). -/
  | mediumRetry (t : Nat)
  /-- MEDIUM_RETRY_END (R412). -/
  | mediumRetryEnd (t : Nat) (found : Option NandGeom)
  /-- PATROL_READ (R396). -/
  | patrolRead (t : Nat) (errs : List Nat)
  /-- XFER_READ (R400). -/
  | xferRead (t : Nat) (path : Path) (value : Nat)
  /-- XFER_PROGRAM (R400). -/
  | xferProgram (t : Nat) (path : Path) (value : Nat)
  /-- XFER_COMPLETE (R400). -/
  | xferComplete (t : Nat) (errs : List (List Nat))
  /-- PARTITION_ERASED (R401). -/
  | partitionErased (t : Nat) (path : Path) (value : Nat)
  /-- NAND_FORMATTED (R401). -/
  | nandFormatted (t : Nat) (path : Path) (value : Nat)
  /-- STORE_COUNTER_READ (R403). -/
  | storeCounterRead (t : Nat) (path : Path) (sel tag : Nat)
  /-- LOG_SUMMARY (R413). -/
  | logSummary (t : Nat) (path : Path) (tag : Nat)
  /-- LOG_LIVE_READ (R413). -/
  | logLiveRead (t : Nat) (path : Path) (tag : Nat)
  /-- SNAP_OPEN (R414). -/
  | snapOpen (t : Nat) (path : Path) (tag : Nat)
  /-- SNAP_NEXT (R414). -/
  | snapNext (t : Nat) (path : Path) (tag : Nat)
  /-- SNAP_FB_NEXT (R414). -/
  | snapFbNext (t : Nat) (path : Path) (tag : Nat)
  /-- SNAP_CLOSE (R414). -/
  | snapClose (t : Nat) (path : Path) (tag : Nat)
  /-- SNAP_TIMEOUT (R414). -/
  | snapTimeout (t : Nat) (path : Path)
  /-- OPSEC_TICK (R416). -/
  | opsecTick (t : Nat)
  /-- DOMAIN_REQUEST_WRITE (R419). -/
  | domainRequestWrite (t : Nat) (path : Path) (value : Nat)
  /-- DOMAIN_FORCE_WRITE (R419). -/
  | domainForceWrite (t : Nat) (path : Path) (value : Nat)
  /-- DOMAIN_UP (R419). -/
  | domainUp (t : Nat) (domain : Nat)
  /-- TEMPERATURE_MEASURE (R437). -/
  | temperatureMeasure (t : Nat) (tj : Int)
  /-- PWR_OVERTEMP (R437). -/
  | pwrOvertemp (t : Nat) (tj : Int)
  /-- MAILBOX_REPLY_STORED (R76). -/
  | mailboxReplyStored (t : Nat) (path : Path) (blk : Nat)
  /-- TWIN_LANE_UP (R337). -/
  | twinLaneUp (t : Nat) (lane : Nat)
  /-- TAKEOVER_TIMEOUT (R363). -/
  | takeoverTimeout (t : Nat)
  /-- YIELD_TIMEOUT (R363). -/
  | yieldTimeout (t : Nat)
  /-- AES_UNLOCK (R271). -/
  | aesUnlock (t : Nat) (p : Nat)
  /-- MADI_UNLOCK (R271). -/
  | madiUnlock (t : Nat) (p : Nat)
  /-- PORT_CLOCK_RETURNS (R262). -/
  | portClockReturns (t : Nat) (side : Nat)
  /-- DMA_READ_TIMEOUT (R320). -/
  | dmaReadTimeout (t : Nat) (ring : Nat) (buf : Bool) (addr : Nat)
  /-- PCIE_LINK_UP (R419). -/
  | pcieLinkUp (t : Nat) (width speed : Nat) (bme ext msix fmask : Bool)
  /-- VDD_AON_LOST (R416). -/
  | vddAonLost (t : Nat)
  /-- FEC_CODEWORD (R156). -/
  | fecCodeword (t : Nat) (port : Nat) (bad : Bool) (corrected : Bool)
deriving DecidableEq, Repr

/-- The elapsed time that a command carries, in 2⁻¹⁶ ns (log entry 2). -/
def Instr.time : Instr → Nat
  | .powerUp t _ _ _ => t
  | .resetNFall t _ => t
  | .resetNRise t _ => t
  | .brownoutAssert t => t
  | .brownoutRelease t _ => t
  | .automaticBoot t => t
  | .load t _ _ _ _ _ => t
  | .apply t _ _ _ _ _ => t
  | .commit t _ _ _ _ _ => t
  | .abort t _ _ _ _ _ => t
  | .start t _ _ _ _ _ => t
  | .stop t _ _ _ _ _ => t
  | .mute t _ _ _ _ _ => t
  | .unmute t _ _ _ _ _ => t
  | .selectRef t _ _ _ _ _ => t
  | .stepPhase t _ _ _ _ _ => t
  | .takeover t _ _ _ _ _ => t
  | .yield t _ _ _ _ _ => t
  | .sleep t _ _ _ _ _ => t
  | .wake t _ _ _ _ _ => t
  | .snapshot t _ _ _ _ _ => t
  | .logFreeze t _ _ _ _ _ => t
  | .logThaw t _ _ _ _ _ => t
  | .scrub t _ _ _ _ _ => t
  | .resetBlock t _ _ _ _ _ => t
  | .commitEpoch t => t
  | .bankCopyDone t => t
  | .journalImageStored t _ => t
  | .startUnlockedTimeout t => t
  | .lockstepMismatch t => t
  | .controlCoreRestartDone t => t
  | .lockstepCauseExpiry t => t
  | .wakeInLevel t _ => t
  | .temperatureWake t _ => t
  | .linkEnergyWake t => t
  | .wakePatternMatch t _ => t
  | .wakeDomainsUp t => t
  | .spiTransactionStart t _ _ => t
  | .spiTransactionEnd t => t
  | .write t _ => t
  | .read t _ => t
  | .readStatus t => t
  | .readId t => t
  | .writeWin t _ => t
  | .readWin t _ => t
  | .bar0Read t _ _ _ _ => t
  | .bar0Write t _ _ _ _ => t
  | .bar2Access t _ _ _ _ => t
  | .registerWrite t _ _ _ _ => t
  | .aliasWrite t _ _ _ _ => t
  | .accessComplete t _ => t
  | .accessTimeout t _ => t
  | .unlockKeyWrite t _ _ => t
  | .unlockLapse t _ => t
  | .attnSummaryRead t _ => t
  | .cmdDoneRead t _ => t
  | .mailboxLastWordRead t _ _ => t
  | .mailboxTimeout t _ _ => t
  | .parityScan t _ => t
  | .macFrameReceived t _ _ _ => t
  | .pauseExpiry t _ _ => t
  | .linkUp t _ => t
  | .linkDown t _ _ _ _ _ => t
  | .rateChanged t _ _ _ => t
  | .gateIntervalBoundary t _ => t
  | .txFrameStart t _ _ => t
  | .streamLaunch t _ _ => t
  | .txUnderrun t _ _ => t
  | .timestampFifoPop t _ _ _ => t
  | .macCounterRead t _ _ _ _ => t
  | .mdioWrite t _ _ => t
  | .mdioRead t _ _ => t
  | .mdioAddress t _ _ => t
  | .mdioReadIncrement t _ _ => t
  | .mdioFrameEnd t _ => t
  | .streamPacketBuild t _ => t
  | .killClear t _ _ _ _ => t
  | .rxSampleReadout t _ => t
  | .rxLockTimeout t _ => t
  | .pathLiveTimeout t _ => t
  | .policerToken t _ _ _ => t
  | .stxCounterRead t _ _ _ => t
  | .srxCounterRead t _ _ _ => t
  | .bellwetherEvaluation t _ _ => t
  | .ffoUpdate t _ => t
  | .waitToRestoreExpiry t _ => t
  | .refLossTimeout t _ => t
  | .refPinEdge t _ => t
  | .ptpMessageReceived t _ _ _ _ _ _ => t
  | .ptpMessageInterval t _ _ => t
  | .ptpAnnounceTimeout t _ => t
  | .ptpRestart t _ _ _ _ => t
  | .pullComplete t => t
  | .phaseStepAtOnce t => t
  | .secLoadArm t _ _ => t
  | .secLoadApply t => t
  | .refCfgWrite t _ _ _ => t
  | .fpgAlignRequest t _ _ _ => t
  | .framePulse t _ => t
  | .timeMailboxRead t _ _ _ => t
  | .ptpDatasetRead t _ _ _ => t
  | .frequencyCorrectionUpdate t _ => t
  | .msyUpdate t _ _ _ => t
  | .msyEnableWrite t _ _ _ => t
  | .ditherSeedLoad t => t
  | .synthLock t _ _ => t
  | .synthLossOfLock t _ _ => t
  | .ssyCtlWrite t _ _ => t
  | .spreadPeriodStart t => t
  | .clkoutConfigWrite t _ _ _ _ => t
  | .syncArm t _ _ => t
  | .syncInEdge t => t
  | .sideConfigWrite t _ _ _ _ => t
  | .maskWrite t _ _ _ => t
  | .portBlockBoundary t _ _ => t
  | .portFault t _ _ => t
  | .portAnchor t _ _ _ => t
  | .aesLock t _ _ => t
  | .aesCsBlockEnd t _ _ => t
  | .madiLock t _ _ => t
  | .outGainWrite t _ _ _ => t
  | .zeroCrossingApply t _ _ => t
  | .zeroCrossingTimeout t _ => t
  | .nodeRelease t _ => t
  | .bundleIssue t _ _ _ => t
  | .programInterrupt t _ => t
  | .tileTimerExpiry t _ => t
  | .transferComplete t _ _ _ => t
  | .deadlineMiss t _ => t
  | .preemptionDeferExpiry t _ => t
  | .tileReplaced t => t
  | .cwApply t _ _ => t
  | .tileLoadRead t _ _ => t
  | .ringTailWrite t _ _ _ => t
  | .ringEnable t _ _ _ => t
  | .ringDisable t _ _ _ => t
  | .extractionBlock t _ _ => t
  | .injectionBlockCheck t _ => t
  | .injectionDeadline t _ => t
  | .dmaReadCompletion t _ _ _ _ _ => t
  | .rxRingFrameWrite t _ _ => t
  | .txRingFrameFetch t _ _ _ _ => t
  | .commandRingFetch t _ _ => t
  | .msixCoalesceTimeout t _ => t
  | .msixUnmask t _ _ _ => t
  | .pcieLinkLost t _ => t
  | .busMasterOff t _ => t
  | .pcieFlr t => t
  | .dmaCounterRead t _ _ _ => t
  | .twinHeartbeatTx t => t
  | .twinHeartbeatRx t _ _ => t
  | .peerSilenceTimeout t => t
  | .twinTimeAverage t _ => t
  | .twinLaneDown t _ => t
  | .helloTx t => t
  | .helloReceived t _ => t
  | .mirrorItemReceived t _ _ => t
  | .digestReceived t _ => t
  | .digestTimeout t => t
  | .checkIndicatorExpiry t _ => t
  | .hbSymbol t => t
  | .ganderSymbolRecognised t _ _ => t
  | .ganderLostTimeout t => t
  | .arbHbSymbol t _ _ => t
  | .arbInputSilent t _ => t
  | .ganderDecision t => t
  | .resyncStart t => t
  | .resyncSnapshot t _ => t
  | .resyncInstallDone t _ => t
  | .resyncLimitExpiry t => t
  | .rejoin t => t
  | .stateReset t _ _ => t
  | .twinForceWrite t _ _ => t
  | .twinMailboxRead t _ _ _ => t
  | .laneHelloTx t _ => t
  | .laneHelloReceived t _ _ => t
  | .laneHelloTimeout t _ => t
  | .ubleyBlockLockLoss t _ => t
  | .linkStateTx t => t
  | .linkStateRecord t _ _ => t
  | .fabricFormTimer t => t
  | .form t _ _ => t
  | .routeRebuild t => t
  | .laneDelayExchange t _ _ _ => t
  | .fabricTimeTx t => t
  | .fabricTimeMessage t _ _ _ _ => t
  | .cellSend t _ => t
  | .cellReceived t _ _ => t
  | .fabricSampleReadout t _ => t
  | .fabricFlowWrite t _ _ _ => t
  | .fabricConfigReport t _ _ => t
  | .fabricAgreeTimeout t => t
  | .fabMailboxRead t _ _ _ => t
  | .eventRecord t _ => t
  | .logPageTimer t => t
  | .nandOpComplete t _ => t
  | .nandOpTimeout t _ => t
  | .mediumRetry t => t
  | .mediumRetryEnd t _ => t
  | .patrolRead t _ => t
  | .xferRead t _ _ => t
  | .xferProgram t _ _ => t
  | .xferComplete t _ => t
  | .partitionErased t _ _ => t
  | .nandFormatted t _ _ => t
  | .storeCounterRead t _ _ _ => t
  | .logSummary t _ _ => t
  | .logLiveRead t _ _ => t
  | .snapOpen t _ _ => t
  | .snapNext t _ _ => t
  | .snapFbNext t _ _ => t
  | .snapClose t _ _ => t
  | .snapTimeout t _ => t
  | .opsecTick t => t
  | .domainRequestWrite t _ _ => t
  | .domainForceWrite t _ _ => t
  | .domainUp t _ => t
  | .temperatureMeasure t _ => t
  | .pwrOvertemp t _ => t
  | .mailboxReplyStored t _ _ => t
  | .twinLaneUp t _ => t
  | .takeoverTimeout t => t
  | .yieldTimeout t => t
  | .aesUnlock t _ => t
  | .madiUnlock t _ => t
  | .portClockReturns t _ => t
  | .dmaReadTimeout t _ _ _ => t
  | .pcieLinkUp t _ _ _ _ _ _ => t
  | .vddAonLost t => t
  | .fecCodeword t _ _ _ => t

end Sys2Proof
end

