-- ==== Sys2Proof/Config.lean ====
section
/-!
DEFINITION. What the spec leaves open: constants without a body. Nothing in Lean can evaluate them or prove a value of them, so a
claim that mentions one holds for every value it could have.
-/
namespace Sys2Proof

/-- The n-th free value taken: a value that the spec does not state (log entry 4). A meaning takes the bits it needs and advances
the counter `free` of the state. -/
opaque Config.freeValue : Nat → Nat

/-- Whether a firmware image, named by its CRC-32, fails to start at step 8 of APPLY: the image is opaque and the spec does not say when it
starts (R108, R109; log entry 39). -/
opaque Config.fwFails : Nat → Bool

/-- The step that the level loop of an audio port takes at one block, in 0.01 ppm, from the bandwidth step in force, the level in 2⁻¹² frame and the
correction so far: R254 calls it a proportional-integral loop and states no arithmetic (log entry 30). The last argument counts free values. -/
opaque Config.levelStep : Nat → Int → Int → Nat → Int

/-- The phase of OSC_M at elapsed time 0, in 2⁻⁵⁶ ns: the spec does not state it (log entry 96). -/
opaque Config.oscPhase : Nat

end Sys2Proof
end

