-- ==== Sys2Proof/Machine/RegTypes.lean ====
section
/-!
DEFINITION. The shape of the register map: field types (Table 0-4), field and register descriptors.
-/
namespace Sys2Proof.Machine

/-- Field types of Table 0-4 (R12). -/
inductive FTy
  | rw | ro | w1c | rc | rwh | rwp | wo | rsv
deriving DecidableEq, Repr

/-- A bit field: its lowest bit and its width. -/
structure Fld where
  lo : Nat
  w : Nat
deriving DecidableEq, Repr

/-- One field of a register table: place, width, type, reset value, and whether the reset is marked /J (retained, R13). -/
structure FieldDesc where
  lo : Nat
  w : Nat
  ty : FTy
  reset : Nat
  kept : Bool
deriving DecidableEq, Repr

/-- A register, or an array of registers: first offset in the block's window, number of instances and their
stride, number of words per instance and their stride, and the fields of one word. -/
structure RegDesc where
  off : Nat
  cnt : Nat
  stride : Nat
  cnt2 : Nat
  stride2 : Nat
  fields : List FieldDesc
deriving DecidableEq, Repr

end Sys2Proof.Machine
end

