-- ==== Sys2Proof/Machine/Bits.lean ====
section
/-!
DEFINITION. Bit fields of words, byte order (R7), sign extension, and the CRC-32 of R104.
-/
namespace Sys2Proof.Machine

/-- The mask of a field within a word. -/
def Fld.mask (f : Fld) : Word := BitVec.ofNat 32 ((2 ^ f.w - 1) <<< f.lo)

/-- The value of a field. -/
def Fld.get (f : Fld) (v : Word) : Nat := (v.toNat >>> f.lo) % 2 ^ f.w

/-- A word with one field replaced (the value is taken modulo the field's width). -/
def Fld.put (f : Fld) (v : Word) (x : Nat) : Word :=
  (v &&& ~~~ f.mask) ||| (BitVec.ofNat 32 (x <<< f.lo) &&& f.mask)

/-- Whether bit n of a number is set. -/
def bit (v n : Nat) : Bool := v.testBit n

/-- 1 for true, 0 for false. -/
def b2n (b : Bool) : Nat := if b then 1 else 0

/-- A w-bit number read as signed (two's complement). -/
def sgn (w v : Nat) : Int := if v % 2 ^ w < 2 ^ (w - 1) then ((v % 2 ^ w : Nat) : Int) else ((v % 2 ^ w : Nat) : Int) - (2 : Int) ^ w

/-- The low w bits of an integer in two's complement. -/
def lowBits (w : Nat) (x : Int) : Nat := (x % (2 : Int) ^ w).toNat

/-- Saturate an integer to w signed bits. -/
def satS (w : Nat) (x : Int) : Int :=
  if x > (2 : Int) ^ (w - 1) - 1 then (2 : Int) ^ (w - 1) - 1 else if x < -((2 : Int) ^ (w - 1)) then -((2 : Int) ^ (w - 1)) else x

/-- Clamp an integer to −lim … lim. -/
def clamp (lim x : Int) : Int := if x > lim then lim else if x < -lim then -lim else x

/-- Mask of the bytes enabled in a 4-bit byte-enable field. -/
def beMask (be : Nat) : Word :=
  (if bit be 0 then 0x000000FF else 0) ||| (if bit be 1 then 0x0000FF00 else 0) |||
  (if bit be 2 then 0x00FF0000 else 0) ||| (if bit be 3 then 0xFF000000 else 0)

/-- The n bytes of a number, least significant first (R7). -/
def leBytes : Nat → Nat → List Byte
  | 0, _ => []
  | n + 1, v => BitVec.ofNat 8 v :: leBytes n (v / 256)

/-- The number whose bytes are given, least significant first (R7). -/
def ofLe : List Byte → Nat
  | [] => 0
  | b :: r => b.toNat + 256 * ofLe r

/-- The number whose bytes are given, most significant first (network byte order, R7). -/
def ofBe (l : List Byte) : Nat := l.foldl (fun a b => a * 256 + b.toNat) 0

/-- The n bytes of a number, most significant first. -/
def beBytes (n v : Nat) : List Byte := (leBytes n v).reverse

/-- k bytes of a list from an offset, read most significant first; bytes past the end read 0. -/
def beAt (l : List Byte) (o k : Nat) : Nat := ofBe ((l.drop o).take k)

/-- k bytes of a list from an offset, read least significant first. -/
def leAt (l : List Byte) (o k : Nat) : Nat := ofLe ((l.drop o).take k)

/-- Byte at an offset; 0 past the end. -/
def byteAt (l : List Byte) (o : Nat) : Nat := (l.getD o 0).toNat

/-- One bit of the reflected CRC-32 of IEEE 802.3 (R104). -/
def crcBit (c : Nat) : Nat := if c % 2 = 1 then (c / 2) ^^^ 0xEDB88320 else c / 2

/-- One byte of the CRC-32. -/
def crcByte (c : Nat) (b : Byte) : Nat :=
  crcBit (crcBit (crcBit (crcBit (crcBit (crcBit (crcBit (crcBit (c ^^^ b.toNat))))))))

/-- The CRC-32 of a byte string: initial value and final inversion all ones (R104). -/
def crc32 (l : List Byte) : Nat := (l.foldl crcByte 0xFFFFFFFF) ^^^ 0xFFFFFFFF

/-- Set, or clear, bit n of a number. -/
def setBit (v n : Nat) (b : Bool) : Nat := if b then v ||| (1 <<< n) else if v.testBit n then v - (1 <<< n) else v

/-- The numbers below n whose bit is set in v. -/
def bitsOf (n v : Nat) : List Nat := (List.range n).filter (fun k => v.testBit k)

/-- A number with exactly the listed bits set. -/
def ofBits (l : List Nat) : Nat := l.foldl (fun a k => setBit a k true) 0

/-- Rounded-up quotient. -/
def cdiv (a b : Nat) : Nat := (a + b - 1) / b

/-! ### Exact fractions (R128) -/

/-- A non-negative fraction: numerator and denominator. -/
abbrev Fr := Nat × Nat

/-- Sum, comparison, and rounding up. -/
def frAdd (a b : Fr) : Fr := if a.2 = b.2 then (a.1 + b.1, a.2) else (a.1 * b.2 + b.1 * a.2, a.2 * b.2)
def frLe (a b : Fr) : Bool := decide (a.1 * b.2 ≤ b.1 * a.2)
def frLt (a b : Fr) : Bool := decide (a.1 * b.2 < b.1 * a.2)
def frSum (l : List Fr) : Fr := l.foldl frAdd (0, 1)
def frCeil (a : Fr) : Nat := cdiv a.1 a.2

end Sys2Proof.Machine
end

