-- ==== Sys2Proof/Machine/RegMap.lean ====
section
/-! DEFINITION. The register map: for every block, the registers and fields of the spec's field tables (R12, R51, R77, and the tables named at each list), with type, reset value and the /J mark. -/

namespace Sys2Proof.Machine

/-- Registers of block SYS, from Tables 1-3, 1-4, 2-3, 2-4, 2-5, 2-6, 2-7, 2-15, 3-10, 3-11, 3-12, 3-13, 3-14, 4-1, 4-2, 4-3, 4-4, 4-8, 4-9, 4-12, 4-14, 14-6, 14-7. -/
def regMapSYSA : List RegDesc := [
  ⟨0x40, 1, 0x4, 1, 0x4, [⟨0, 19, .ro, 0x0, false⟩, ⟨19, 12, .rsv, 0x0, false⟩, ⟨31, 1, .rc, 0x0, false⟩]⟩,
  ⟨0x44, 1, 0x4, 1, 0x4, [⟨0, 19, .rw, 0x7FFFF, false⟩, ⟨19, 13, .rsv, 0x0, false⟩]⟩,
  ⟨0x4, 1, 0x4, 1, 0x4, [⟨0, 16, .ro, 0x9, false⟩, ⟨16, 8, .ro, 0x1, false⟩, ⟨24, 8, .ro, 0x5A, false⟩]⟩,
  ⟨0x8, 1, 0x4, 1, 0x4, [⟨0, 4, .ro, 0x0, false⟩, ⟨4, 1, .ro, 0x0, false⟩, ⟨5, 1, .ro, 0x0, false⟩, ⟨6, 1, .ro, 0x0, false⟩, ⟨7, 2, .ro, 0x0, false⟩, ⟨9, 7, .rsv, 0x0, false⟩, ⟨16, 16, .ro, 0x0, false⟩]⟩,
  ⟨0xC, 1, 0x4, 1, 0x4, [⟨0, 6, .ro, 0x0, false⟩, ⟨6, 6, .ro, 0x0, false⟩, ⟨12, 4, .ro, 0x0, false⟩, ⟨16, 3, .ro, 0x0, false⟩, ⟨19, 4, .ro, 0x0, false⟩, ⟨23, 3, .ro, 0x0, false⟩, ⟨26, 6, .rsv, 0x0, false⟩]⟩,
  ⟨0x10, 1, 0x4, 1, 0x4, [⟨0, 32, .ro, 0x0, false⟩]⟩,
  ⟨0x14, 1, 0x4, 1, 0x4, [⟨0, 32, .ro, 0x0, false⟩]⟩,
  ⟨0x18, 1, 0x4, 1, 0x4, [⟨0, 1, .ro, 0x0, false⟩, ⟨1, 1, .ro, 0x0, false⟩, ⟨2, 1, .ro, 0x0, false⟩, ⟨3, 1, .ro, 0x0, false⟩, ⟨4, 28, .rsv, 0x0, false⟩]⟩,
  ⟨0x1C, 1, 0x4, 1, 0x4, [⟨0, 2, .ro, 0x0, false⟩, ⟨2, 2, .ro, 0x0, false⟩, ⟨4, 1, .ro, 0x0, false⟩, ⟨5, 1, .ro, 0x0, false⟩, ⟨6, 2, .rsv, 0x0, false⟩, ⟨8, 9, .ro, 0x0, false⟩, ⟨17, 9, .ro, 0x0, false⟩, ⟨26, 6, .rsv, 0x0, false⟩]⟩,
  ⟨0x24, 1, 0x4, 1, 0x4, [⟨0, 26, .ro, 0x0, false⟩, ⟨26, 1, .ro, 0x0, false⟩, ⟨27, 5, .rsv, 0x0, false⟩]⟩,
  ⟨0x28, 1, 0x4, 1, 0x4, [⟨0, 4, .ro, 0x0, false⟩, ⟨4, 1, .ro, 0x0, false⟩, ⟨5, 1, .ro, 0x0, false⟩, ⟨6, 2, .rsv, 0x0, false⟩, ⟨8, 8, .ro, 0x0, false⟩, ⟨16, 15, .rsv, 0x0, false⟩, ⟨31, 1, .w1c, 0x0, false⟩]⟩,
  ⟨0x20, 1, 0x4, 1, 0x4, [⟨0, 16, .wo, 0x0, false⟩, ⟨16, 1, .ro, 0x0, false⟩, ⟨17, 1, .ro, 0x0, false⟩, ⟨18, 14, .rsv, 0x0, false⟩]⟩,
  ⟨0x30, 1, 0x4, 1, 0x4, [⟨0, 32, .ro, 0xAAAAAAAA, false⟩]⟩,
  ⟨0x34, 1, 0x4, 1, 0x4, [⟨0, 6, .ro, 0x2A, false⟩, ⟨6, 26, .rsv, 0x0, false⟩]⟩]

/-- Registers of block SYS, from Tables 1-3, 1-4, 2-3, 2-4, 2-5, 2-6, 2-7, 2-15, 3-10, 3-11, 3-12, 3-13, 3-14, 4-1, 4-2, 4-3, 4-4, 4-8, 4-9, 4-12, 4-14, 14-6, 14-7. -/
def regMapSYSB : List RegDesc := [
  ⟨0x38, 1, 0x4, 1, 0x4, [⟨0, 19, .w1c, 0x0, false⟩, ⟨19, 13, .rsv, 0x0, false⟩]⟩,
  ⟨0x50, 1, 0x4, 1, 0x4, [⟨0, 3, .ro, 0x1, false⟩, ⟨3, 1, .ro, 0x0, false⟩, ⟨4, 3, .ro, 0x0, false⟩, ⟨7, 25, .rsv, 0x0, false⟩]⟩,
  ⟨0x54, 1, 0x4, 1, 0x4, [⟨0, 1, .ro, 0x0, false⟩, ⟨1, 1, .ro, 0x0, false⟩, ⟨2, 1, .ro, 0x0, false⟩, ⟨3, 1, .ro, 0x0, false⟩, ⟨4, 1, .ro, 0x0, false⟩, ⟨5, 1, .ro, 0x0, false⟩, ⟨6, 26, .rsv, 0x0, false⟩]⟩,
  ⟨0x58, 1, 0x4, 1, 0x4, [⟨0, 1, .rw, 0x1, true⟩, ⟨1, 1, .rwh, 0x0, true⟩, ⟨2, 30, .rsv, 0x0, false⟩]⟩,
  ⟨0x5C, 1, 0x4, 1, 0x4, [⟨0, 3, .ro, 0x0, false⟩, ⟨3, 1, .ro, 0x0, false⟩, ⟨4, 1, .ro, 0x0, false⟩, ⟨5, 1, .ro, 0x0, false⟩, ⟨6, 2, .ro, 0x0, false⟩, ⟨8, 1, .ro, 0x0, false⟩, ⟨9, 3, .rsv, 0x0, false⟩, ⟨12, 4, .ro, 0x0, false⟩, ⟨16, 16, .rsv, 0x0, false⟩]⟩,
  ⟨0x60, 1, 0x4, 1, 0x4, [⟨0, 32, .rw, 0x0, false⟩]⟩,
  ⟨0x64, 1, 0x4, 1, 0x4, [⟨0, 32, .rw, 0x0, false⟩]⟩,
  ⟨0x68, 1, 0x4, 1, 0x4, [⟨0, 8, .wo, 0x0, false⟩, ⟨8, 8, .wo, 0x0, false⟩, ⟨16, 1, .wo, 0x0, false⟩, ⟨17, 15, .rsv, 0x0, false⟩]⟩,
  ⟨0x6C, 1, 0x4, 1, 0x4, [⟨0, 6, .ro, 0x0, false⟩, ⟨6, 6, .ro, 0x0, false⟩, ⟨12, 4, .rsv, 0x0, false⟩, ⟨16, 1, .w1c, 0x0, false⟩, ⟨17, 1, .w1c, 0x0, false⟩, ⟨18, 1, .w1c, 0x0, false⟩, ⟨19, 1, .w1c, 0x0, false⟩, ⟨20, 12, .rsv, 0x0, false⟩]⟩,
  ⟨0x70, 1, 0x4, 1, 0x4, [⟨0, 8, .rc, 0x0, false⟩, ⟨8, 8, .rc, 0x0, false⟩, ⟨16, 4, .rc, 0x0, false⟩, ⟨20, 1, .rc, 0x0, false⟩, ⟨21, 11, .rc, 0x0, false⟩]⟩,
  ⟨0x74, 1, 0x4, 1, 0x4, [⟨0, 1, .ro, 0x0, false⟩, ⟨1, 1, .ro, 0x0, false⟩, ⟨2, 1, .ro, 0x0, false⟩, ⟨3, 1, .rsv, 0x0, false⟩, ⟨4, 10, .ro, 0x0, false⟩, ⟨14, 2, .rsv, 0x0, false⟩, ⟨16, 16, .ro, 0x0, false⟩]⟩,
  ⟨0xC0, 1, 0x4, 1, 0x4, [⟨0, 1, .rw, 0x0, true⟩, ⟨1, 7, .rsv, 0x0, false⟩, ⟨8, 8, .rw, 0xA, true⟩, ⟨16, 16, .rsv, 0x0, false⟩]⟩,
  ⟨0xC4, 1, 0x4, 1, 0x4, [⟨0, 2, .ro, 0x2, false⟩, ⟨2, 3, .ro, 0x0, false⟩, ⟨5, 3, .ro, 0x0, false⟩, ⟨8, 1, .ro, 0x0, false⟩, ⟨9, 1, .ro, 0x0, false⟩, ⟨10, 6, .rsv, 0x0, false⟩, ⟨16, 1, .w1c, 0x0, false⟩, ⟨17, 1, .w1c, 0x0, false⟩, ⟨18, 1, .w1c, 0x0, false⟩, ⟨19, 13, .rsv, 0x0, false⟩]⟩]

/-- Registers of block PWR, from Tables 17-2. -/
def regMapPWR : List RegDesc := [
  ⟨0x100, 1, 0x4, 1, 0x4, [⟨0, 1, .w1c, 0x0, false⟩, ⟨1, 1, .w1c, 0x0, false⟩, ⟨2, 1, .w1c, 0x0, false⟩, ⟨3, 1, .w1c, 0x0, false⟩, ⟨4, 1, .w1c, 0x0, false⟩, ⟨5, 27, .rsv, 0x0, false⟩]⟩,
  ⟨0x104, 1, 0x4, 1, 0x4, [⟨0, 5, .rw, 0x1F, false⟩, ⟨5, 27, .rsv, 0x0, false⟩]⟩,
  ⟨0x108, 1, 0x4, 1, 0x4, [⟨0, 12, .ro, 0x7, false⟩, ⟨12, 4, .rsv, 0x0, false⟩, ⟨16, 12, .ro, 0x0, false⟩, ⟨28, 4, .rsv, 0x0, false⟩]⟩,
  ⟨0x10C, 1, 0x4, 1, 0x4, [⟨0, 3, .ro, 0x7, false⟩, ⟨3, 9, .rw, 0x0, false⟩, ⟨12, 20, .rsv, 0x0, false⟩]⟩,
  ⟨0x110, 1, 0x4, 1, 0x4, [⟨0, 3, .rsv, 0x0, false⟩, ⟨3, 9, .rwp, 0x0, false⟩, ⟨12, 20, .rsv, 0x0, false⟩]⟩,
  ⟨0x114, 1, 0x4, 1, 0x4, [⟨0, 1, .rw, 0x1, true⟩, ⟨1, 1, .rw, 0x0, true⟩, ⟨2, 1, .rw, 0x0, true⟩, ⟨3, 1, .rw, 0x0, true⟩, ⟨4, 1, .rw, 0x0, true⟩, ⟨5, 27, .rsv, 0x0, false⟩]⟩,
  ⟨0x118, 1, 0x4, 1, 0x4, [⟨0, 5, .ro, 0x0, false⟩, ⟨5, 27, .rsv, 0x0, false⟩]⟩,
  ⟨0x11C, 1, 0x4, 1, 0x4, [⟨0, 11, .ro, 0x0, false⟩, ⟨11, 1, .ro, 0x0, false⟩, ⟨12, 20, .rsv, 0x0, false⟩]⟩,
  ⟨0x120, 1, 0x4, 1, 0x4, [⟨0, 8, .rw, 0x69, true⟩, ⟨8, 8, .rw, 0x50, true⟩, ⟨16, 1, .rw, 0x0, true⟩, ⟨17, 15, .rsv, 0x0, false⟩]⟩]

/-- Registers of block CLK, from Tables 10-2, 10-3, 10-4, 10-5, 10-6. -/
def regMapCLK : List RegDesc := [
  ⟨0x100, 1, 0x4, 1, 0x4, [⟨0, 1, .w1c, 0x0, false⟩, ⟨1, 4, .w1c, 0x0, false⟩, ⟨5, 1, .w1c, 0x0, false⟩, ⟨6, 1, .w1c, 0x0, false⟩, ⟨7, 1, .w1c, 0x0, false⟩, ⟨8, 24, .rsv, 0x0, false⟩]⟩,
  ⟨0x104, 1, 0x4, 1, 0x4, [⟨0, 8, .rw, 0xFF, false⟩, ⟨8, 24, .rsv, 0x0, false⟩]⟩,
  ⟨0x108, 1, 0x4, 1, 0x4, [⟨0, 1, .ro, 0x0, false⟩, ⟨1, 4, .ro, 0x0, false⟩, ⟨5, 1, .ro, 0x0, false⟩, ⟨6, 1, .ro, 0x0, false⟩, ⟨7, 1, .rsv, 0x0, false⟩, ⟨8, 5, .ro, 0x0, false⟩, ⟨13, 3, .rsv, 0x0, false⟩, ⟨16, 16, .ro, 0x0, false⟩]⟩,
  ⟨0x200, 1, 0x4, 1, 0x4, [⟨0, 1, .ro, 0x1, false⟩, ⟨1, 1, .ro, 0x1, false⟩, ⟨2, 2, .ro, 0x0, false⟩, ⟨4, 6, .ro, 0x10, false⟩, ⟨10, 22, .rsv, 0x0, false⟩]⟩,
  ⟨0x204, 1, 0x4, 1, 0x4, [⟨0, 20, .ro, 0x1000, false⟩, ⟨20, 12, .rsv, 0x0, false⟩]⟩,
  ⟨0x210, 3, 0x10, 1, 0x4, [⟨0, 1, .rw, 0x0, false⟩, ⟨1, 1, .rw, 0x1, false⟩, ⟨2, 2, .rw, 0x0, false⟩, ⟨4, 6, .rw, 0x10, false⟩, ⟨10, 1, .rwh, 0x0, false⟩, ⟨11, 1, .ro, 0x0, false⟩, ⟨12, 20, .rsv, 0x0, false⟩]⟩,
  ⟨0x214, 3, 0x10, 1, 0x4, [⟨0, 20, .rw, 0x1000, false⟩, ⟨20, 12, .rsv, 0x0, false⟩]⟩,
  ⟨0x208, 4, 0x10, 1, 0x4, [⟨0, 32, .rw, 0x1, false⟩]⟩,
  ⟨0x110, 1, 0x4, 1, 0x4, [⟨0, 1, .rw, 0x0, false⟩, ⟨1, 1, .rw, 0x0, false⟩, ⟨2, 5, .rw, 0x1, false⟩, ⟨7, 25, .rsv, 0x0, false⟩]⟩,
  ⟨0x400, 16, 0x10, 1, 0x4, [⟨0, 1, .rw, 0x0, false⟩, ⟨1, 1, .rw, 0x1, false⟩, ⟨2, 4, .rw, 0x0, false⟩, ⟨6, 2, .rw, 0x0, false⟩, ⟨8, 24, .rsv, 0x0, false⟩]⟩,
  ⟨0x404, 16, 0x10, 1, 0x4, [⟨0, 24, .rw, 0x1, false⟩, ⟨24, 8, .rsv, 0x0, false⟩]⟩,
  ⟨0x408, 16, 0x10, 1, 0x4, [⟨0, 16, .rw, 0x0, false⟩, ⟨16, 9, .rw, 0x0, false⟩, ⟨25, 7, .rsv, 0x0, false⟩]⟩,
  ⟨0x600, 1, 0x4, 1, 0x4, [⟨0, 16, .rw, 0x0, false⟩, ⟨16, 1, .rw, 0x0, false⟩, ⟨17, 1, .rwh, 0x0, false⟩, ⟨18, 14, .rsv, 0x0, false⟩]⟩,
  ⟨0x604, 1, 0x4, 1, 0x4, [⟨0, 16, .rwp, 0x0, false⟩, ⟨16, 16, .rsv, 0x0, false⟩]⟩]

/-- Registers of block TIME, from Tables 9-4, 9-7, 9-8, 9-12. -/
def regMapTIMEA : List RegDesc := [
  ⟨0x200, 6, 0x20, 1, 0x4, [⟨0, 1, .rw, 0x0, true⟩, ⟨1, 1, .rw, 0x0, true⟩, ⟨2, 1, .rw, 0x0, true⟩, ⟨3, 1, .rw, 0x0, true⟩, ⟨4, 2, .rw, 0x0, true⟩, ⟨6, 1, .rw, 0x0, true⟩, ⟨7, 1, .rw, 0x0, true⟩, ⟨8, 8, .rw, 0x0, true⟩, ⟨16, 1, .rw, 0x0, true⟩, ⟨17, 15, .rsv, 0x0, false⟩]⟩,
  ⟨0x204, 6, 0x20, 1, 0x4, [⟨0, 4, .rw, 0xD, true⟩, ⟨4, 4, .rw, 0x1, true⟩, ⟨8, 4, .rw, 0xD, true⟩, ⟨12, 4, .rw, 0x3, true⟩, ⟨16, 8, .rw, 0x80, true⟩, ⟨24, 8, .rw, 0x80, true⟩]⟩,
  ⟨0x208, 6, 0x20, 1, 0x4, [⟨0, 4, .ro, 0x0, false⟩, ⟨4, 28, .rsv, 0x0, false⟩]⟩,
  ⟨0x20C, 6, 0x20, 1, 0x4, [⟨0, 8, .rw, 0xF8, true⟩, ⟨8, 8, .rw, 0xFE, true⟩, ⟨16, 16, .rw, 0xFFFF, true⟩]⟩,
  ⟨0x100, 1, 0x4, 1, 0x4, [⟨0, 1, .w1c, 0x0, false⟩, ⟨1, 1, .w1c, 0x0, false⟩, ⟨2, 1, .w1c, 0x0, false⟩, ⟨3, 1, .w1c, 0x0, false⟩, ⟨4, 1, .w1c, 0x0, false⟩, ⟨5, 1, .w1c, 0x0, false⟩, ⟨6, 1, .w1c, 0x0, false⟩, ⟨7, 1, .w1c, 0x0, false⟩, ⟨8, 1, .w1c, 0x0, false⟩, ⟨9, 1, .w1c, 0x0, false⟩, ⟨10, 1, .w1c, 0x0, false⟩, ⟨11, 1, .w1c, 0x0, false⟩, ⟨12, 20, .rsv, 0x0, false⟩]⟩,
  ⟨0x104, 1, 0x4, 1, 0x4, [⟨0, 12, .rw, 0xFFF, false⟩, ⟨12, 20, .rsv, 0x0, false⟩]⟩,
  ⟨0x108, 1, 0x4, 1, 0x4, [⟨0, 2, .ro, 0x0, false⟩, ⟨2, 1, .ro, 0x0, false⟩, ⟨3, 1, .ro, 0x0, false⟩, ⟨4, 1, .ro, 0x0, false⟩, ⟨5, 1, .ro, 0x0, false⟩, ⟨6, 2, .rsv, 0x0, false⟩, ⟨8, 4, .ro, 0x0, false⟩, ⟨12, 4, .ro, 0x0, true⟩, ⟨16, 3, .ro, 0x7, false⟩, ⟨19, 1, .rsv, 0x0, false⟩, ⟨20, 4, .ro, 0x0, false⟩, ⟨24, 8, .rsv, 0x0, false⟩]⟩,
  ⟨0x110, 1, 0x4, 1, 0x4, [⟨0, 1, .rw, 0x0, true⟩, ⟨1, 10, .rw, 0x12C, true⟩, ⟨11, 8, .rw, 0xA, true⟩, ⟨19, 13, .rsv, 0x0, false⟩]⟩,
  ⟨0x114, 1, 0x4, 1, 0x4, [⟨0, 10, .rw, 0x64, true⟩, ⟨10, 4, .rw, 0x6, true⟩, ⟨14, 2, .rsv, 0x0, false⟩, ⟨16, 10, .rw, 0x14, true⟩, ⟨26, 6, .rsv, 0x0, false⟩]⟩,
  ⟨0x118, 1, 0x4, 1, 0x4, [⟨0, 11, .rw, 0x14, true⟩, ⟨11, 11, .rw, 0x64, true⟩, ⟨22, 8, .rw, 0xA, true⟩, ⟨30, 2, .rsv, 0x0, false⟩]⟩,
  ⟨0x120, 1, 0x4, 1, 0x4, [⟨0, 32, .rw, 0x0, false⟩]⟩,
  ⟨0x124, 1, 0x4, 1, 0x4, [⟨0, 16, .rw, 0x0, false⟩, ⟨16, 1, .rwh, 0x0, false⟩, ⟨17, 1, .ro, 0x0, false⟩, ⟨18, 14, .rsv, 0x0, false⟩]⟩,
  ⟨0x140, 16, 0x4, 1, 0x4, [⟨0, 4, .rw, 0x0, true⟩, ⟨4, 6, .rw, 0x0, true⟩, ⟨10, 3, .rw, 0x0, true⟩, ⟨13, 2, .rw, 0x0, true⟩, ⟨15, 17, .rsv, 0x0, false⟩]⟩,
  ⟨0x180, 16, 0x4, 1, 0x4, [⟨0, 3, .ro, 0x0, false⟩, ⟨3, 1, .ro, 0x0, false⟩, ⟨4, 1, .ro, 0x0, false⟩, ⟨5, 1, .ro, 0x0, false⟩, ⟨6, 6, .rsv, 0x0, false⟩, ⟨12, 20, .ro, 0x0, false⟩]⟩]

/-- Registers of block TIME, from Tables 9-4, 9-7, 9-8, 9-12. -/
def regMapTIMEB : List RegDesc := [
  ⟨0x300, 4, 0x10, 1, 0x4, [⟨0, 3, .rw, 0x0, true⟩, ⟨3, 1, .rwh, 0x0, false⟩, ⟨4, 1, .ro, 0x0, false⟩, ⟨5, 27, .rsv, 0x0, false⟩]⟩,
  ⟨0x304, 4, 0x10, 1, 0x4, [⟨0, 30, .rw, 0x0, true⟩, ⟨30, 2, .rsv, 0x0, false⟩]⟩,
  ⟨0x308, 4, 0x10, 1, 0x4, [⟨0, 16, .rw, 0x0, true⟩, ⟨16, 16, .rsv, 0x0, false⟩]⟩,
  ⟨0x30C, 4, 0x10, 1, 0x4, [⟨0, 32, .rw, 0x0, true⟩]⟩]

/-- Registers of block MAC, from Tables 6-4, 6-5, 6-6, 6-7, 6-8, 6-9, 6-10. -/
def regMapMACA : List RegDesc := [
  ⟨0x100, 1, 0x4, 1, 0x4, [⟨0, 2, .rw, 0x0, false⟩, ⟨2, 1, .rw, 0x0, false⟩, ⟨3, 1, .rw, 0x1, false⟩, ⟨4, 1, .rw, 0x0, false⟩, ⟨5, 1, .rw, 0x0, false⟩, ⟨6, 1, .rw, 0x0, false⟩, ⟨7, 1, .rw, 0x0, false⟩, ⟨8, 24, .rsv, 0x0, false⟩]⟩,
  ⟨0x104, 1, 0x4, 1, 0x4, [⟨0, 1, .ro, 0x0, false⟩, ⟨1, 1, .ro, 0x0, false⟩, ⟨2, 1, .ro, 0x0, false⟩, ⟨3, 1, .ro, 0x0, false⟩, ⟨4, 1, .ro, 0x0, false⟩, ⟨5, 3, .rsv, 0x0, false⟩, ⟨8, 8, .ro, 0x0, false⟩, ⟨16, 2, .ro, 0x0, false⟩, ⟨18, 14, .rsv, 0x0, false⟩]⟩,
  ⟨0x108, 1, 0x4, 1, 0x4, [⟨0, 1, .w1c, 0x0, false⟩, ⟨1, 1, .w1c, 0x0, false⟩, ⟨2, 1, .w1c, 0x0, false⟩, ⟨3, 1, .w1c, 0x0, false⟩, ⟨4, 1, .w1c, 0x0, false⟩, ⟨5, 1, .w1c, 0x0, false⟩, ⟨6, 1, .w1c, 0x0, false⟩, ⟨7, 1, .w1c, 0x0, false⟩, ⟨8, 1, .w1c, 0x0, false⟩, ⟨9, 23, .rsv, 0x0, false⟩]⟩,
  ⟨0x10C, 1, 0x4, 1, 0x4, [⟨0, 9, .rw, 0x1FF, false⟩, ⟨9, 23, .rsv, 0x0, false⟩]⟩,
  ⟨0x110, 1, 0x4, 1, 0x4, [⟨0, 32, .rw, 0x0, false⟩]⟩,
  ⟨0x114, 1, 0x4, 1, 0x4, [⟨0, 16, .rw, 0x0, false⟩, ⟨16, 16, .rsv, 0x0, false⟩]⟩,
  ⟨0x118, 1, 0x4, 1, 0x4, [⟨0, 14, .rw, 0x5F2, false⟩, ⟨14, 18, .rsv, 0x0, false⟩]⟩,
  ⟨0x11C, 1, 0x4, 1, 0x4, [⟨0, 6, .rwh, 0x3, false⟩, ⟨6, 26, .rsv, 0x0, false⟩]⟩,
  ⟨0x120, 1, 0x4, 1, 0x4, [⟨0, 24, .rw, 0xFAC688, false⟩, ⟨24, 8, .rsv, 0x0, false⟩]⟩,
  ⟨0x130, 1, 0x4, 1, 0x4, [⟨0, 7, .ro, 0x0, false⟩, ⟨7, 9, .rsv, 0x0, false⟩, ⟨16, 16, .rwh, 0x0, false⟩]⟩,
  ⟨0x134, 1, 0x4, 1, 0x4, [⟨0, 16, .rw, 0x0, false⟩, ⟨16, 16, .rw, 0x0, false⟩]⟩,
  ⟨0x140, 1, 0x4, 1, 0x4, [⟨0, 9, .ro, 0x0, false⟩, ⟨9, 1, .ro, 0x0, false⟩, ⟨10, 6, .rsv, 0x0, false⟩, ⟨16, 16, .ro, 0x0, false⟩]⟩,
  ⟨0x200, 256, 0x4, 1, 0x4, [⟨0, 24, .ro, 0x0, false⟩, ⟨24, 8, .ro, 0x0, false⟩]⟩,
  ⟨0x600, 16, 0x20, 4, 0x4, [⟨0, 32, .rw, 0x0, false⟩]⟩]

/-- Registers of block MAC, from Tables 6-4, 6-5, 6-6, 6-7, 6-8, 6-9, 6-10. -/
def regMapMACB : List RegDesc := [
  ⟨0x610, 16, 0x20, 1, 0x4, [⟨0, 16, .rw, 0x0, false⟩, ⟨16, 1, .rw, 0x0, false⟩, ⟨17, 15, .rsv, 0x0, false⟩]⟩,
  ⟨0x800, 1, 0x4, 1, 0x4, [⟨0, 16, .w1c, 0x0, false⟩, ⟨16, 16, .rsv, 0x0, false⟩]⟩]

/-- Registers of block MACM, from Tables 6-11. -/
def regMapMACM : List RegDesc := [
  ⟨0x900, 1, 0x4, 1, 0x4, [⟨0, 5, .rw, 0x0, false⟩, ⟨5, 5, .rw, 0x0, false⟩, ⟨10, 1, .rw, 0x0, false⟩, ⟨11, 2, .rw, 0x0, false⟩, ⟨13, 1, .rwh, 0x0, false⟩, ⟨14, 2, .rsv, 0x0, false⟩, ⟨16, 16, .rw, 0x0, false⟩]⟩,
  ⟨0x904, 1, 0x4, 1, 0x4, [⟨0, 1, .ro, 0x0, false⟩, ⟨1, 15, .rsv, 0x0, false⟩, ⟨16, 16, .ro, 0x0, false⟩]⟩]

/-- Registers of block STX, from Tables 7-2, 7-3, 7-4. -/
def regMapSTXA : List RegDesc := [
  ⟨0x10000, 1024, 0x40, 1, 0x4, [⟨0, 1, .rw, 0x0, true⟩, ⟨1, 1, .ro, 0x0, false⟩, ⟨2, 1, .ro, 0x0, false⟩, ⟨3, 3, .ro, 0x0, false⟩, ⟨6, 2, .ro, 0x0, false⟩, ⟨8, 9, .ro, 0x0, false⟩, ⟨17, 2, .ro, 0x0, false⟩, ⟨19, 1, .ro, 0x0, false⟩, ⟨20, 1, .ro, 0x0, false⟩, ⟨21, 1, .ro, 0x0, false⟩, ⟨22, 1, .rw, 0x0, true⟩, ⟨23, 9, .rsv, 0x0, false⟩]⟩,
  ⟨0x20000, 1024, 0x40, 1, 0x4, [⟨0, 1, .ro, 0x0, true⟩, ⟨1, 1, .ro, 0x0, false⟩, ⟨2, 1, .ro, 0x0, false⟩, ⟨3, 3, .ro, 0x0, false⟩, ⟨6, 2, .ro, 0x0, false⟩, ⟨8, 9, .ro, 0x0, false⟩, ⟨17, 2, .ro, 0x0, false⟩, ⟨19, 1, .ro, 0x0, false⟩, ⟨20, 1, .ro, 0x0, false⟩, ⟨21, 1, .ro, 0x0, false⟩, ⟨22, 1, .ro, 0x0, true⟩, ⟨23, 9, .rsv, 0x0, false⟩]⟩,
  ⟨0x10004, 1024, 0x40, 1, 0x4, [⟨0, 12, .ro, 0x0, false⟩, ⟨12, 3, .ro, 0x0, false⟩, ⟨15, 1, .rsv, 0x0, false⟩, ⟨16, 12, .ro, 0x0, false⟩, ⟨28, 4, .rsv, 0x0, false⟩]⟩,
  ⟨0x20004, 1024, 0x40, 1, 0x4, [⟨0, 12, .ro, 0x0, false⟩, ⟨12, 3, .ro, 0x0, false⟩, ⟨15, 1, .rsv, 0x0, false⟩, ⟨16, 12, .ro, 0x0, false⟩, ⟨28, 4, .rsv, 0x0, false⟩]⟩,
  ⟨0x10008, 1024, 0x40, 1, 0x4, [⟨0, 32, .rw, 0x0, true⟩]⟩,
  ⟨0x20008, 1024, 0x40, 1, 0x4, [⟨0, 32, .ro, 0x0, true⟩]⟩,
  ⟨0x1000C, 1024, 0x40, 1, 0x4, [⟨0, 7, .rw, 0x0, true⟩, ⟨7, 9, .rsv, 0x0, false⟩, ⟨16, 16, .rw, 0x0, true⟩]⟩,
  ⟨0x2000C, 1024, 0x40, 1, 0x4, [⟨0, 7, .ro, 0x0, true⟩, ⟨7, 9, .rsv, 0x0, false⟩, ⟨16, 16, .ro, 0x0, true⟩]⟩,
  ⟨0x10010, 1024, 0x40, 1, 0x4, [⟨0, 32, .rw, 0x0, true⟩]⟩,
  ⟨0x20010, 1024, 0x40, 1, 0x4, [⟨0, 32, .ro, 0x0, true⟩]⟩,
  ⟨0x10014, 1024, 0x40, 1, 0x4, [⟨0, 16, .rw, 0x0, true⟩, ⟨16, 16, .rw, 0x0, true⟩]⟩,
  ⟨0x20014, 1024, 0x40, 1, 0x4, [⟨0, 16, .ro, 0x0, true⟩, ⟨16, 16, .ro, 0x0, true⟩]⟩,
  ⟨0x10018, 1024, 0x40, 1, 0x4, [⟨0, 6, .rw, 0x0, true⟩, ⟨6, 2, .rsv, 0x0, false⟩, ⟨8, 8, .rw, 0x0, true⟩, ⟨16, 12, .rw, 0x0, true⟩, ⟨28, 3, .rw, 0x0, true⟩, ⟨31, 1, .rsv, 0x0, false⟩]⟩,
  ⟨0x20018, 1024, 0x40, 1, 0x4, [⟨0, 6, .ro, 0x0, true⟩, ⟨6, 2, .rsv, 0x0, false⟩, ⟨8, 8, .ro, 0x0, true⟩, ⟨16, 12, .ro, 0x0, true⟩, ⟨28, 3, .ro, 0x0, true⟩, ⟨31, 1, .rsv, 0x0, false⟩]⟩]

/-- Registers of block STX, from Tables 7-2, 7-3, 7-4. -/
def regMapSTXB : List RegDesc := [
  ⟨0x1001C, 1024, 0x40, 1, 0x4, [⟨0, 32, .rw, 0x0, true⟩]⟩,
  ⟨0x2001C, 1024, 0x40, 1, 0x4, [⟨0, 32, .ro, 0x0, true⟩]⟩,
  ⟨0x10020, 1024, 0x40, 1, 0x4, [⟨0, 16, .rw, 0x0, true⟩, ⟨16, 16, .rw, 0x0, true⟩]⟩,
  ⟨0x20020, 1024, 0x40, 1, 0x4, [⟨0, 16, .ro, 0x0, true⟩, ⟨16, 16, .ro, 0x0, true⟩]⟩,
  ⟨0x10024, 1024, 0x40, 1, 0x4, [⟨0, 32, .rw, 0x0, true⟩]⟩,
  ⟨0x20024, 1024, 0x40, 1, 0x4, [⟨0, 32, .ro, 0x0, true⟩]⟩,
  ⟨0x10028, 1024, 0x40, 1, 0x4, [⟨0, 32, .rw, 0x0, true⟩]⟩,
  ⟨0x20028, 1024, 0x40, 1, 0x4, [⟨0, 32, .ro, 0x0, true⟩]⟩,
  ⟨0x1002C, 1024, 0x40, 1, 0x4, [⟨0, 32, .rw, 0x0, true⟩]⟩,
  ⟨0x2002C, 1024, 0x40, 1, 0x4, [⟨0, 32, .ro, 0x0, true⟩]⟩,
  ⟨0x10030, 1024, 0x40, 1, 0x4, [⟨0, 32, .rw, 0x0, true⟩]⟩,
  ⟨0x20030, 1024, 0x40, 1, 0x4, [⟨0, 32, .ro, 0x0, true⟩]⟩,
  ⟨0x10034, 1024, 0x40, 1, 0x4, [⟨0, 32, .rw, 0x0, true⟩]⟩,
  ⟨0x20034, 1024, 0x40, 1, 0x4, [⟨0, 32, .ro, 0x0, true⟩]⟩]

/-- Registers of block STX, from Tables 7-2, 7-3, 7-4. -/
def regMapSTXC : List RegDesc := [
  ⟨0x10038, 1024, 0x40, 1, 0x4, [⟨0, 9, .ro, 0x0, false⟩, ⟨9, 7, .rsv, 0x0, false⟩, ⟨16, 9, .ro, 0x0, false⟩, ⟨25, 7, .rsv, 0x0, false⟩]⟩,
  ⟨0x20038, 1024, 0x40, 1, 0x4, [⟨0, 9, .ro, 0x0, false⟩, ⟨9, 7, .rsv, 0x0, false⟩, ⟨16, 9, .ro, 0x0, false⟩, ⟨25, 7, .rsv, 0x0, false⟩]⟩,
  ⟨0x1003C, 1024, 0x40, 1, 0x4, [⟨0, 32, .rsv, 0x0, false⟩]⟩,
  ⟨0x2003C, 1024, 0x40, 1, 0x4, [⟨0, 32, .rsv, 0x0, false⟩]⟩,
  ⟨0x30000, 512, 0x20, 4, 0x4, [⟨0, 32, .rw, 0x0, true⟩]⟩,
  ⟨0x34000, 512, 0x20, 4, 0x4, [⟨0, 32, .ro, 0x0, true⟩]⟩,
  ⟨0x30010, 512, 0x20, 4, 0x4, [⟨0, 32, .rw, 0x0, true⟩]⟩,
  ⟨0x34010, 512, 0x20, 4, 0x4, [⟨0, 32, .ro, 0x0, true⟩]⟩,
  ⟨0x100, 1, 0x4, 1, 0x4, [⟨0, 1, .w1c, 0x0, false⟩, ⟨1, 1, .w1c, 0x0, false⟩, ⟨2, 30, .rsv, 0x0, false⟩]⟩,
  ⟨0x104, 1, 0x4, 1, 0x4, [⟨0, 2, .rw, 0x3, false⟩, ⟨2, 30, .rsv, 0x0, false⟩]⟩,
  ⟨0x108, 1, 0x4, 1, 0x4, [⟨0, 11, .ro, 0x0, false⟩, ⟨11, 21, .rsv, 0x0, false⟩]⟩,
  ⟨0x200, 32, 0x4, 1, 0x4, [⟨0, 32, .w1c, 0x0, false⟩]⟩]

/-- Registers of block SRX, from Tables 7-3, 8-3, 8-4, 8-8, 8-9, 8-10. -/
def regMapSRXA : List RegDesc := [
  ⟨0x30000, 512, 0x20, 4, 0x4, [⟨0, 32, .rw, 0x0, true⟩]⟩,
  ⟨0x34000, 512, 0x20, 4, 0x4, [⟨0, 32, .ro, 0x0, true⟩]⟩,
  ⟨0x30010, 512, 0x20, 4, 0x4, [⟨0, 32, .rw, 0x0, true⟩]⟩,
  ⟨0x34010, 512, 0x20, 4, 0x4, [⟨0, 32, .ro, 0x0, true⟩]⟩,
  ⟨0x10000, 1024, 0x40, 1, 0x4, [⟨0, 1, .rw, 0x0, true⟩, ⟨1, 1, .ro, 0x0, false⟩, ⟨2, 1, .ro, 0x0, false⟩, ⟨3, 3, .ro, 0x0, false⟩, ⟨6, 2, .ro, 0x0, false⟩, ⟨8, 9, .ro, 0x0, false⟩, ⟨17, 2, .ro, 0x0, false⟩, ⟨19, 1, .ro, 0x0, false⟩, ⟨20, 1, .ro, 0x0, false⟩, ⟨21, 1, .ro, 0x0, false⟩, ⟨22, 1, .rw, 0x0, true⟩, ⟨23, 1, .rw, 0x0, true⟩, ⟨24, 8, .rsv, 0x0, false⟩]⟩,
  ⟨0x20000, 1024, 0x40, 1, 0x4, [⟨0, 1, .ro, 0x0, true⟩, ⟨1, 1, .ro, 0x0, false⟩, ⟨2, 1, .ro, 0x0, false⟩, ⟨3, 3, .ro, 0x0, false⟩, ⟨6, 2, .ro, 0x0, false⟩, ⟨8, 9, .ro, 0x0, false⟩, ⟨17, 2, .ro, 0x0, false⟩, ⟨19, 1, .ro, 0x0, false⟩, ⟨20, 1, .ro, 0x0, false⟩, ⟨21, 1, .ro, 0x0, false⟩, ⟨22, 1, .ro, 0x0, true⟩, ⟨23, 1, .ro, 0x0, true⟩, ⟨24, 8, .rsv, 0x0, false⟩]⟩,
  ⟨0x10004, 1024, 0x40, 1, 0x4, [⟨0, 12, .ro, 0x0, false⟩, ⟨12, 19, .ro, 0x0, false⟩, ⟨31, 1, .rsv, 0x0, false⟩]⟩,
  ⟨0x20004, 1024, 0x40, 1, 0x4, [⟨0, 12, .ro, 0x0, false⟩, ⟨12, 19, .ro, 0x0, false⟩, ⟨31, 1, .rsv, 0x0, false⟩]⟩,
  ⟨0x10008, 1024, 0x40, 1, 0x4, [⟨0, 14, .ro, 0x0, false⟩, ⟨14, 2, .rsv, 0x0, false⟩, ⟨16, 14, .ro, 0x0, false⟩, ⟨30, 2, .rsv, 0x0, false⟩]⟩,
  ⟨0x20008, 1024, 0x40, 1, 0x4, [⟨0, 14, .ro, 0x0, false⟩, ⟨14, 2, .rsv, 0x0, false⟩, ⟨16, 14, .ro, 0x0, false⟩, ⟨30, 2, .rsv, 0x0, false⟩]⟩,
  ⟨0x1000C, 1024, 0x40, 1, 0x4, [⟨0, 32, .rw, 0x0, true⟩]⟩,
  ⟨0x2000C, 1024, 0x40, 1, 0x4, [⟨0, 32, .ro, 0x0, true⟩]⟩,
  ⟨0x10010, 1024, 0x40, 1, 0x4, [⟨0, 32, .rw, 0x0, true⟩]⟩,
  ⟨0x20010, 1024, 0x40, 1, 0x4, [⟨0, 32, .ro, 0x0, true⟩]⟩]

/-- Registers of block SRX, from Tables 7-3, 8-3, 8-4, 8-8, 8-9, 8-10. -/
def regMapSRXB : List RegDesc := [
  ⟨0x10014, 1024, 0x40, 1, 0x4, [⟨0, 16, .rw, 0x0, true⟩, ⟨16, 12, .rw, 0x0, true⟩, ⟨28, 4, .rsv, 0x0, false⟩]⟩,
  ⟨0x20014, 1024, 0x40, 1, 0x4, [⟨0, 16, .ro, 0x0, true⟩, ⟨16, 12, .ro, 0x0, true⟩, ⟨28, 4, .rsv, 0x0, false⟩]⟩,
  ⟨0x10018, 1024, 0x40, 1, 0x4, [⟨0, 6, .rw, 0x0, true⟩, ⟨6, 26, .rsv, 0x0, false⟩]⟩,
  ⟨0x20018, 1024, 0x40, 1, 0x4, [⟨0, 6, .ro, 0x0, true⟩, ⟨6, 26, .rsv, 0x0, false⟩]⟩,
  ⟨0x1001C, 1024, 0x40, 1, 0x4, [⟨0, 32, .rw, 0x0, true⟩]⟩,
  ⟨0x2001C, 1024, 0x40, 1, 0x4, [⟨0, 32, .ro, 0x0, true⟩]⟩,
  ⟨0x10020, 1024, 0x40, 1, 0x4, [⟨0, 32, .rw, 0x0, true⟩]⟩,
  ⟨0x20020, 1024, 0x40, 1, 0x4, [⟨0, 32, .ro, 0x0, true⟩]⟩,
  ⟨0x10024, 1024, 0x40, 1, 0x4, [⟨0, 32, .rw, 0x0, true⟩]⟩,
  ⟨0x20024, 1024, 0x40, 1, 0x4, [⟨0, 32, .ro, 0x0, true⟩]⟩,
  ⟨0x10028, 1024, 0x40, 1, 0x4, [⟨0, 32, .rw, 0x0, true⟩]⟩,
  ⟨0x20028, 1024, 0x40, 1, 0x4, [⟨0, 32, .ro, 0x0, true⟩]⟩,
  ⟨0x1002C, 1024, 0x40, 1, 0x4, [⟨0, 9, .ro, 0x0, false⟩, ⟨9, 7, .rsv, 0x0, false⟩, ⟨16, 9, .ro, 0x0, false⟩, ⟨25, 7, .rsv, 0x0, false⟩]⟩,
  ⟨0x2002C, 1024, 0x40, 1, 0x4, [⟨0, 9, .ro, 0x0, false⟩, ⟨9, 7, .rsv, 0x0, false⟩, ⟨16, 9, .ro, 0x0, false⟩, ⟨25, 7, .rsv, 0x0, false⟩]⟩]

/-- Registers of block SRX, from Tables 7-3, 8-3, 8-4, 8-8, 8-9, 8-10. -/
def regMapSRXC : List RegDesc := [
  ⟨0x10030, 1024, 0x40, 4, 0x4, [⟨0, 32, .rsv, 0x0, false⟩]⟩,
  ⟨0x20030, 1024, 0x40, 4, 0x4, [⟨0, 32, .rsv, 0x0, false⟩]⟩,
  ⟨0x100, 1, 0x4, 1, 0x4, [⟨0, 1, .w1c, 0x0, false⟩, ⟨1, 1, .w1c, 0x0, false⟩, ⟨2, 1, .w1c, 0x0, false⟩, ⟨3, 1, .w1c, 0x0, false⟩, ⟨4, 1, .w1c, 0x0, false⟩, ⟨5, 1, .w1c, 0x0, false⟩, ⟨6, 26, .rsv, 0x0, false⟩]⟩,
  ⟨0x104, 1, 0x4, 1, 0x4, [⟨0, 6, .rw, 0x3F, false⟩, ⟨6, 26, .rsv, 0x0, false⟩]⟩,
  ⟨0x108, 1, 0x4, 1, 0x4, [⟨0, 11, .ro, 0x0, false⟩, ⟨11, 5, .rsv, 0x0, false⟩, ⟨16, 11, .ro, 0x0, false⟩, ⟨27, 5, .rsv, 0x0, false⟩]⟩,
  ⟨0x120, 3, 0x4, 1, 0x4, [⟨0, 6, .ro, 0x20, false⟩, ⟨6, 2, .rsv, 0x0, false⟩, ⟨8, 7, .ro, 0x60, false⟩, ⟨15, 17, .rsv, 0x0, false⟩]⟩,
  ⟨0x200, 32, 0x4, 1, 0x4, [⟨0, 32, .w1c, 0x0, false⟩]⟩,
  ⟨0x1000, 1024, 0x4, 1, 0x4, [⟨0, 1, .ro, 0x0, false⟩, ⟨1, 1, .ro, 0x0, false⟩, ⟨2, 1, .ro, 0x0, false⟩, ⟨3, 5, .rsv, 0x0, false⟩, ⟨8, 8, .ro, 0x0, false⟩, ⟨16, 16, .ro, 0x0, false⟩]⟩,
  ⟨0x400, 16, 0x8, 1, 0x4, [⟨0, 2, .rw, 0x0, true⟩, ⟨2, 3, .rw, 0x0, true⟩, ⟨5, 1, .rw, 0x0, true⟩, ⟨6, 6, .rw, 0x0, true⟩, ⟨12, 4, .rsv, 0x0, false⟩, ⟨16, 16, .rw, 0x0, true⟩]⟩,
  ⟨0x404, 16, 0x8, 1, 0x4, [⟨0, 32, .rw, 0x0, true⟩]⟩,
  ⟨0x110, 3, 0x4, 1, 0x4, [⟨0, 16, .rw, 0x64, true⟩, ⟨16, 6, .rw, 0x20, true⟩, ⟨22, 10, .rsv, 0x0, false⟩]⟩,
  ⟨0x10C, 1, 0x4, 1, 0x4, [⟨0, 1, .rw, 0x0, true⟩, ⟨1, 6, .rw, 0x0, true⟩, ⟨7, 1, .rsv, 0x0, false⟩, ⟨8, 16, .rw, 0xA, true⟩, ⟨24, 6, .rw, 0x10, true⟩, ⟨30, 2, .rsv, 0x0, false⟩]⟩,
  ⟨0x800, 16, 0x40, 1, 0x4, [⟨0, 1, .rw, 0x0, true⟩, ⟨1, 3, .rw, 0x0, true⟩, ⟨4, 1, .rw, 0x0, true⟩, ⟨5, 10, .rw, 0x0, true⟩, ⟨15, 1, .rsv, 0x0, false⟩, ⟨16, 7, .rw, 0x0, true⟩, ⟨23, 9, .rsv, 0x0, false⟩]⟩,
  ⟨0x810, 16, 0x40, 4, 0x4, [⟨0, 32, .rw, 0x0, true⟩]⟩]

/-- Registers of block SRX, from Tables 7-3, 8-3, 8-4, 8-8, 8-9, 8-10. -/
def regMapSRXD : List RegDesc := [
  ⟨0x820, 16, 0x40, 4, 0x4, [⟨0, 32, .rw, 0x0, true⟩]⟩]

/-- Registers of block ROUTE, from Tables 1-6. -/
def regMapROUTE : List RegDesc := [
  ⟨0x10000, 12288, 0x4, 1, 0x4, [⟨0, 14, .rw, 0x3FFF, true⟩, ⟨14, 2, .rsv, 0x0, false⟩, ⟨16, 1, .rw, 0x0, true⟩, ⟨17, 15, .rsv, 0x0, false⟩]⟩,
  ⟨0x20000, 12288, 0x4, 1, 0x4, [⟨0, 14, .ro, 0x3FFF, true⟩, ⟨14, 2, .rsv, 0x0, false⟩, ⟨16, 1, .ro, 0x0, true⟩, ⟨17, 15, .rsv, 0x0, false⟩]⟩]

/-- Registers of block APORT, from Tables 2-8, 11-3, 11-4, 11-5, 11-6, 11-7, 11-8. -/
def regMapAPORTA : List RegDesc := [
  ⟨0x4, 1, 0x4, 1, 0x4, [⟨0, 32, .ro, 0x0, false⟩]⟩,
  ⟨0x8, 1, 0x4, 1, 0x4, [⟨0, 8, .ro, 0x0, false⟩, ⟨8, 4, .ro, 0x0, false⟩, ⟨12, 20, .rsv, 0x0, false⟩]⟩,
  ⟨0x1000, 88, 0x40, 1, 0x4, [⟨0, 1, .rw, 0x0, false⟩, ⟨1, 1, .rw, 0x0, false⟩, ⟨2, 3, .rw, 0x0, false⟩, ⟨5, 2, .rw, 0x0, false⟩, ⟨7, 2, .rw, 0x0, false⟩, ⟨9, 1, .rw, 0x0, true⟩, ⟨10, 3, .rw, 0x1, true⟩, ⟨13, 1, .rw, 0x0, false⟩, ⟨14, 18, .rsv, 0x0, false⟩]⟩,
  ⟨0x1004, 88, 0x40, 1, 0x4, [⟨0, 2, .rw, 0x0, false⟩, ⟨2, 6, .rw, 0x20, false⟩, ⟨8, 2, .rw, 0x2, false⟩, ⟨10, 2, .rw, 0x2, false⟩, ⟨12, 1, .rw, 0x0, false⟩, ⟨13, 2, .rw, 0x0, false⟩, ⟨15, 1, .rw, 0x0, false⟩, ⟨16, 1, .rw, 0x0, false⟩, ⟨17, 1, .rw, 0x0, false⟩, ⟨18, 14, .rsv, 0x0, false⟩]⟩,
  ⟨0x1008, 88, 0x40, 1, 0x4, [⟨0, 9, .rw, 0x4, false⟩, ⟨9, 23, .rsv, 0x0, false⟩]⟩,
  ⟨0x100C, 88, 0x40, 1, 0x4, [⟨0, 7, .rw, 0x10, false⟩, ⟨7, 9, .rsv, 0x0, false⟩, ⟨16, 7, .ro, 0x0, false⟩, ⟨23, 9, .rsv, 0x0, false⟩]⟩,
  ⟨0x1010, 88, 0x40, 1, 0x4, [⟨0, 32, .rw, 0x0, true⟩]⟩,
  ⟨0x1014, 88, 0x40, 1, 0x4, [⟨0, 32, .ro, 0x0, false⟩]⟩,
  ⟨0x1018, 88, 0x40, 1, 0x4, [⟨0, 4, .rw, 0x4, false⟩, ⟨4, 28, .rsv, 0x0, false⟩]⟩,
  ⟨0x101C, 88, 0x40, 1, 0x4, [⟨0, 3, .ro, 0x0, false⟩, ⟨3, 3, .ro, 0x0, false⟩, ⟨6, 1, .ro, 0x0, false⟩, ⟨7, 1, .rsv, 0x0, false⟩, ⟨8, 7, .ro, 0x0, false⟩, ⟨15, 17, .rsv, 0x0, false⟩]⟩,
  ⟨0x1020, 88, 0x40, 1, 0x4, [⟨0, 1, .w1c, 0x0, false⟩, ⟨1, 1, .w1c, 0x0, false⟩, ⟨2, 1, .w1c, 0x0, false⟩, ⟨3, 1, .w1c, 0x0, false⟩, ⟨4, 1, .w1c, 0x0, false⟩, ⟨5, 1, .w1c, 0x0, false⟩, ⟨6, 1, .w1c, 0x0, false⟩, ⟨7, 1, .w1c, 0x0, false⟩, ⟨8, 1, .w1c, 0x0, false⟩, ⟨9, 1, .w1c, 0x0, false⟩, ⟨10, 1, .w1c, 0x0, false⟩, ⟨11, 21, .rsv, 0x0, false⟩]⟩,
  ⟨0x1024, 88, 0x40, 1, 0x4, [⟨0, 11, .rw, 0x7FF, false⟩, ⟨11, 21, .rsv, 0x0, false⟩]⟩,
  ⟨0x1028, 88, 0x40, 1, 0x4, [⟨0, 16, .rwh, 0x0, false⟩, ⟨16, 16, .rwh, 0x0, false⟩]⟩,
  ⟨0x102C, 88, 0x40, 1, 0x4, [⟨0, 16, .ro, 0x0, false⟩, ⟨16, 16, .ro, 0x0, false⟩]⟩]

/-- Registers of block APORT, from Tables 2-8, 11-3, 11-4, 11-5, 11-6, 11-7, 11-8. -/
def regMapAPORTB : List RegDesc := [
  ⟨0x110, 1, 0x4, 1, 0x4, [⟨0, 6, .rw, 0x9, true⟩, ⟨6, 26, .rsv, 0x0, false⟩]⟩,
  ⟨0x114, 1, 0x4, 1, 0x4, [⟨0, 1, .ro, 0x0, false⟩, ⟨1, 1, .ro, 0x0, false⟩, ⟨2, 30, .rsv, 0x0, false⟩]⟩,
  ⟨0x120, 1, 0x4, 1, 0x4, [⟨0, 1, .rw, 0x0, false⟩, ⟨1, 1, .rw, 0x0, false⟩, ⟨2, 7, .rw, 0x0, false⟩, ⟨9, 9, .rw, 0x64, false⟩, ⟨18, 14, .rsv, 0x0, false⟩]⟩,
  ⟨0x124, 1, 0x4, 1, 0x4, [⟨0, 16, .rwh, 0x8000, false⟩, ⟨16, 16, .rsv, 0x0, false⟩]⟩,
  ⟨0x10000, 1296, 0x4, 1, 0x4, [⟨0, 16, .rw, 0x4000, true⟩, ⟨16, 1, .rw, 0x0, true⟩, ⟨17, 1, .ro, 0x0, false⟩, ⟨18, 14, .rsv, 0x0, false⟩]⟩,
  ⟨0x3000, 8, 0x20, 6, 0x4, [⟨0, 32, .rw, 0x0, false⟩]⟩,
  ⟨0x3018, 8, 0x20, 1, 0x4, [⟨0, 2, .rw, 0x0, false⟩, ⟨2, 30, .rsv, 0x0, false⟩]⟩,
  ⟨0x3200, 8, 0x20, 6, 0x4, [⟨0, 32, .ro, 0x0, false⟩]⟩,
  ⟨0x3218, 8, 0x20, 1, 0x4, [⟨0, 1, .ro, 0x0, false⟩, ⟨1, 1, .ro, 0x0, false⟩, ⟨2, 1, .ro, 0x0, false⟩, ⟨3, 29, .rsv, 0x0, false⟩]⟩]

/-- Registers of block DSPC, from Tables 2-8, 12-9. -/
def regMapDSPC : List RegDesc := [
  ⟨0x4, 1, 0x4, 1, 0x4, [⟨0, 32, .ro, 0x0, false⟩]⟩,
  ⟨0x100, 1, 0x4, 1, 0x4, [⟨0, 32, .w1c, 0x0, false⟩]⟩,
  ⟨0x104, 1, 0x4, 1, 0x4, [⟨0, 32, .w1c, 0x0, false⟩]⟩,
  ⟨0x108, 1, 0x4, 1, 0x4, [⟨0, 2, .rw, 0x3, false⟩, ⟨2, 30, .rsv, 0x0, false⟩]⟩,
  ⟨0x110, 1, 0x4, 1, 0x4, [⟨0, 10, .rw, 0x0, false⟩, ⟨10, 1, .rwh, 0x0, false⟩, ⟨11, 1, .ro, 0x0, false⟩, ⟨12, 20, .rsv, 0x0, false⟩]⟩,
  ⟨0x120, 1, 0x4, 1, 0x4, [⟨0, 10, .rw, 0x0, false⟩, ⟨10, 22, .rsv, 0x0, false⟩]⟩,
  ⟨0x124, 3, 0x4, 1, 0x4, [⟨0, 18, .ro, 0x0, false⟩, ⟨18, 14, .ro, 0x0, false⟩]⟩,
  ⟨0x200, 32, 0x10, 1, 0x4, [⟨0, 2, .ro, 0x0, false⟩, ⟨2, 1, .ro, 0x0, false⟩, ⟨3, 1, .ro, 0x0, false⟩, ⟨4, 11, .ro, 0x0, false⟩, ⟨15, 17, .rsv, 0x0, false⟩]⟩,
  ⟨0x204, 32, 0x10, 1, 0x4, [⟨0, 4, .ro, 0x0, false⟩, ⟨4, 10, .ro, 0x0, false⟩, ⟨14, 18, .ro, 0x0, false⟩]⟩,
  ⟨0x208, 32, 0x10, 1, 0x4, [⟨0, 16, .rwh, 0x0, false⟩, ⟨16, 16, .rwh, 0x0, false⟩]⟩,
  ⟨0x20C, 32, 0x10, 1, 0x4, [⟨0, 10, .ro, 0x0, false⟩, ⟨10, 6, .rsv, 0x0, false⟩, ⟨16, 10, .rc, 0x0, false⟩, ⟨26, 6, .rsv, 0x0, false⟩]⟩,
  ⟨0x10000, 1024, 0x40, 16, 0x4, [⟨0, 32, .rw, 0x0, true⟩]⟩]

/-- Registers of block DMA, from Tables 13, 13-4, 13-5. -/
def regMapDMAA : List RegDesc := [
  ⟨0x100, 1, 0x4, 1, 0x4, [⟨0, 1, .w1c, 0x0, false⟩, ⟨1, 1, .w1c, 0x0, false⟩, ⟨2, 1, .w1c, 0x0, false⟩, ⟨3, 29, .rsv, 0x0, false⟩]⟩,
  ⟨0x104, 1, 0x4, 1, 0x4, [⟨0, 3, .rw, 0x7, false⟩, ⟨3, 29, .rsv, 0x0, false⟩]⟩,
  ⟨0x108, 1, 0x4, 1, 0x4, [⟨0, 1, .ro, 0x0, false⟩, ⟨1, 3, .ro, 0x0, false⟩, ⟨4, 3, .ro, 0x0, false⟩, ⟨7, 1, .ro, 0x0, false⟩, ⟨8, 9, .ro, 0x0, false⟩, ⟨17, 15, .rsv, 0x0, false⟩]⟩,
  ⟨0x200, 8, 0x4, 1, 0x4, [⟨0, 32, .ro, 0x0, false⟩]⟩,
  ⟨0x10000, 256, 0x40, 1, 0x4, [⟨0, 1, .rwh, 0x0, false⟩, ⟨1, 1, .ro, 0x1, false⟩, ⟨2, 1, .ro, 0x0, false⟩, ⟨3, 29, .rsv, 0x0, false⟩]⟩,
  ⟨0x10004, 256, 0x40, 1, 0x4, [⟨0, 6, .rsv, 0x0, false⟩, ⟨6, 26, .rw, 0x0, false⟩]⟩,
  ⟨0x10008, 256, 0x40, 1, 0x4, [⟨0, 32, .rw, 0x0, false⟩]⟩,
  ⟨0x1000C, 256, 0x40, 1, 0x4, [⟨0, 4, .rw, 0x4, false⟩, ⟨4, 28, .rsv, 0x0, false⟩]⟩,
  ⟨0x10010, 256, 0x40, 1, 0x4, [⟨0, 16, .rwh, 0x0, false⟩, ⟨16, 16, .rsv, 0x0, false⟩]⟩,
  ⟨0x10014, 256, 0x40, 1, 0x4, [⟨0, 16, .ro, 0x0, false⟩, ⟨16, 16, .rsv, 0x0, false⟩]⟩,
  ⟨0x11818, 64, 0x40, 1, 0x4, [⟨0, 7, .rw, 0x8, false⟩]⟩,
  ⟨0x12818, 64, 0x40, 1, 0x4, [⟨0, 2, .rw, 0x0, false⟩]⟩,
  ⟨0x13818, 32, 0x40, 1, 0x4, [⟨0, 1, .rw, 0x0, false⟩, ⟨1, 3, .rw, 0x3, false⟩]⟩,
  ⟨0x1001C, 256, 0x40, 1, 0x4, [⟨0, 6, .rw, 0x0, false⟩, ⟨6, 2, .rsv, 0x0, false⟩, ⟨8, 6, .rw, 0x1, false⟩, ⟨14, 2, .rsv, 0x0, false⟩, ⟨16, 16, .rw, 0x0, false⟩]⟩]

/-- Registers of block DMA, from Tables 13, 13-4, 13-5. -/
def regMapDMAB : List RegDesc := [
  ⟨0x10020, 256, 0x40, 1, 0x4, [⟨0, 1, .ro, 0x0, false⟩, ⟨1, 1, .ro, 0x0, false⟩, ⟨2, 9, .ro, 0x0, false⟩, ⟨11, 7, .ro, 0x0, false⟩, ⟨18, 2, .ro, 0x0, false⟩, ⟨20, 10, .ro, 0x0, false⟩, ⟨30, 2, .rsv, 0x0, false⟩]⟩,
  ⟨0x10024, 256, 0x40, 1, 0x4, [⟨0, 1, .w1c, 0x0, false⟩, ⟨1, 1, .w1c, 0x0, false⟩, ⟨2, 1, .w1c, 0x0, false⟩, ⟨3, 1, .w1c, 0x0, false⟩, ⟨4, 1, .w1c, 0x0, false⟩, ⟨5, 1, .w1c, 0x0, false⟩, ⟨6, 26, .rsv, 0x0, false⟩]⟩,
  ⟨0x10028, 256, 0x40, 1, 0x4, [⟨0, 6, .rw, 0x3F, false⟩, ⟨6, 26, .rsv, 0x0, false⟩]⟩,
  ⟨0x2000, 64, 0x10, 4, 0x4, [⟨0, 32, .rw, 0x0, false⟩]⟩,
  ⟨0x3000, 2, 0x4, 1, 0x4, [⟨0, 32, .ro, 0x0, false⟩]⟩]

/-- Registers of block TWIN, from Tables 14-12. -/
def regMapTWIN : List RegDesc := [
  ⟨0x100, 1, 0x4, 1, 0x4, [⟨0, 1, .w1c, 0x0, false⟩, ⟨1, 1, .w1c, 0x0, false⟩, ⟨2, 1, .w1c, 0x0, false⟩, ⟨3, 1, .w1c, 0x0, false⟩, ⟨4, 1, .w1c, 0x0, false⟩, ⟨5, 1, .w1c, 0x0, false⟩, ⟨6, 1, .w1c, 0x0, false⟩, ⟨7, 1, .w1c, 0x0, false⟩, ⟨8, 1, .w1c, 0x0, false⟩, ⟨9, 1, .w1c, 0x0, false⟩, ⟨10, 1, .w1c, 0x0, false⟩, ⟨11, 1, .w1c, 0x0, false⟩, ⟨12, 20, .rsv, 0x0, false⟩]⟩,
  ⟨0x104, 1, 0x4, 1, 0x4, [⟨0, 12, .rw, 0xFFF, false⟩, ⟨12, 20, .rsv, 0x0, false⟩]⟩,
  ⟨0x108, 1, 0x4, 1, 0x4, [⟨0, 3, .ro, 0x0, false⟩, ⟨3, 1, .ro, 0x0, false⟩, ⟨4, 2, .ro, 0x0, false⟩, ⟨6, 1, .ro, 0x0, false⟩, ⟨7, 1, .ro, 0x0, false⟩, ⟨8, 2, .ro, 0x0, false⟩, ⟨10, 1, .ro, 0x0, false⟩, ⟨11, 1, .ro, 0x0, false⟩, ⟨12, 1, .ro, 0x0, false⟩, ⟨13, 1, .ro, 0x0, false⟩, ⟨14, 1, .ro, 0x0, false⟩, ⟨15, 1, .rsv, 0x0, false⟩, ⟨16, 4, .ro, 0x0, false⟩, ⟨20, 3, .ro, 0x0, false⟩, ⟨23, 3, .ro, 0x7, false⟩, ⟨26, 6, .rsv, 0x0, false⟩]⟩,
  ⟨0x10C, 1, 0x4, 1, 0x4, [⟨0, 2, .rsv, 0x0, false⟩, ⟨2, 1, .rw, 0x1, true⟩, ⟨3, 1, .rwh, 0x0, false⟩, ⟨4, 4, .rsv, 0x0, false⟩, ⟨8, 8, .rw, 0x10, true⟩, ⟨16, 10, .rw, 0xC8, true⟩, ⟨26, 6, .rsv, 0x0, false⟩]⟩,
  ⟨0x110, 1, 0x4, 1, 0x4, [⟨0, 1, .rwp, 0x0, false⟩, ⟨1, 2, .rwp, 0x0, false⟩, ⟨3, 29, .rsv, 0x0, false⟩]⟩,
  ⟨0x114, 1, 0x4, 1, 0x4, [⟨0, 9, .ro, 0x0, false⟩, ⟨9, 23, .rsv, 0x0, false⟩]⟩,
  ⟨0x118, 1, 0x4, 1, 0x4, [⟨0, 11, .ro, 0x0, false⟩, ⟨11, 1, .ro, 0x0, false⟩, ⟨12, 20, .ro, 0x0, false⟩]⟩,
  ⟨0x11C, 1, 0x4, 1, 0x4, [⟨0, 1, .rwh, 0x0, false⟩, ⟨1, 7, .rsv, 0x0, false⟩, ⟨8, 8, .rw, 0x1, true⟩, ⟨16, 8, .rw, 0x3C, true⟩, ⟨24, 8, .rsv, 0x0, false⟩]⟩,
  ⟨0x128, 2, 0x4, 1, 0x4, [⟨0, 32, .ro, 0x0, false⟩]⟩,
  ⟨0x120, 1, 0x4, 1, 0x4, [⟨0, 32, .ro, 0x0, false⟩]⟩,
  ⟨0x124, 1, 0x4, 1, 0x4, [⟨0, 32, .ro, 0x0, false⟩]⟩]

/-- Registers of block FAB, from Tables 2-8, 15-4, 15-5, 15-6, 15-7. -/
def regMapFAB : List RegDesc := [
  ⟨0x4, 1, 0x4, 1, 0x4, [⟨0, 8, .ro, 0x0, false⟩, ⟨8, 24, .rsv, 0x0, false⟩]⟩,
  ⟨0x100, 1, 0x4, 1, 0x4, [⟨0, 1, .w1c, 0x0, false⟩, ⟨1, 1, .w1c, 0x0, false⟩, ⟨2, 1, .w1c, 0x0, false⟩, ⟨3, 1, .w1c, 0x0, false⟩, ⟨4, 1, .w1c, 0x0, false⟩, ⟨5, 1, .w1c, 0x0, false⟩, ⟨6, 1, .w1c, 0x0, false⟩, ⟨7, 1, .w1c, 0x0, false⟩, ⟨8, 1, .w1c, 0x0, false⟩, ⟨9, 1, .w1c, 0x0, false⟩, ⟨10, 22, .rsv, 0x0, false⟩]⟩,
  ⟨0x104, 1, 0x4, 1, 0x4, [⟨0, 10, .rw, 0x3FF, false⟩, ⟨10, 22, .rsv, 0x0, false⟩]⟩,
  ⟨0x108, 1, 0x4, 1, 0x4, [⟨0, 3, .ro, 0x0, false⟩, ⟨3, 6, .ro, 0x0, false⟩, ⟨9, 6, .ro, 0x0, false⟩, ⟨15, 7, .ro, 0x0, false⟩, ⟨22, 6, .ro, 0x0, false⟩, ⟨28, 1, .ro, 0x0, false⟩, ⟨29, 1, .ro, 0x0, false⟩, ⟨30, 1, .ro, 0x0, false⟩, ⟨31, 1, .rsv, 0x0, false⟩]⟩,
  ⟨0x10C, 1, 0x4, 1, 0x4, [⟨0, 1, .rw, 0x0, true⟩, ⟨1, 7, .rw, 0x0, true⟩, ⟨8, 1, .rw, 0x0, true⟩, ⟨9, 1, .rwh, 0x0, false⟩, ⟨10, 22, .rsv, 0x0, false⟩]⟩,
  ⟨0x110, 1, 0x4, 1, 0x4, [⟨0, 6, .ro, 0x0, false⟩, ⟨6, 26, .rsv, 0x0, false⟩]⟩,
  ⟨0x114, 1, 0x4, 1, 0x4, [⟨0, 32, .ro, 0x0, false⟩]⟩,
  ⟨0x200, 8, 0x4, 1, 0x4, [⟨0, 1, .ro, 0x0, false⟩, ⟨1, 1, .ro, 0x0, false⟩, ⟨2, 6, .ro, 0x0, false⟩, ⟨8, 3, .ro, 0x0, false⟩, ⟨11, 2, .ro, 0x0, false⟩, ⟨13, 16, .ro, 0x0, false⟩, ⟨29, 3, .rsv, 0x0, false⟩]⟩,
  ⟨0x300, 4, 0x4, 1, 0x4, [⟨0, 32, .ro, 0x0, false⟩]⟩,
  ⟨0x400, 64, 0x4, 1, 0x4, [⟨0, 3, .ro, 0x0, false⟩, ⟨3, 6, .ro, 0x0, false⟩, ⟨9, 1, .ro, 0x0, false⟩, ⟨10, 22, .rsv, 0x0, false⟩]⟩,
  ⟨0x10004, 256, 0x10, 1, 0x4, [⟨0, 10, .ro, 0x0, false⟩, ⟨10, 6, .rsv, 0x0, false⟩, ⟨16, 10, .ro, 0x0, false⟩, ⟨26, 6, .rsv, 0x0, false⟩]⟩,
  ⟨0x10008, 256, 0x10, 1, 0x4, [⟨0, 9, .ro, 0x0, false⟩, ⟨9, 6, .ro, 0x0, false⟩, ⟨15, 3, .ro, 0x0, false⟩, ⟨18, 14, .rsv, 0x0, false⟩]⟩,
  ⟨0x1000C, 256, 0x10, 1, 0x4, [⟨0, 2, .ro, 0x0, false⟩, ⟨2, 30, .rsv, 0x0, false⟩]⟩,
  ⟨0x10000, 256, 0x10, 1, 0x4, [⟨0, 1, .rw, 0x0, false⟩, ⟨1, 6, .rw, 0x0, false⟩, ⟨7, 6, .rw, 0x0, false⟩, ⟨13, 9, .rw, 0x0, false⟩, ⟨22, 2, .rw, 0x0, false⟩, ⟨24, 5, .rw, 0x0, false⟩, ⟨29, 3, .rsv, 0x0, false⟩]⟩]

/-- Registers of block LOG, from Tables 16-8. -/
def regMapLOG : List RegDesc := [
  ⟨0x100, 1, 0x4, 1, 0x4, [⟨0, 1, .w1c, 0x0, false⟩, ⟨1, 1, .w1c, 0x0, false⟩, ⟨2, 1, .w1c, 0x0, false⟩, ⟨3, 1, .w1c, 0x0, false⟩, ⟨4, 1, .w1c, 0x0, false⟩, ⟨5, 1, .w1c, 0x0, false⟩, ⟨6, 1, .w1c, 0x0, false⟩, ⟨7, 25, .rsv, 0x0, false⟩]⟩,
  ⟨0x104, 1, 0x4, 1, 0x4, [⟨0, 7, .rw, 0x7F, false⟩, ⟨7, 25, .rsv, 0x0, false⟩]⟩,
  ⟨0x108, 1, 0x4, 1, 0x4, [⟨0, 1, .ro, 0x0, false⟩, ⟨1, 1, .ro, 0x0, false⟩, ⟨2, 1, .ro, 0x0, false⟩, ⟨3, 7, .ro, 0x0, false⟩, ⟨10, 8, .ro, 0x0, false⟩, ⟨18, 9, .ro, 0x0, false⟩, ⟨27, 1, .ro, 0x0, false⟩, ⟨28, 1, .ro, 0x0, false⟩, ⟨29, 3, .rsv, 0x0, false⟩]⟩,
  ⟨0x10C, 1, 0x4, 1, 0x4, [⟨0, 3, .rw, 0x1, true⟩, ⟨3, 29, .rsv, 0x0, false⟩]⟩,
  ⟨0x110, 1, 0x4, 1, 0x4, [⟨0, 32, .rwh, 0x0, false⟩]⟩,
  ⟨0x114, 1, 0x4, 1, 0x4, [⟨0, 32, .ro, 0x0, false⟩]⟩,
  ⟨0x118, 1, 0x4, 1, 0x4, [⟨0, 32, .ro, 0x0, false⟩]⟩,
  ⟨0x11C, 1, 0x4, 1, 0x4, [⟨0, 32, .ro, 0x0, false⟩]⟩]

/-- Registers of block STORE, from Tables 16-3. -/
def regMapSTORE : List RegDesc := [
  ⟨0x100, 1, 0x4, 1, 0x4, [⟨0, 1, .w1c, 0x0, false⟩, ⟨1, 1, .w1c, 0x0, false⟩, ⟨2, 1, .w1c, 0x0, false⟩, ⟨3, 1, .w1c, 0x0, false⟩, ⟨4, 1, .w1c, 0x0, false⟩, ⟨5, 1, .w1c, 0x0, false⟩, ⟨6, 26, .rsv, 0x0, false⟩]⟩,
  ⟨0x104, 1, 0x4, 1, 0x4, [⟨0, 6, .rw, 0x3F, false⟩, ⟨6, 26, .rsv, 0x0, false⟩]⟩,
  ⟨0x108, 1, 0x4, 1, 0x4, [⟨0, 1, .ro, 0x0, false⟩, ⟨1, 1, .ro, 0x0, false⟩, ⟨2, 1, .ro, 0x0, false⟩, ⟨3, 2, .ro, 0x0, false⟩, ⟨5, 3, .ro, 0x0, false⟩, ⟨8, 1, .ro, 0x0, false⟩, ⟨9, 1, .ro, 0x0, false⟩, ⟨10, 22, .rsv, 0x0, false⟩]⟩,
  ⟨0x10C, 1, 0x4, 1, 0x4, [⟨0, 1, .ro, 0x0, false⟩, ⟨1, 1, .ro, 0x0, false⟩, ⟨2, 17, .ro, 0x0, false⟩, ⟨19, 13, .rsv, 0x0, false⟩]⟩,
  ⟨0x110, 1, 0x4, 1, 0x4, [⟨0, 8, .rw, 0x1E, true⟩, ⟨8, 24, .rsv, 0x0, false⟩]⟩,
  ⟨0x114, 1, 0x4, 1, 0x4, [⟨0, 3, .rw, 0x0, false⟩, ⟨3, 1, .rw, 0x0, false⟩, ⟨4, 1, .rwh, 0x0, false⟩, ⟨5, 1, .ro, 0x0, false⟩, ⟨6, 2, .rsv, 0x0, false⟩, ⟨8, 4, .ro, 0x0, false⟩, ⟨12, 20, .rsv, 0x0, false⟩]⟩,
  ⟨0x118, 1, 0x4, 1, 0x4, [⟨0, 32, .rw, 0x0, false⟩]⟩,
  ⟨0x11C, 1, 0x4, 1, 0x4, [⟨0, 17, .rw, 0x0, false⟩, ⟨17, 15, .rsv, 0x0, false⟩]⟩,
  ⟨0x120, 1, 0x4, 1, 0x4, [⟨0, 3, .rwp, 0x0, false⟩, ⟨3, 1, .rwp, 0x0, false⟩, ⟨4, 1, .rwp, 0x0, false⟩, ⟨5, 27, .rsv, 0x0, false⟩]⟩,
  ⟨0x124, 1, 0x4, 1, 0x4, [⟨0, 18, .ro, 0x0, false⟩, ⟨18, 14, .rsv, 0x0, false⟩]⟩,
  ⟨0x144, 6, 0x4, 1, 0x4, [⟨0, 16, .ro, 0x0, false⟩, ⟨16, 16, .ro, 0x0, false⟩]⟩,
  ⟨0x10000, 16384, 0x4, 1, 0x4, [⟨0, 32, .rw, 0x0, false⟩]⟩]

/-- Registers of block PLACE, from Tables 5-18. -/
def regMapPLACEA : List RegDesc := [
  ⟨0x10, 1, 0x4, 1, 0x4, [⟨0, 2, .ro, 0x0, false⟩, ⟨2, 1, .ro, 0x0, false⟩, ⟨3, 3, .ro, 0x0, false⟩, ⟨6, 3, .ro, 0x0, false⟩, ⟨9, 23, .rsv, 0x0, false⟩]⟩,
  ⟨0x14, 1, 0x4, 1, 0x4, [⟨0, 11, .ro, 0x0, false⟩, ⟨11, 5, .rsv, 0x0, false⟩, ⟨16, 16, .ro, 0x0, false⟩]⟩,
  ⟨0x18, 1, 0x4, 1, 0x4, [⟨0, 8, .ro, 0x0, false⟩, ⟨8, 8, .rsv, 0x0, false⟩, ⟨16, 16, .ro, 0x0, false⟩]⟩,
  ⟨0x1C, 1, 0x4, 1, 0x4, [⟨0, 32, .ro, 0x0, false⟩]⟩,
  ⟨0x20, 1, 0x4, 1, 0x4, [⟨0, 32, .ro, 0x0, false⟩]⟩,
  ⟨0x24, 1, 0x4, 1, 0x4, [⟨0, 32, .ro, 0x0, false⟩]⟩,
  ⟨0x28, 1, 0x4, 1, 0x4, [⟨0, 32, .ro, 0x0, false⟩]⟩,
  ⟨0x2C, 1, 0x4, 1, 0x4, [⟨0, 32, .ro, 0x0, false⟩]⟩,
  ⟨0x30, 1, 0x4, 1, 0x4, [⟨0, 32, .ro, 0x0, false⟩]⟩,
  ⟨0x40, 1, 0x4, 1, 0x4, [⟨0, 12, .rw, 0x0, false⟩, ⟨12, 20, .rsv, 0x0, false⟩]⟩,
  ⟨0x44, 1, 0x4, 1, 0x4, [⟨0, 32, .ro, 0x0, false⟩]⟩,
  ⟨0x48, 1, 0x4, 1, 0x4, [⟨0, 1, .ro, 0x0, false⟩, ⟨1, 1, .ro, 0x0, false⟩, ⟨2, 1, .ro, 0x0, false⟩, ⟨3, 5, .rsv, 0x0, false⟩, ⟨8, 8, .ro, 0x0, false⟩, ⟨16, 16, .ro, 0x0, false⟩]⟩,
  ⟨0x50, 1, 0x4, 1, 0x4, [⟨0, 10, .rw, 0x0, false⟩, ⟨10, 22, .rsv, 0x0, false⟩]⟩,
  ⟨0x54, 1, 0x4, 1, 0x4, [⟨0, 5, .ro, 0x0, false⟩, ⟨5, 1, .ro, 0x0, false⟩, ⟨6, 1, .ro, 0x0, false⟩, ⟨7, 25, .rsv, 0x0, false⟩]⟩]

/-- Registers of block PLACE, from Tables 5-18. -/
def regMapPLACEB : List RegDesc := [
  ⟨0x58, 1, 0x4, 1, 0x4, [⟨0, 12, .ro, 0x0, false⟩, ⟨12, 4, .rsv, 0x0, false⟩, ⟨16, 12, .ro, 0x0, false⟩, ⟨28, 4, .rsv, 0x0, false⟩]⟩,
  ⟨0x60, 1, 0x4, 1, 0x4, [⟨0, 32, .w1c, 0x0, false⟩]⟩,
  ⟨0x64, 1, 0x4, 1, 0x4, [⟨0, 32, .ro, 0x0, false⟩]⟩,
  ⟨0x68, 1, 0x4, 1, 0x4, [⟨0, 32, .ro, 0x0, false⟩]⟩,
  ⟨0x6C, 1, 0x4, 1, 0x4, [⟨0, 1, .w1c, 0x0, false⟩, ⟨1, 1, .w1c, 0x0, false⟩, ⟨2, 1, .w1c, 0x0, false⟩, ⟨3, 29, .rsv, 0x0, false⟩]⟩]

/-- Registers of block SEC, from Tables 5-9. -/
def regMapSEC : List RegDesc := [
  ⟨0x10, 8, 0x4, 1, 0x4, [⟨0, 32, .ro, 0x0, false⟩]⟩,
  ⟨0x30, 1, 0x4, 1, 0x4, [⟨0, 1, .ro, 0x0, false⟩, ⟨1, 1, .ro, 0x0, false⟩, ⟨2, 1, .ro, 0x0, false⟩, ⟨3, 29, .rsv, 0x0, false⟩]⟩,
  ⟨0x34, 1, 0x4, 1, 0x4, [⟨0, 1, .rwp, 0x0, false⟩, ⟨1, 1, .rwp, 0x0, false⟩, ⟨2, 1, .rwp, 0x0, false⟩, ⟨3, 29, .rsv, 0x0, false⟩]⟩]

end Sys2Proof.Machine
end

