-- ==== Sys2Proof/Machine/RegNames.lean ====
section
/-! DEFINITION. The spec's names for register addresses (byte addresses in register space, R51) and for the fields in them. Indexed registers are functions of their index; MAC registers take the port number first (0 A, 1 B, 2 M). -/

namespace Sys2Proof.Machine

namespace SYS
def ATTN_SUMMARY : Nat := 0x0000040
def ATTN_SUMMARY_BLK : Fld := ⟨0, 19⟩
def ATTN_SUMMARY_ATTN : Fld := ⟨31, 1⟩
def ATTN_MASK : Nat := 0x0000044
def ATTN_MASK_EN : Fld := ⟨0, 19⟩
def CHIP : Nat := 0x0000004
def CHIP_PART : Fld := ⟨0, 16⟩
def CHIP_STEPPING : Fld := ⟨16, 8⟩
def CHIP_FAMILY : Fld := ⟨24, 8⟩
def VARIANT : Nat := 0x0000008
def VARIANT_CODE : Fld := ⟨0, 4⟩
def VARIANT_PKG : Fld := ⟨4, 1⟩
def VARIANT_TWIN : Fld := ⟨5, 1⟩
def VARIANT_FABRIC : Fld := ⟨6, 1⟩
def VARIANT_MEDIA_MAX : Fld := ⟨7, 2⟩
def VARIANT_NETCH : Fld := ⟨16, 16⟩
def FUSE_CAP : Nat := 0x000000C
def FUSE_CAP_TILES : Fld := ⟨0, 6⟩
def FUSE_CAP_TDM : Fld := ⟨6, 6⟩
def FUSE_CAP_AES3 : Fld := ⟨12, 4⟩
def FUSE_CAP_MADI : Fld := ⟨16, 3⟩
def FUSE_CAP_UBLEY : Fld := ⟨19, 4⟩
def FUSE_CAP_PCIE_LANES : Fld := ⟨23, 3⟩
def DIE_SERIAL_LO : Nat := 0x0000010
def DIE_SERIAL_LO_SERIAL_LO : Fld := ⟨0, 32⟩
def DIE_SERIAL_HI : Nat := 0x0000014
def DIE_SERIAL_HI_SERIAL_HI : Fld := ⟨0, 32⟩
def FUSE_STATUS : Nat := 0x0000018
def FUSE_STATUS_VALID : Fld := ⟨0, 1⟩
def FUSE_STATUS_CRC_ERR : Fld := ⟨1, 1⟩
def FUSE_STATUS_CODE_ERR : Fld := ⟨2, 1⟩
def FUSE_STATUS_BOND_ERR : Fld := ⟨3, 1⟩
def STRAP : Nat := 0x000001C
def STRAP_BOOT_SEL : Fld := ⟨0, 2⟩
def STRAP_MGMT_SEL : Fld := ⟨2, 2⟩
def STRAP_UNIT_SEL : Fld := ⟨4, 1⟩
def STRAP_ARB_EN : Fld := ⟨5, 1⟩
def STRAP_IOV : Fld := ⟨8, 9⟩
def STRAP_PWRD : Fld := ⟨17, 9⟩
def ACC_FAULT_ADDR : Nat := 0x0000024
def ACC_FAULT_ADDR_ADDR : Fld := ⟨0, 26⟩
def ACC_FAULT_ADDR_SPACE : Fld := ⟨26, 1⟩
def ACC_FAULT_INFO : Nat := 0x0000028
def ACC_FAULT_INFO_CAUSE : Fld := ⟨0, 4⟩
def ACC_FAULT_INFO_PATH : Fld := ⟨4, 1⟩
def ACC_FAULT_INFO_WRITE : Fld := ⟨5, 1⟩
def ACC_FAULT_INFO_COUNT : Fld := ⟨8, 8⟩
def ACC_FAULT_INFO_VALID : Fld := ⟨31, 1⟩
def UNLOCK : Nat := 0x0000020
def UNLOCK_KEY : Fld := ⟨0, 16⟩
def UNLOCK_ARMED_SPI : Fld := ⟨16, 1⟩
def UNLOCK_ARMED_PCIE : Fld := ⟨17, 1⟩
def PARITY_POLICY_LO : Nat := 0x0000030
def PARITY_POLICY_LO_POL0_POL15 : Fld := ⟨0, 32⟩
def PARITY_POLICY_HI : Nat := 0x0000034
def PARITY_POLICY_HI_POL16_POL18 : Fld := ⟨0, 6⟩
def PARITY_STATUS : Nat := 0x0000038
def PARITY_STATUS_BLK : Fld := ⟨0, 19⟩
def MODE : Nat := 0x0000050
def MODE_MODE : Fld := ⟨0, 3⟩
def MODE_SAFE_SCOPE : Fld := ⟨3, 1⟩
def MODE_PREV : Fld := ⟨4, 3⟩
def SAFE_CAUSE : Nat := 0x0000054
def SAFE_CAUSE_FUSE : Fld := ⟨0, 1⟩
def SAFE_CAUSE_TEST_STRAP : Fld := ⟨1, 1⟩
def SAFE_CAUSE_NO_CONFIG : Fld := ⟨2, 1⟩
def SAFE_CAUSE_PARITY : Fld := ⟨3, 1⟩
def SAFE_CAUSE_LOCKSTEP : Fld := ⟨4, 1⟩
def SAFE_CAUSE_TILE_FAULT : Fld := ⟨5, 1⟩
def BOOT_CTL : Nat := 0x0000058
def BOOT_CTL_AUTOSTART : Fld := ⟨0, 1⟩
def BOOT_CTL_PREF_CFG : Fld := ⟨1, 1⟩
def BOOT_STATUS : Nat := 0x000005C
def BOOT_STATUS_CFG_SRC : Fld := ⟨0, 3⟩
def BOOT_STATUS_CFG_A_FAIL : Fld := ⟨3, 1⟩
def BOOT_STATUS_CFG_B_FAIL : Fld := ⟨4, 1⟩
def BOOT_STATUS_GOLDEN_FAIL : Fld := ⟨5, 1⟩
def BOOT_STATUS_STATE_SRC : Fld := ⟨6, 2⟩
def BOOT_STATUS_WAKE_BOOT : Fld := ⟨8, 1⟩
def BOOT_STATUS_WAKE_SRC : Fld := ⟨12, 4⟩
def CMD_ARG0 : Nat := 0x0000060
def CMD_ARG0_ARG0 : Fld := ⟨0, 32⟩
def CMD_ARG1 : Nat := 0x0000064
def CMD_ARG1_ARG1 : Fld := ⟨0, 32⟩
def CMD : Nat := 0x0000068
def CMD_OPCODE : Fld := ⟨0, 8⟩
def CMD_TAG : Fld := ⟨8, 8⟩
def CMD_NODEFER : Fld := ⟨16, 1⟩
def CMD_STATUS : Nat := 0x000006C
def CMD_STATUS_QDEPTH : Fld := ⟨0, 6⟩
def CMD_STATUS_DONE_DEPTH : Fld := ⟨6, 6⟩
def CMD_STATUS_DONE : Fld := ⟨16, 1⟩
def CMD_STATUS_DONE_LOST : Fld := ⟨17, 1⟩
def CMD_STATUS_MODE_CHG : Fld := ⟨18, 1⟩
def CMD_STATUS_SAFE_ENTRY : Fld := ⟨19, 1⟩
def CMD_DONE : Nat := 0x0000070
def CMD_DONE_OPCODE : Fld := ⟨0, 8⟩
def CMD_DONE_TAG : Fld := ⟨8, 8⟩
def CMD_DONE_STATUS : Fld := ⟨16, 4⟩
def CMD_DONE_PATH : Fld := ⟨20, 1⟩
def CMD_DONE_DETAIL : Fld := ⟨21, 11⟩
def COMMIT_STATUS : Nat := 0x0000074
def COMMIT_STATUS_PENDING : Fld := ⟨0, 1⟩
def COMMIT_STATUS_COPYING : Fld := ⟨1, 1⟩
def COMMIT_STATUS_JOURNAL_BUSY : Fld := ⟨2, 1⟩
def COMMIT_STATUS_LAST_MS : Fld := ⟨4, 10⟩
def COMMIT_STATUS_SWAPS : Fld := ⟨16, 16⟩
def ARB_CTL : Nat := 0x00000C0
def ARB_CTL_PREFER : Fld := ⟨0, 1⟩
def ARB_CTL_SETTLE_MS : Fld := ⟨8, 8⟩
def ARB_STATUS : Nat := 0x00000C4
def ARB_STATUS_HOLDER : Fld := ⟨0, 2⟩
def ARB_STATUS_IN0 : Fld := ⟨2, 3⟩
def ARB_STATUS_IN1 : Fld := ⟨5, 3⟩
def ARB_STATUS_DIVERGENT : Fld := ⟨8, 1⟩
def ARB_STATUS_BOTH_FAIL : Fld := ⟨9, 1⟩
def ARB_STATUS_MOVED : Fld := ⟨16, 1⟩
def ARB_STATUS_SILENCE : Fld := ⟨17, 1⟩
def ARB_STATUS_DIV_SEEN : Fld := ⟨18, 1⟩
end SYS

namespace PWR
def CAUSE : Nat := 0x0100100
def CAUSE_FORCED_OFF : Fld := ⟨0, 1⟩
def CAUSE_RESTORED : Fld := ⟨1, 1⟩
def CAUSE_TEMP_HIGH : Fld := ⟨2, 1⟩
def CAUSE_TEMP_NORMAL : Fld := ⟨3, 1⟩
def CAUSE_BROWNOUT : Fld := ⟨4, 1⟩
def CAUSE_EN : Nat := 0x0100104
def CAUSE_EN_EN : Fld := ⟨0, 5⟩
def DOM_STATUS : Nat := 0x0100108
def DOM_STATUS_ON : Fld := ⟨0, 12⟩
def DOM_STATUS_IN_USE : Fld := ⟨16, 12⟩
def DOM_REQ : Nat := 0x010010C
def DOM_REQ_FIXED : Fld := ⟨0, 3⟩
def DOM_REQ_REQ : Fld := ⟨3, 9⟩
def DOM_FORCE : Nat := 0x0100110
def DOM_FORCE_OFF : Fld := ⟨3, 9⟩
def WAKE_EN : Nat := 0x0100114
def WAKE_EN_PIN : Fld := ⟨0, 1⟩
def WAKE_EN_PIN_POL : Fld := ⟨1, 1⟩
def WAKE_EN_TEMP : Fld := ⟨2, 1⟩
def WAKE_EN_LINK : Fld := ⟨3, 1⟩
def WAKE_EN_PATTERN : Fld := ⟨4, 1⟩
def WAKE_SEEN : Nat := 0x0100118
def WAKE_SEEN_SEEN : Fld := ⟨0, 5⟩
def TEMP : Nat := 0x010011C
def TEMP_TJ : Fld := ⟨0, 11⟩
def TEMP_VALID : Fld := ⟨11, 1⟩
def TEMP_CTL : Nat := 0x0100120
def TEMP_CTL_WARN : Fld := ⟨0, 8⟩
def TEMP_CTL_WAKE_T : Fld := ⟨8, 8⟩
def TEMP_CTL_WAKE_DIR : Fld := ⟨16, 1⟩
end PWR

namespace CLK
def CAUSE : Nat := 0x0200100
def CAUSE_SSY_LOL : Fld := ⟨0, 1⟩
def CAUSE_MSY_LOL : Fld := ⟨1, 4⟩
def CAUSE_SSC_LIMIT : Fld := ⟨5, 1⟩
def CAUSE_CFG_ERR : Fld := ⟨6, 1⟩
def CAUSE_SYNC_DONE : Fld := ⟨7, 1⟩
def CAUSE_EN : Nat := 0x0200104
def CAUSE_EN_EN : Fld := ⟨0, 8⟩
def STATUS : Nat := 0x0200108
def STATUS_SSY_LOCK : Fld := ⟨0, 1⟩
def STATUS_MSY_LOCK : Fld := ⟨1, 4⟩
def STATUS_SSC_ON : Fld := ⟨5, 1⟩
def STATUS_SSC_CENTRE : Fld := ⟨6, 1⟩
def STATUS_SSC_DEPTH : Fld := ⟨8, 5⟩
def STATUS_RUNNING : Fld := ⟨16, 16⟩
def MSY_CTL (i : Nat) : Nat := 0x0200210 + 0x10 * i
def MSY_CTL_EN : Fld := ⟨0, 1⟩
def MSY_CTL_FOLLOW : Fld := ⟨1, 1⟩
def MSY_CTL_FAM : Fld := ⟨2, 2⟩
def MSY_CTL_POST : Fld := ⟨4, 6⟩
def MSY_CTL_UPD : Fld := ⟨10, 1⟩
def MSY_CTL_ERR : Fld := ⟨11, 1⟩
def MSY_FREQ (i : Nat) : Nat := 0x0200214 + 0x10 * i
def MSY_FREQ_MULT : Fld := ⟨0, 20⟩
def MSY_SEED (i : Nat) : Nat := 0x0200208 + 0x10 * i
def MSY_SEED_SEED : Fld := ⟨0, 32⟩
def SSY_CTL : Nat := 0x0200110
def SSY_CTL_SSC_EN : Fld := ⟨0, 1⟩
def SSY_CTL_CENTRE : Fld := ⟨1, 1⟩
def SSY_CTL_DEPTH : Fld := ⟨2, 5⟩
def CLKOUT_CTL (i : Nat) : Nat := 0x0200400 + 0x10 * i
def CLKOUT_CTL_EN : Fld := ⟨0, 1⟩
def CLKOUT_CTL_IDLE : Fld := ⟨1, 1⟩
def CLKOUT_CTL_SRC : Fld := ⟨2, 4⟩
def CLKOUT_CTL_PHASE : Fld := ⟨6, 2⟩
def CLKOUT_DIV (i : Nat) : Nat := 0x0200404 + 0x10 * i
def CLKOUT_DIV_DIV : Fld := ⟨0, 24⟩
def CLKOUT_DLY (i : Nat) : Nat := 0x0200408 + 0x10 * i
def CLKOUT_DLY_COARSE : Fld := ⟨0, 16⟩
def CLKOUT_DLY_FINE : Fld := ⟨16, 9⟩
def SYNC_CTL : Nat := 0x0200600
def SYNC_CTL_MASK : Fld := ⟨0, 16⟩
def SYNC_CTL_MODE : Fld := ⟨16, 1⟩
def SYNC_CTL_ARM : Fld := ⟨17, 1⟩
def SOLO_MAP : Nat := 0x0200604
def SOLO_MAP_SOLO : Fld := ⟨0, 16⟩
end CLK

namespace TIME
def PTP_CTL (i : Nat) : Nat := 0x0300200 + 0x20 * i
def PTP_CTL_EN : Fld := ⟨0, 1⟩
def PTP_CTL_BC : Fld := ⟨1, 1⟩
def PTP_CTL_SLAVE_ONLY : Fld := ⟨2, 1⟩
def PTP_CTL_P2P : Fld := ⟨3, 1⟩
def PTP_CTL_TRANSPORT : Fld := ⟨4, 2⟩
def PTP_CTL_TWO_STEP : Fld := ⟨6, 1⟩
def PTP_CTL_UNICAST_DREQ : Fld := ⟨7, 1⟩
def PTP_CTL_DOMAIN : Fld := ⟨8, 8⟩
def PTP_CTL_PROFILE : Fld := ⟨16, 1⟩
def PTP_INTV (i : Nat) : Nat := 0x0300204 + 0x20 * i
def PTP_INTV_LOG_SYNC : Fld := ⟨0, 4⟩
def PTP_INTV_LOG_ANN : Fld := ⟨4, 4⟩
def PTP_INTV_LOG_DREQ : Fld := ⟨8, 4⟩
def PTP_INTV_ANN_TIMEOUT : Fld := ⟨12, 4⟩
def PTP_INTV_PRIO1 : Fld := ⟨16, 8⟩
def PTP_INTV_PRIO2 : Fld := ⟨24, 8⟩
def PTP_STATUS (i : Nat) : Nat := 0x0300208 + 0x20 * i
def PTP_STATUS_STATE : Fld := ⟨0, 4⟩
def PTP_QUAL (i : Nat) : Nat := 0x030020C + 0x20 * i
def PTP_QUAL_CLASS : Fld := ⟨0, 8⟩
def PTP_QUAL_ACCURACY : Fld := ⟨8, 8⟩
def PTP_QUAL_VARIANCE : Fld := ⟨16, 16⟩
def CAUSE : Nat := 0x0300100
def CAUSE_SWITCH : Fld := ⟨0, 1⟩
def CAUSE_LOST : Fld := ⟨1, 1⟩
def CAUSE_WARN : Fld := ⟨2, 1⟩
def CAUSE_DISAGREE : Fld := ⟨3, 1⟩
def CAUSE_HOLDOVER : Fld := ⟨4, 1⟩
def CAUSE_LOCKED : Fld := ⟨5, 1⟩
def CAUSE_LANE_VOTED : Fld := ⟨6, 1⟩
def CAUSE_LANE_SPLIT : Fld := ⟨7, 1⟩
def CAUSE_PTP_STATE : Fld := ⟨8, 1⟩
def CAUSE_FP_ALIGNED : Fld := ⟨9, 1⟩
def CAUSE_RESTORED : Fld := ⟨10, 1⟩
def CAUSE_FAR : Fld := ⟨11, 1⟩
def CAUSE_EN : Nat := 0x0300104
def CAUSE_EN_EN : Fld := ⟨0, 12⟩
def CLK_STATE : Nat := 0x0300108
def CLK_STATE_STATE : Fld := ⟨0, 2⟩
def CLK_STATE_SLEWING : Fld := ⟨2, 1⟩
def CLK_STATE_HO_OSC : Fld := ⟨3, 1⟩
def CLK_STATE_LEARN_OK : Fld := ⟨4, 1⟩
def CLK_STATE_FRESH : Fld := ⟨5, 1⟩
def CLK_STATE_IN_USE : Fld := ⟨8, 4⟩
def CLK_STATE_NAMED : Fld := ⟨12, 4⟩
def CLK_STATE_LANES : Fld := ⟨16, 3⟩
def CLK_STATE_BW_EFF : Fld := ⟨20, 4⟩
def SEL_CTL : Nat := 0x0300110
def SEL_CTL_REVERT : Fld := ⟨0, 1⟩
def SEL_CTL_WTR_S : Fld := ⟨1, 10⟩
def SEL_CTL_AGREE : Fld := ⟨11, 8⟩
def SERVO_CTL : Nat := 0x0300114
def SERVO_CTL_SLOPE : Fld := ⟨0, 10⟩
def SERVO_CTL_BW : Fld := ⟨10, 4⟩
def SERVO_CTL_VOTE_NS : Fld := ⟨16, 10⟩
def QUAL_CTL : Nat := 0x0300118
def QUAL_CTL_SOFT : Fld := ⟨0, 11⟩
def QUAL_CTL_HARD : Fld := ⟨11, 11⟩
def QUAL_CTL_PERSIST : Fld := ⟨22, 8⟩
def SEC_LOAD_LO : Nat := 0x0300120
def SEC_LOAD_LO_SEC_LO : Fld := ⟨0, 32⟩
def SEC_LOAD_HI : Nat := 0x0300124
def SEC_LOAD_HI_SEC_HI : Fld := ⟨0, 16⟩
def SEC_LOAD_HI_GO : Fld := ⟨16, 1⟩
def SEC_LOAD_HI_REFUSED : Fld := ⟨17, 1⟩
def REF_CFG (i : Nat) : Nat := 0x0300140 + 0x4 * i
def REF_CFG_TYPE : Fld := ⟨0, 4⟩
def REF_CFG_INDEX : Fld := ⟨4, 6⟩
def REF_CFG_RANK : Fld := ⟨10, 3⟩
def REF_CFG_RATE : Fld := ⟨13, 2⟩
def REF_STATUS (i : Nat) : Nat := 0x0300180 + 0x4 * i
def REF_STATUS_STATE : Fld := ⟨0, 3⟩
def REF_STATUS_IN_USE : Fld := ⟨3, 1⟩
def REF_STATUS_WARN : Fld := ⟨4, 1⟩
def REF_STATUS_FAR : Fld := ⟨5, 1⟩
def REF_STATUS_FFO : Fld := ⟨12, 20⟩
def FPG_CTL (i : Nat) : Nat := 0x0300300 + 0x10 * i
def FPG_CTL_SRC : Fld := ⟨0, 3⟩
def FPG_CTL_ALIGN : Fld := ⟨3, 1⟩
def FPG_CTL_ALIGNED : Fld := ⟨4, 1⟩
def FPG_OFF (i : Nat) : Nat := 0x0300304 + 0x10 * i
def FPG_OFF_OFF : Fld := ⟨0, 30⟩
def FPG_NUM (i : Nat) : Nat := 0x0300308 + 0x10 * i
def FPG_NUM_NUM : Fld := ⟨0, 16⟩
def FPG_DEN (i : Nat) : Nat := 0x030030C + 0x10 * i
def FPG_DEN_DEN : Fld := ⟨0, 32⟩
end TIME

namespace MAC
def MAC_CTL (p : Nat) : Nat := 0x0400100 + 0x100000 * p
def MAC_CTL_RATE : Fld := ⟨0, 2⟩
def MAC_CTL_IF_1G : Fld := ⟨2, 1⟩
def MAC_CTL_AN_EN : Fld := ⟨3, 1⟩
def MAC_CTL_TX_EN : Fld := ⟨4, 1⟩
def MAC_CTL_RX_EN : Fld := ⟨5, 1⟩
def MAC_CTL_PROMISC : Fld := ⟨6, 1⟩
def MAC_CTL_LPBK : Fld := ⟨7, 1⟩
def MAC_STATUS (p : Nat) : Nat := 0x0400104 + 0x100000 * p
def MAC_STATUS_LINK : Fld := ⟨0, 1⟩
def MAC_STATUS_AN_DONE : Fld := ⟨1, 1⟩
def MAC_STATUS_PCS_LOCK : Fld := ⟨2, 1⟩
def MAC_STATUS_FEC_LOCK : Fld := ⟨3, 1⟩
def MAC_STATUS_SPEED_FAULT : Fld := ⟨4, 1⟩
def MAC_STATUS_PAUSED : Fld := ⟨8, 8⟩
def MAC_STATUS_RATE_ACT : Fld := ⟨16, 2⟩
def MAC_CAUSE (p : Nat) : Nat := 0x0400108 + 0x100000 * p
def MAC_CAUSE_LINK_UP : Fld := ⟨0, 1⟩
def MAC_CAUSE_LINK_DOWN : Fld := ⟨1, 1⟩
def MAC_CAUSE_UNDERRUN : Fld := ⟨2, 1⟩
def MAC_CAUSE_TS_LOST : Fld := ⟨3, 1⟩
def MAC_CAUSE_FEC_UNCORR : Fld := ⟨4, 1⟩
def MAC_CAUSE_GATE_DROP : Fld := ⟨5, 1⟩
def MAC_CAUSE_LATE_DROP : Fld := ⟨6, 1⟩
def MAC_CAUSE_SPEED_FAULT : Fld := ⟨7, 1⟩
def MAC_CAUSE_PAUSE_RX : Fld := ⟨8, 1⟩
def MAC_CAUSE_EN (p : Nat) : Nat := 0x040010C + 0x100000 * p
def MAC_CAUSE_EN_EN : Fld := ⟨0, 9⟩
def STATION_ADDR_LO (p : Nat) : Nat := 0x0400110 + 0x100000 * p
def STATION_ADDR_LO_ADDR_LO : Fld := ⟨0, 32⟩
def STATION_ADDR_HI (p : Nat) : Nat := 0x0400114 + 0x100000 * p
def STATION_ADDR_HI_ADDR_HI : Fld := ⟨0, 16⟩
def MAX_FRAME (p : Nat) : Nat := 0x0400118 + 0x100000 * p
def MAX_FRAME_BYTES : Fld := ⟨0, 14⟩
def TX_THRESH (p : Nat) : Nat := 0x040011C + 0x100000 * p
def TX_THRESH_STEPS : Fld := ⟨0, 6⟩
def PFC_MAP (p : Nat) : Nat := 0x0400120 + 0x100000 * p
def PFC_MAP_QCLASS : Fld := ⟨0, 24⟩
def TS_STATUS (p : Nat) : Nat := 0x0400130 + 0x100000 * p
def TS_STATUS_LEVEL : Fld := ⟨0, 7⟩
def TS_STATUS_TS_LOST_CNT : Fld := ⟨16, 16⟩
def TS_CORR (p : Nat) : Nat := 0x0400134 + 0x100000 * p
def TS_CORR_TX_ADJ : Fld := ⟨0, 16⟩
def TS_CORR_RX_ADJ : Fld := ⟨16, 16⟩
def GCL_STATUS (p : Nat) : Nat := 0x0400140 + 0x100000 * p
def GCL_STATUS_LEN : Fld := ⟨0, 9⟩
def GCL_STATUS_ACTIVE : Fld := ⟨9, 1⟩
def GCL_STATUS_CYCLE_US : Fld := ⟨16, 16⟩
def GCL_ENTRY (p : Nat) (i : Nat) : Nat := 0x0400200 + 0x100000 * p + 0x4 * i
def GCL_ENTRY_INTERVAL : Fld := ⟨0, 24⟩
def GCL_ENTRY_GATES : Fld := ⟨24, 8⟩
def WAKE_MASK (p : Nat) (i : Nat) (j : Nat) : Nat := 0x0400600 + 0x100000 * p + 0x20 * i + 0x4 * j
def WAKE_MASK_MASK : Fld := ⟨0, 32⟩
def WAKE_CTL (p : Nat) (i : Nat) : Nat := 0x0400610 + 0x100000 * p + 0x20 * i
def WAKE_CTL_CRC : Fld := ⟨0, 16⟩
def WAKE_CTL_EN : Fld := ⟨16, 1⟩
def WAKE_HIT (p : Nat) : Nat := 0x0400800 + 0x100000 * p
def WAKE_HIT_HIT : Fld := ⟨0, 16⟩
def MDIO_CMD : Nat := 0x0600900
def MDIO_CMD_REGAD : Fld := ⟨0, 5⟩
def MDIO_CMD_PHYAD : Fld := ⟨5, 5⟩
def MDIO_CMD_CL45 : Fld := ⟨10, 1⟩
def MDIO_CMD_OP : Fld := ⟨11, 2⟩
def MDIO_CMD_GO : Fld := ⟨13, 1⟩
def MDIO_CMD_WDATA : Fld := ⟨16, 16⟩
def MDIO_STATUS : Nat := 0x0600904
def MDIO_STATUS_BUSY : Fld := ⟨0, 1⟩
def MDIO_STATUS_RDATA : Fld := ⟨16, 16⟩
end MAC

namespace STX
def TXS_W0 (i : Nat) : Nat := 0x0710000 + 0x40 * i
def TXS_W0_EN : Fld := ⟨0, 1⟩
def TXS_W0_PORT_A : Fld := ⟨1, 1⟩
def TXS_W0_PORT_B : Fld := ⟨2, 1⟩
def TXS_W0_PTIME : Fld := ⟨3, 3⟩
def TXS_W0_FMT : Fld := ⟨6, 2⟩
def TXS_W0_NCH : Fld := ⟨8, 9⟩
def TXS_W0_RATE : Fld := ⟨17, 2⟩
def TXS_W0_IPV6 : Fld := ⟨19, 1⟩
def TXS_W0_VLAN : Fld := ⟨20, 1⟩
def TXS_W0_JUMBO : Fld := ⟨21, 1⟩
def TXS_W0_CS_GEN : Fld := ⟨22, 1⟩
def TXSA_W0 (i : Nat) : Nat := 0x0720000 + 0x40 * i
def TXS_W1 (i : Nat) : Nat := 0x0710004 + 0x40 * i
def TXS_W1_CH_BASE : Fld := ⟨0, 12⟩
def TXS_W1_QUEUE : Fld := ⟨12, 3⟩
def TXS_W1_LAUNCH_US : Fld := ⟨16, 12⟩
def TXSA_W1 (i : Nat) : Nat := 0x0720004 + 0x40 * i
def TXS_W2 (i : Nat) : Nat := 0x0710008 + 0x40 * i
def TXS_W2_SSRC : Fld := ⟨0, 32⟩
def TXSA_W2 (i : Nat) : Nat := 0x0720008 + 0x40 * i
def TXS_W3 (i : Nat) : Nat := 0x071000C + 0x40 * i
def TXS_W3_PT : Fld := ⟨0, 7⟩
def TXS_W3_SEQ_OFF : Fld := ⟨16, 16⟩
def TXSA_W3 (i : Nat) : Nat := 0x072000C + 0x40 * i
def TXS_W4 (i : Nat) : Nat := 0x0710010 + 0x40 * i
def TXS_W4_TS_OFF : Fld := ⟨0, 32⟩
def TXSA_W4 (i : Nat) : Nat := 0x0720010 + 0x40 * i
def TXS_W5 (i : Nat) : Nat := 0x0710014 + 0x40 * i
def TXS_W5_UDP_SRC : Fld := ⟨0, 16⟩
def TXS_W5_UDP_DST : Fld := ⟨16, 16⟩
def TXSA_W5 (i : Nat) : Nat := 0x0720014 + 0x40 * i
def TXS_W6 (i : Nat) : Nat := 0x0710018 + 0x40 * i
def TXS_W6_DSCP : Fld := ⟨0, 6⟩
def TXS_W6_TTL : Fld := ⟨8, 8⟩
def TXS_W6_VID : Fld := ⟨16, 12⟩
def TXS_W6_PCP : Fld := ⟨28, 3⟩
def TXSA_W6 (i : Nat) : Nat := 0x0720018 + 0x40 * i
def TXS_W7 (i : Nat) : Nat := 0x071001C + 0x40 * i
def TXS_W7_A_DA_LO : Fld := ⟨0, 32⟩
def TXSA_W7 (i : Nat) : Nat := 0x072001C + 0x40 * i
def TXS_W8 (i : Nat) : Nat := 0x0710020 + 0x40 * i
def TXS_W8_A_DA_HI : Fld := ⟨0, 16⟩
def TXS_W8_B_DA_HI : Fld := ⟨16, 16⟩
def TXSA_W8 (i : Nat) : Nat := 0x0720020 + 0x40 * i
def TXS_W9 (i : Nat) : Nat := 0x0710024 + 0x40 * i
def TXS_W9_B_DA_LO : Fld := ⟨0, 32⟩
def TXSA_W9 (i : Nat) : Nat := 0x0720024 + 0x40 * i
def TXS_W10 (i : Nat) : Nat := 0x0710028 + 0x40 * i
def TXS_W10_A_DIP4 : Fld := ⟨0, 32⟩
def TXSA_W10 (i : Nat) : Nat := 0x0720028 + 0x40 * i
def TXS_W11 (i : Nat) : Nat := 0x071002C + 0x40 * i
def TXS_W11_B_DIP4 : Fld := ⟨0, 32⟩
def TXSA_W11 (i : Nat) : Nat := 0x072002C + 0x40 * i
def TXS_W12 (i : Nat) : Nat := 0x0710030 + 0x40 * i
def TXS_W12_A_SIP4 : Fld := ⟨0, 32⟩
def TXSA_W12 (i : Nat) : Nat := 0x0720030 + 0x40 * i
def TXS_W13 (i : Nat) : Nat := 0x0710034 + 0x40 * i
def TXS_W13_B_SIP4 : Fld := ⟨0, 32⟩
def TXSA_W13 (i : Nat) : Nat := 0x0720034 + 0x40 * i
def TXS_W14 (i : Nat) : Nat := 0x0710038 + 0x40 * i
def TXS_W14_A_ROW : Fld := ⟨0, 9⟩
def TXS_W14_B_ROW : Fld := ⟨16, 9⟩
def TXSA_W14 (i : Nat) : Nat := 0x0720038 + 0x40 * i
def TXS_W15 (i : Nat) : Nat := 0x071003C + 0x40 * i
def TXSA_W15 (i : Nat) : Nat := 0x072003C + 0x40 * i
def ROW_SRC (i : Nat) (j : Nat) : Nat := 0x0730000 + 0x20 * i + 0x4 * j
def ROW_SRC_SRCw : Fld := ⟨0, 32⟩
def ROWA_SRC (i : Nat) (j : Nat) : Nat := 0x0734000 + 0x20 * i + 0x4 * j
def ROW_DST (i : Nat) (j : Nat) : Nat := 0x0730010 + 0x20 * i + 0x4 * j
def ROW_DST_DSTw : Fld := ⟨0, 32⟩
def ROWA_DST (i : Nat) (j : Nat) : Nat := 0x0734010 + 0x20 * i + 0x4 * j
def CAUSE : Nat := 0x0700100
def CAUSE_KILLED : Fld := ⟨0, 1⟩
def CAUSE_DISCONT : Fld := ⟨1, 1⟩
def CAUSE_EN : Nat := 0x0700104
def CAUSE_EN_EN : Fld := ⟨0, 2⟩
def STATUS : Nat := 0x0700108
def STATUS_ACTIVE : Fld := ⟨0, 11⟩
def KILLED (i : Nat) : Nat := 0x0700200 + 0x4 * i
def KILLED_KILL : Fld := ⟨0, 32⟩
end STX

namespace SRX
def ROW_SRC (i : Nat) (j : Nat) : Nat := 0x0830000 + 0x20 * i + 0x4 * j
def ROW_SRC_SRCw : Fld := ⟨0, 32⟩
def ROWA_SRC (i : Nat) (j : Nat) : Nat := 0x0834000 + 0x20 * i + 0x4 * j
def ROW_DST (i : Nat) (j : Nat) : Nat := 0x0830010 + 0x20 * i + 0x4 * j
def ROW_DST_DSTw : Fld := ⟨0, 32⟩
def ROWA_DST (i : Nat) (j : Nat) : Nat := 0x0834010 + 0x20 * i + 0x4 * j
def RXS_W0 (i : Nat) : Nat := 0x0810000 + 0x40 * i
def RXS_W0_EN : Fld := ⟨0, 1⟩
def RXS_W0_PORT_A : Fld := ⟨1, 1⟩
def RXS_W0_PORT_B : Fld := ⟨2, 1⟩
def RXS_W0_PTIME : Fld := ⟨3, 3⟩
def RXS_W0_FMT : Fld := ⟨6, 2⟩
def RXS_W0_NCH : Fld := ⟨8, 9⟩
def RXS_W0_RATE : Fld := ⟨17, 2⟩
def RXS_W0_IPV6 : Fld := ⟨19, 1⟩
def RXS_W0_VLAN : Fld := ⟨20, 1⟩
def RXS_W0_JUMBO : Fld := ⟨21, 1⟩
def RXS_W0_SIP_EN : Fld := ⟨22, 1⟩
def RXS_W0_SSRC_EN : Fld := ⟨23, 1⟩
def RXSA_W0 (i : Nat) : Nat := 0x0820000 + 0x40 * i
def RXS_W1 (i : Nat) : Nat := 0x0810004 + 0x40 * i
def RXS_W1_CH_BASE : Fld := ⟨0, 12⟩
def RXS_W1_BUF_OFF : Fld := ⟨12, 19⟩
def RXSA_W1 (i : Nat) : Nat := 0x0820004 + 0x40 * i
def RXS_W2 (i : Nat) : Nat := 0x0810008 + 0x40 * i
def RXS_W2_LINK_OFF : Fld := ⟨0, 14⟩
def RXS_W2_BUF_LEN : Fld := ⟨16, 14⟩
def RXSA_W2 (i : Nat) : Nat := 0x0820008 + 0x40 * i
def RXS_W3 (i : Nat) : Nat := 0x081000C + 0x40 * i
def RXS_W3_SSRC : Fld := ⟨0, 32⟩
def RXSA_W3 (i : Nat) : Nat := 0x082000C + 0x40 * i
def RXS_W4 (i : Nat) : Nat := 0x0810010 + 0x40 * i
def RXS_W4_TS_OFF : Fld := ⟨0, 32⟩
def RXSA_W4 (i : Nat) : Nat := 0x0820010 + 0x40 * i
def RXS_W5 (i : Nat) : Nat := 0x0810014 + 0x40 * i
def RXS_W5_UDP_DST : Fld := ⟨0, 16⟩
def RXS_W5_VID : Fld := ⟨16, 12⟩
def RXSA_W5 (i : Nat) : Nat := 0x0820014 + 0x40 * i
def RXS_W6 (i : Nat) : Nat := 0x0810018 + 0x40 * i
def RXS_W6_POL_BURST : Fld := ⟨0, 6⟩
def RXSA_W6 (i : Nat) : Nat := 0x0820018 + 0x40 * i
def RXS_W7 (i : Nat) : Nat := 0x081001C + 0x40 * i
def RXS_W7_A_DIP4 : Fld := ⟨0, 32⟩
def RXSA_W7 (i : Nat) : Nat := 0x082001C + 0x40 * i
def RXS_W8 (i : Nat) : Nat := 0x0810020 + 0x40 * i
def RXS_W8_B_DIP4 : Fld := ⟨0, 32⟩
def RXSA_W8 (i : Nat) : Nat := 0x0820020 + 0x40 * i
def RXS_W9 (i : Nat) : Nat := 0x0810024 + 0x40 * i
def RXS_W9_A_SIP4 : Fld := ⟨0, 32⟩
def RXSA_W9 (i : Nat) : Nat := 0x0820024 + 0x40 * i
def RXS_W10 (i : Nat) : Nat := 0x0810028 + 0x40 * i
def RXS_W10_B_SIP4 : Fld := ⟨0, 32⟩
def RXSA_W10 (i : Nat) : Nat := 0x0820028 + 0x40 * i
def RXS_W11 (i : Nat) : Nat := 0x081002C + 0x40 * i
def RXS_W11_A_ROW : Fld := ⟨0, 9⟩
def RXS_W11_B_ROW : Fld := ⟨16, 9⟩
def RXSA_W11 (i : Nat) : Nat := 0x082002C + 0x40 * i
def RXS_RSV (i : Nat) (j : Nat) : Nat := 0x0810030 + 0x40 * i + 0x4 * j
def RXSA_RSV (i : Nat) (j : Nat) : Nat := 0x0820030 + 0x40 * i + 0x4 * j
def CAUSE : Nat := 0x0800100
def CAUSE_KILLED : Fld := ⟨0, 1⟩
def CAUSE_PATH_DOWN : Fld := ⟨1, 1⟩
def CAUSE_SAMPLE_LOSS : Fld := ⟨2, 1⟩
def CAUSE_RELOCK : Fld := ⟨3, 1⟩
def CAUSE_MGMT_DROP : Fld := ⟨4, 1⟩
def CAUSE_KEY_CLASH : Fld := ⟨5, 1⟩
def CAUSE_EN : Nat := 0x0800104
def CAUSE_EN_EN : Fld := ⟨0, 6⟩
def STATUS : Nat := 0x0800108
def STATUS_ACTIVE : Fld := ⟨0, 11⟩
def STATUS_LOCKED : Fld := ⟨16, 11⟩
def POOL (i : Nat) : Nat := 0x0800120 + 0x4 * i
def POOL_RSV_FREE : Fld := ⟨0, 6⟩
def POOL_SHARED_FREE : Fld := ⟨8, 7⟩
def KILLED (i : Nat) : Nat := 0x0800200 + 0x4 * i
def KILLED_KILL : Fld := ⟨0, 32⟩
def RXS_STATUS (i : Nat) : Nat := 0x0801000 + 0x4 * i
def RXS_STATUS_LOCKED : Fld := ⟨0, 1⟩
def RXS_STATUS_A_LIVE : Fld := ⟨1, 1⟩
def RXS_STATUS_B_LIVE : Fld := ⟨2, 1⟩
def RXS_STATUS_RELOCKS : Fld := ⟨8, 8⟩
def RXS_STATUS_HSEQ : Fld := ⟨16, 16⟩
def MC_RULE0 (i : Nat) : Nat := 0x0800400 + 0x8 * i
def MC_RULE0_TYPE : Fld := ⟨0, 2⟩
def MC_RULE0_PORTS : Fld := ⟨2, 3⟩
def MC_RULE0_TO_RING : Fld := ⟨5, 1⟩
def MC_RULE0_RING : Fld := ⟨6, 6⟩
def MC_RULE0_VALUE : Fld := ⟨16, 16⟩
def MC_RULE1 (i : Nat) : Nat := 0x0800404 + 0x8 * i
def MC_RULE1_MAC_LO : Fld := ⟨0, 32⟩
def MGMT_POL (i : Nat) : Nat := 0x0800110 + 0x4 * i
def MGMT_POL_RATE_K : Fld := ⟨0, 16⟩
def MGMT_POL_BURST : Fld := ⟨16, 6⟩
def UNM_CTL : Nat := 0x080010C
def UNM_CTL_EN : Fld := ⟨0, 1⟩
def UNM_CTL_RING : Fld := ⟨1, 6⟩
def UNM_CTL_RATE_K : Fld := ⟨8, 16⟩
def UNM_CTL_BURST : Fld := ⟨24, 6⟩
def KILL_CTL (i : Nat) : Nat := 0x0800800 + 0x40 * i
def KILL_CTL_EN : Fld := ⟨0, 1⟩
def KILL_CTL_PORTS : Fld := ⟨1, 3⟩
def KILL_CTL_DIR : Fld := ⟨4, 1⟩
def KILL_CTL_SID : Fld := ⟨5, 10⟩
def KILL_CTL_OFF : Fld := ⟨16, 7⟩
def KILL_VAL (i : Nat) (j : Nat) : Nat := 0x0800810 + 0x40 * i + 0x4 * j
def KILL_VAL_VAL : Fld := ⟨0, 32⟩
def KILL_MASK (i : Nat) (j : Nat) : Nat := 0x0800820 + 0x40 * i + 0x4 * j
def KILL_MASK_MASK : Fld := ⟨0, 32⟩
end SRX

namespace ROUTE
def ENTRY_SHADOW (i : Nat) : Nat := 0x0910000 + 0x4 * i
def ENTRY_SHADOW_SRC : Fld := ⟨0, 14⟩
def ENTRY_SHADOW_MUTE : Fld := ⟨16, 1⟩
def ENTRY_ACTIVE (i : Nat) : Nat := 0x0920000 + 0x4 * i
end ROUTE

namespace APORT
def PORT_PRESENT : Nat := 0x0A00004
def PORT_PRESENT_APORT_PORT_PRESENT_TDM__offset_0x0000_0004_ : Fld := ⟨0, 32⟩
def DIG_PRESENT : Nat := 0x0A00008
def DIG_PRESENT_APORT_DIG_PRESENT_AES3__offset_0x0000_0008_ : Fld := ⟨0, 8⟩
def DIG_PRESENT_APORT_DIG_PRESENT_MADI : Fld := ⟨8, 4⟩
def SIDE_CTL (i : Nat) : Nat := 0x0A01000 + 0x40 * i
def SIDE_CTL_EN : Fld := ⟨0, 1⟩
def SIDE_CTL_MASTER : Fld := ⟨1, 1⟩
def SIDE_CTL_CLKMODE : Fld := ⟨2, 3⟩
def SIDE_CTL_CLKSRC : Fld := ⟨5, 2⟩
def SIDE_CTL_RATE : Fld := ⟨7, 2⟩
def SIDE_CTL_AUTO_RELOCK : Fld := ⟨9, 1⟩
def SIDE_CTL_ALLOWED : Fld := ⟨10, 3⟩
def SIDE_CTL_FAM_ALT : Fld := ⟨13, 1⟩
def SIDE_FMT (i : Nat) : Nat := 0x0A01004 + 0x40 * i
def SIDE_FMT_FORMAT : Fld := ⟨0, 2⟩
def SIDE_FMT_SLOTS : Fld := ⟨2, 6⟩
def SIDE_FMT_SLOT_BITS : Fld := ⟨8, 2⟩
def SIDE_FMT_DATA_BITS : Fld := ⟨10, 2⟩
def SIDE_FMT_DELAY : Fld := ⟨12, 1⟩
def SIDE_FMT_FS_WIDTH : Fld := ⟨13, 2⟩
def SIDE_FMT_FS_POL : Fld := ⟨15, 1⟩
def SIDE_FMT_BCLK_EDGE : Fld := ⟨16, 1⟩
def SIDE_FMT_TRI_INACTIVE : Fld := ⟨17, 1⟩
def SIDE_CLK (i : Nat) : Nat := 0x0A01008 + 0x40 * i
def SIDE_CLK_BDIV : Fld := ⟨0, 9⟩
def SIDE_BLOCK (i : Nat) : Nat := 0x0A0100C + 0x40 * i
def SIDE_BLOCK_FRAMES : Fld := ⟨0, 7⟩
def SIDE_BLOCK_CH_CAP : Fld := ⟨16, 7⟩
def MASK (i : Nat) : Nat := 0x0A01010 + 0x40 * i
def MASK_MASK : Fld := ⟨0, 32⟩
def MASK_ACT (i : Nat) : Nat := 0x0A01014 + 0x40 * i
def MASK_ACT_MASK_ACT : Fld := ⟨0, 32⟩
def LEVEL (i : Nat) : Nat := 0x0A01018 + 0x40 * i
def LEVEL_LBW : Fld := ⟨0, 4⟩
def SIDE_STATUS (i : Nat) : Nat := 0x0A0101C + 0x40 * i
def SIDE_STATUS_STATE : Fld := ⟨0, 3⟩
def SIDE_STATUS_RATE_DET : Fld := ⟨3, 3⟩
def SIDE_STATUS_LOCKED : Fld := ⟨6, 1⟩
def SIDE_STATUS_ACT_CH : Fld := ⟨8, 7⟩
def SIDE_FAULT (i : Nat) : Nat := 0x0A01020 + 0x40 * i
def SIDE_FAULT_UNDERRUN : Fld := ⟨0, 1⟩
def SIDE_FAULT_OVERRUN : Fld := ⟨1, 1⟩
def SIDE_FAULT_GLITCH : Fld := ⟨2, 1⟩
def SIDE_FAULT_STOPPED : Fld := ⟨3, 1⟩
def SIDE_FAULT_RATE_CHG : Fld := ⟨4, 1⟩
def SIDE_FAULT_RELOCKED : Fld := ⟨5, 1⟩
def SIDE_FAULT_EXT : Fld := ⟨6, 1⟩
def SIDE_FAULT_MASK_REFUSED : Fld := ⟨7, 1⟩
def SIDE_FAULT_CFG_ERR : Fld := ⟨8, 1⟩
def SIDE_FAULT_CRC : Fld := ⟨9, 1⟩
def SIDE_FAULT_PARITY : Fld := ⟨10, 1⟩
def FAULT_EN (i : Nat) : Nat := 0x0A01024 + 0x40 * i
def FAULT_EN_EN : Fld := ⟨0, 11⟩
def SIDE_COUNT (i : Nat) : Nat := 0x0A01028 + 0x40 * i
def SIDE_COUNT_SLIPS : Fld := ⟨0, 16⟩
def SIDE_COUNT_DIG_ERR : Fld := ⟨16, 16⟩
def LEVEL_STAT (i : Nat) : Nat := 0x0A0102C + 0x40 * i
def LEVEL_STAT_LEVEL : Fld := ⟨0, 16⟩
def LEVEL_STAT_CORR : Fld := ⟨16, 16⟩
def ZC_CTL : Nat := 0x0A00110
def ZC_CTL_TIMEOUT : Fld := ⟨0, 6⟩
def GRP_MUTE : Nat := 0x0A00114
def GRP_MUTE_TDM : Fld := ⟨0, 1⟩
def GRP_MUTE_DIG : Fld := ⟨1, 1⟩
def VC_CTL : Nat := 0x0A00120
def VC_CTL_EN : Fld := ⟨0, 1⟩
def VC_CTL_POL : Fld := ⟨1, 1⟩
def VC_CTL_SIDE : Fld := ⟨2, 7⟩
def VC_CTL_KV : Fld := ⟨9, 9⟩
def VC_CODE : Nat := 0x0A00124
def VC_CODE_CODE : Fld := ⟨0, 16⟩
def OUT_GAIN (i : Nat) : Nat := 0x0A10000 + 0x4 * i
def OUT_GAIN_GAIN : Fld := ⟨0, 16⟩
def OUT_GAIN_MUTE : Fld := ⟨16, 1⟩
def OUT_GAIN_PENDING : Fld := ⟨17, 1⟩
def AES_CS_OUT (i : Nat) (j : Nat) : Nat := 0x0A03000 + 0x20 * i + 0x4 * j
def AES_CS_OUT_CS : Fld := ⟨0, 32⟩
def AES_CS_CTL (i : Nat) : Nat := 0x0A03018 + 0x20 * i
def AES_CS_CTL_CS_SRC : Fld := ⟨0, 2⟩
def AES_CS_IN (i : Nat) (j : Nat) : Nat := 0x0A03200 + 0x20 * i + 0x4 * j
def AES_CS_IN_CS : Fld := ⟨0, 32⟩
def AES_CS_INFO (i : Nat) : Nat := 0x0A03218 + 0x20 * i
def AES_CS_INFO_VALID : Fld := ⟨0, 1⟩
def AES_CS_INFO_DIFF : Fld := ⟨1, 1⟩
def AES_CS_INFO_CONSUMER : Fld := ⟨2, 1⟩
end APORT

namespace DSPC
def TILE_PRESENT : Nat := 0x0B00004
def TILE_PRESENT_DSPC_TILE_PRESENT_MASK__offset_0x0000_0004_ : Fld := ⟨0, 32⟩
def FAULT : Nat := 0x0B00100
def FAULT_FAULT : Fld := ⟨0, 32⟩
def AXOV : Nat := 0x0B00104
def AXOV_AXOV : Fld := ⟨0, 32⟩
def CAUSE_EN : Nat := 0x0B00108
def CAUSE_EN_EN : Fld := ⟨0, 2⟩
def CW_APPLY : Nat := 0x0B00110
def CW_APPLY_NODE : Fld := ⟨0, 10⟩
def CW_APPLY_GO : Fld := ⟨10, 1⟩
def CW_APPLY_PENDING : Fld := ⟨11, 1⟩
def NODE_SEL : Nat := 0x0B00120
def NODE_SEL_NODE : Fld := ⟨0, 10⟩
def NODE_REG (i : Nat) : Nat := 0x0B00124 + 0x4 * i
def NODE_REG_BASE : Fld := ⟨0, 18⟩
def NODE_REG_SIZE : Fld := ⟨18, 14⟩
def TILE_STATUS (i : Nat) : Nat := 0x0B00200 + 0x10 * i
def TILE_STATUS_STATE : Fld := ⟨0, 2⟩
def TILE_STATUS_UNIFIED : Fld := ⟨2, 1⟩
def TILE_STATUS_SPARE : Fld := ⟨3, 1⟩
def TILE_STATUS_NODES : Fld := ⟨4, 11⟩
def TILE_FINFO (i : Nat) : Nat := 0x0B00204 + 0x10 * i
def TILE_FINFO_CAUSE : Fld := ⟨0, 4⟩
def TILE_FINFO_NODE : Fld := ⟨4, 10⟩
def TILE_FINFO_PC : Fld := ⟨14, 18⟩
def TILE_ECC (i : Nat) : Nat := 0x0B00208 + 0x10 * i
def TILE_ECC_CORR : Fld := ⟨0, 16⟩
def TILE_ECC_UNCORR : Fld := ⟨16, 16⟩
def TILE_LOAD (i : Nat) : Nat := 0x0B0020C + 0x10 * i
def TILE_LOAD_BUSY : Fld := ⟨0, 10⟩
def TILE_LOAD_PEAK : Fld := ⟨16, 10⟩
def CW (i : Nat) (j : Nat) : Nat := 0x0B10000 + 0x40 * i + 0x4 * j
def CW_CW : Fld := ⟨0, 32⟩
end DSPC

namespace DMA
def DMA_CAUSE : Nat := 0x0C00100
def DMA_CAUSE_MASTER_OFF : Fld := ⟨0, 1⟩
def DMA_CAUSE_LINK_LOST : Fld := ⟨1, 1⟩
def DMA_CAUSE_CMD_LOST : Fld := ⟨2, 1⟩
def DMA_CAUSE_EN : Nat := 0x0C00104
def DMA_CAUSE_EN_EN : Fld := ⟨0, 3⟩
def DMA_STATUS : Nat := 0x0C00108
def DMA_STATUS_LINK_UP : Fld := ⟨0, 1⟩
def DMA_STATUS_WIDTH : Fld := ⟨1, 3⟩
def DMA_STATUS_SPEED : Fld := ⟨4, 3⟩
def DMA_STATUS_BME : Fld := ⟨7, 1⟩
def DMA_STATUS_TAGS : Fld := ⟨8, 9⟩
def RING_SUM (i : Nat) : Nat := 0x0C00200 + 0x4 * i
def RING_SUM_RING : Fld := ⟨0, 32⟩
def RING_CTL (i : Nat) : Nat := 0x0C10000 + 0x40 * i
def RING_CTL_EN : Fld := ⟨0, 1⟩
def RING_CTL_STOPPED : Fld := ⟨1, 1⟩
def RING_CTL_ERR : Fld := ⟨2, 1⟩
def RING_BASE_LO (i : Nat) : Nat := 0x0C10004 + 0x40 * i
def RING_BASE_LO_ADDR_LO : Fld := ⟨6, 26⟩
def RING_BASE_HI (i : Nat) : Nat := 0x0C10008 + 0x40 * i
def RING_BASE_HI_ADDR_HI : Fld := ⟨0, 32⟩
def RING_SIZE (i : Nat) : Nat := 0x0C1000C + 0x40 * i
def RING_SIZE_LOG2 : Fld := ⟨0, 4⟩
def RING_TAIL (i : Nat) : Nat := 0x0C10010 + 0x40 * i
def RING_TAIL_TAIL : Fld := ⟨0, 16⟩
def RING_HEAD (i : Nat) : Nat := 0x0C10014 + 0x40 * i
def RING_HEAD_HEAD : Fld := ⟨0, 16⟩
def RING_PARAM_RX (i : Nat) : Nat := 0x0C11818 + 0x40 * i
def RING_PARAM_RX_BUF : Fld := ⟨0, 7⟩
def RING_PARAM_TX (i : Nat) : Nat := 0x0C12818 + 0x40 * i
def RING_PARAM_TX_PORT : Fld := ⟨0, 2⟩
def RING_PARAM_CE (i : Nat) : Nat := 0x0C13818 + 0x40 * i
def RING_PARAM_CE_MODE : Fld := ⟨0, 1⟩
def RING_PARAM_CE_MIN_SEV : Fld := ⟨1, 3⟩
def RING_IRQ (i : Nat) : Nat := 0x0C1001C + 0x40 * i
def RING_IRQ_VEC : Fld := ⟨0, 6⟩
def RING_IRQ_COUNT : Fld := ⟨8, 6⟩
def RING_IRQ_TIME_US : Fld := ⟨16, 16⟩
def RING_INFO (i : Nat) : Nat := 0x0C10020 + 0x40 * i
def RING_INFO_DEFINED : Fld := ⟨0, 1⟩
def RING_INFO_DIR : Fld := ⟨1, 1⟩
def RING_INFO_NCH : Fld := ⟨2, 9⟩
def RING_INFO_B : Fld := ⟨11, 7⟩
def RING_INFO_RATE : Fld := ⟨18, 2⟩
def RING_INFO_CH_BASE : Fld := ⟨20, 10⟩
def RING_CAUSE (i : Nat) : Nat := 0x0C10024 + 0x40 * i
def RING_CAUSE_MISSED : Fld := ⟨0, 1⟩
def RING_CAUSE_LATE : Fld := ⟨1, 1⟩
def RING_CAUSE_NOBUF : Fld := ⟨2, 1⟩
def RING_CAUSE_TAIL_ERR : Fld := ⟨3, 1⟩
def RING_CAUSE_DMA_ERR : Fld := ⟨4, 1⟩
def RING_CAUSE_OVERFLOW : Fld := ⟨5, 1⟩
def RING_CAUSE_EN (i : Nat) : Nat := 0x0C10028 + 0x40 * i
def RING_CAUSE_EN_EN : Fld := ⟨0, 6⟩
def MSIX_TABLE (i : Nat) (j : Nat) : Nat := 0x0C02000 + 0x10 * i + 0x4 * j
def MSIX_TABLE_WORD : Fld := ⟨0, 32⟩
def MSIX_PBA (i : Nat) : Nat := 0x0C03000 + 0x4 * i
def MSIX_PBA_PENDING : Fld := ⟨0, 32⟩
end DMA

namespace TWIN
def TWIN_CAUSE : Nat := 0x0D00100
def TWIN_CAUSE_ROLE_CHG : Fld := ⟨0, 1⟩
def TWIN_CAUSE_PEER_LOST : Fld := ⟨1, 1⟩
def TWIN_CAUSE_GANDER_LOST : Fld := ⟨2, 1⟩
def TWIN_CAUSE_MISMATCH : Fld := ⟨3, 1⟩
def TWIN_CAUSE_CHECK_FAIL : Fld := ⟨4, 1⟩
def TWIN_CAUSE_DIVERGENT : Fld := ⟨5, 1⟩
def TWIN_CAUSE_REJOINED : Fld := ⟨6, 1⟩
def TWIN_CAUSE_RESYNC_FAILED : Fld := ⟨7, 1⟩
def TWIN_CAUSE_PAIR_REFUSED : Fld := ⟨8, 1⟩
def TWIN_CAUSE_LANE_DOWN : Fld := ⟨9, 1⟩
def TWIN_CAUSE_TIME_SPLIT : Fld := ⟨10, 1⟩
def TWIN_CAUSE_WRITE_IGNORED : Fld := ⟨11, 1⟩
def TWIN_CAUSE_EN : Nat := 0x0D00104
def TWIN_CAUSE_EN_EN : Fld := ⟨0, 12⟩
def TWIN_STATUS : Nat := 0x0D00108
def TWIN_STATUS_ROLE : Fld := ⟨0, 3⟩
def TWIN_STATUS_UNIT : Fld := ⟨3, 1⟩
def TWIN_STATUS_LANES : Fld := ⟨4, 2⟩
def TWIN_STATUS_PEER_SEEN : Fld := ⟨6, 1⟩
def TWIN_STATUS_PAIRED : Fld := ⟨7, 1⟩
def TWIN_STATUS_GANDER : Fld := ⟨8, 2⟩
def TWIN_STATUS_VERDICT_FAIL : Fld := ⟨10, 1⟩
def TWIN_STATUS_DIVERGENT : Fld := ⟨11, 1⟩
def TWIN_STATUS_RESYNCING : Fld := ⟨12, 1⟩
def TWIN_STATUS_FORCED : Fld := ⟨13, 1⟩
def TWIN_STATUS_TIME_OK : Fld := ⟨14, 1⟩
def TWIN_STATUS_REFUSE : Fld := ⟨16, 4⟩
def TWIN_STATUS_HB_SYM : Fld := ⟨20, 3⟩
def TWIN_STATUS_PEER_ROLE : Fld := ⟨23, 3⟩
def TWIN_CTL : Nat := 0x0D0010C
def TWIN_CTL_AUTO_REJOIN : Fld := ⟨2, 1⟩
def TWIN_CTL_REJOIN : Fld := ⟨3, 1⟩
def TWIN_CTL_ECC_LIMIT : Fld := ⟨8, 8⟩
def TWIN_CTL_TIME_NS : Fld := ⟨16, 10⟩
def TWIN_FORCE : Nat := 0x0D00110
def TWIN_FORCE_EN : Fld := ⟨0, 1⟩
def TWIN_FORCE_FORCE : Fld := ⟨1, 2⟩
def TWIN_CHECK : Nat := 0x0D00114
def TWIN_CHECK_IND : Fld := ⟨0, 9⟩
def MISMATCH_INFO : Nat := 0x0D00118
def MISMATCH_INFO_INDEX : Fld := ⟨0, 11⟩
def MISMATCH_INFO_KIND : Fld := ⟨11, 1⟩
def MISMATCH_INFO_SEQ : Fld := ⟨12, 20⟩
def RESYNC_CTL : Nat := 0x0D0011C
def RESYNC_CTL_STATE_RESET : Fld := ⟨0, 1⟩
def RESYNC_CTL_CLEAN_S : Fld := ⟨8, 8⟩
def RESYNC_CTL_LIMIT_S : Fld := ⟨16, 8⟩
def APPLY_HASH (i : Nat) : Nat := 0x0D00128 + 0x4 * i
def APPLY_HASH_HASH : Fld := ⟨0, 32⟩
def PEER_SERIAL_LO : Nat := 0x0D00120
def PEER_SERIAL_LO_SERIAL_LO : Fld := ⟨0, 32⟩
def PEER_SERIAL_HI : Nat := 0x0D00124
def PEER_SERIAL_HI_SERIAL_HI : Fld := ⟨0, 32⟩
end TWIN

namespace FAB
def LANE_PRESENT : Nat := 0x0E00004
def LANE_PRESENT_FAB_LANE_PRESENT_LANES__offset_0x0000_0004_ : Fld := ⟨0, 8⟩
def CAUSE : Nat := 0x0E00100
def CAUSE_LANE_UP : Fld := ⟨0, 1⟩
def CAUSE_LANE_DOWN : Fld := ⟨1, 1⟩
def CAUSE_MEMBER_LOST : Fld := ⟨2, 1⟩
def CAUSE_MEMBER_JOINED : Fld := ⟨3, 1⟩
def CAUSE_STRANGER : Fld := ⟨4, 1⟩
def CAUSE_ROUTE_REBUILT : Fld := ⟨5, 1⟩
def CAUSE_FLOW_DOWN : Fld := ⟨6, 1⟩
def CAUSE_TIME_INVALID : Fld := ⟨7, 1⟩
def CAUSE_TIME_SKEW : Fld := ⟨8, 1⟩
def CAUSE_CELL_LOSS : Fld := ⟨9, 1⟩
def CAUSE_EN : Nat := 0x0E00104
def CAUSE_EN_EN : Fld := ⟨0, 10⟩
def STATUS : Nat := 0x0E00108
def STATUS_STATE : Fld := ⟨0, 3⟩
def STATUS_MY_ID : Fld := ⟨3, 6⟩
def STATUS_COORD : Fld := ⟨9, 6⟩
def STATUS_COUNT : Fld := ⟨15, 7⟩
def STATUS_TM_ID : Fld := ⟨22, 6⟩
def STATUS_TIME_VALID : Fld := ⟨28, 1⟩
def STATUS_TIME_SKEW : Fld := ⟨29, 1⟩
def STATUS_I_AM_TM : Fld := ⟨30, 1⟩
def CTL : Nat := 0x0E0010C
def CTL_EN : Fld := ⟨0, 1⟩
def CTL_EXPECT : Fld := ⟨1, 7⟩
def CTL_TM_ELIG : Fld := ⟨8, 1⟩
def CTL_FORM : Fld := ⟨9, 1⟩
def REJECT_DEV : Nat := 0x0E00110
def REJECT_DEV_DEV : Fld := ⟨0, 6⟩
def PLAN_HASH : Nat := 0x0E00114
def PLAN_HASH_HASH : Fld := ⟨0, 32⟩
def LANE_STATUS (i : Nat) : Nat := 0x0E00200 + 0x4 * i
def LANE_STATUS_UP : Fld := ⟨0, 1⟩
def LANE_STATUS_BLOCK_LOCK : Fld := ⟨1, 1⟩
def LANE_STATUS_NEIGH_ID : Fld := ⟨2, 6⟩
def LANE_STATUS_NEIGH_LANE : Fld := ⟨8, 3⟩
def LANE_STATUS_REFUSE : Fld := ⟨11, 2⟩
def LANE_STATUS_DELAY : Fld := ⟨13, 16⟩
def MEMBERS (i : Nat) : Nat := 0x0E00300 + 0x4 * i
def MEMBERS_BITS : Fld := ⟨0, 32⟩
def ROUTE (i : Nat) : Nat := 0x0E00400 + 0x4 * i
def ROUTE_LANE : Fld := ⟨0, 3⟩
def ROUTE_HOPS : Fld := ⟨3, 6⟩
def ROUTE_REACH : Fld := ⟨9, 1⟩
def FLOW_W1 (i : Nat) : Nat := 0x0E10004 + 0x10 * i
def FLOW_W1_TX_BASE : Fld := ⟨0, 10⟩
def FLOW_W1_RX_BASE : Fld := ⟨16, 10⟩
def FLOW_W2 (i : Nat) : Nat := 0x0E10008 + 0x10 * i
def FLOW_W2_L_F : Fld := ⟨0, 9⟩
def FLOW_W2_HOPS : Fld := ⟨9, 6⟩
def FLOW_W2_FIRST_LANE : Fld := ⟨15, 3⟩
def FLOW_W3 (i : Nat) : Nat := 0x0E1000C + 0x10 * i
def FLOW_W3_STATE : Fld := ⟨0, 2⟩
def FLOW_W0 (i : Nat) : Nat := 0x0E10000 + 0x10 * i
def FLOW_W0_EN : Fld := ⟨0, 1⟩
def FLOW_W0_SRC_DEV : Fld := ⟨1, 6⟩
def FLOW_W0_DST_DEV : Fld := ⟨7, 6⟩
def FLOW_W0_NCH : Fld := ⟨13, 9⟩
def FLOW_W0_RATE : Fld := ⟨22, 2⟩
def FLOW_W0_G : Fld := ⟨24, 5⟩
end FAB

namespace LOG
def LOG_CAUSE : Nat := 0x0F00100
def LOG_CAUSE_MEDIUM_FAULT : Fld := ⟨0, 1⟩
def LOG_CAUSE_RECOVERED : Fld := ⟨1, 1⟩
def LOG_CAUSE_GAP : Fld := ⟨2, 1⟩
def LOG_CAUSE_FALLBACK : Fld := ⟨3, 1⟩
def LOG_CAUSE_HOLD_FULL : Fld := ⟨4, 1⟩
def LOG_CAUSE_FULL_CRITICAL : Fld := ⟨5, 1⟩
def LOG_CAUSE_SNAP_LOST : Fld := ⟨6, 1⟩
def LOG_CAUSE_EN : Nat := 0x0F00104
def LOG_CAUSE_EN_EN : Fld := ⟨0, 7⟩
def LOG_STATUS : Nat := 0x0F00108
def LOG_STATUS_READY : Fld := ⟨0, 1⟩
def LOG_STATUS_FROZEN : Fld := ⟨1, 1⟩
def LOG_STATUS_DEGRADED : Fld := ⟨2, 1⟩
def LOG_STATUS_HOLD : Fld := ⟨3, 7⟩
def LOG_STATUS_FB_FIRST : Fld := ⟨10, 8⟩
def LOG_STATUS_FB_CIRC : Fld := ⟨18, 9⟩
def LOG_STATUS_SNAP_SPI : Fld := ⟨27, 1⟩
def LOG_STATUS_SNAP_PCIE : Fld := ⟨28, 1⟩
def LOG_CTL : Nat := 0x0F0010C
def LOG_CTL_MIN_SEV : Fld := ⟨0, 3⟩
def RD_SEQ : Nat := 0x0F00110
def RD_SEQ_RD_SEQ : Fld := ⟨0, 32⟩
def NEXT_SEQ : Nat := 0x0F00114
def NEXT_SEQ_NEXT_SEQ : Fld := ⟨0, 32⟩
def OPSEC : Nat := 0x0F00118
def OPSEC_OPSEC : Fld := ⟨0, 32⟩
def PCYC : Nat := 0x0F0011C
def PCYC_PCYC : Fld := ⟨0, 32⟩
end LOG

namespace STORE
def STORE_CAUSE : Nat := 0x1000100
def STORE_CAUSE_MEDIUM_FAULT : Fld := ⟨0, 1⟩
def STORE_CAUSE_RECOVERED : Fld := ⟨1, 1⟩
def STORE_CAUSE_RETIRED : Fld := ⟨2, 1⟩
def STORE_CAUSE_UNCORR : Fld := ⟨3, 1⟩
def STORE_CAUSE_XFER_DONE : Fld := ⟨4, 1⟩
def STORE_CAUSE_FORMATTED : Fld := ⟨5, 1⟩
def STORE_CAUSE_EN : Nat := 0x1000104
def STORE_CAUSE_EN_EN : Fld := ⟨0, 6⟩
def STORE_STATUS : Nat := 0x1000108
def STORE_STATUS_READY : Fld := ⟨0, 1⟩
def STORE_STATUS_MEDIUM_FAULT : Fld := ⟨1, 1⟩
def STORE_STATUS_GEOM_ERR : Fld := ⟨2, 1⟩
def STORE_STATUS_IFACE : Fld := ⟨3, 2⟩
def STORE_STATUS_TMODE : Fld := ⟨5, 3⟩
def STORE_STATUS_CE1 : Fld := ⟨8, 1⟩
def STORE_STATUS_SCRUB_BUSY : Fld := ⟨9, 1⟩
def STORE_GEOM : Nat := 0x100010C
def STORE_GEOM_PAGE : Fld := ⟨0, 1⟩
def STORE_GEOM_PPB : Fld := ⟨1, 1⟩
def STORE_GEOM_BLOCKS : Fld := ⟨2, 17⟩
def STORE_CTL : Nat := 0x1000110
def STORE_CTL_PATROL_DAYS : Fld := ⟨0, 8⟩
def XFER_CTL : Nat := 0x1000114
def XFER_CTL_PART : Fld := ⟨0, 3⟩
def XFER_CTL_OP : Fld := ⟨3, 1⟩
def XFER_CTL_GO : Fld := ⟨4, 1⟩
def XFER_CTL_BUSY : Fld := ⟨5, 1⟩
def XFER_CTL_STATUS : Fld := ⟨8, 4⟩
def XFER_OFF : Nat := 0x1000118
def XFER_OFF_OFF : Fld := ⟨0, 32⟩
def XFER_LEN : Nat := 0x100011C
def XFER_LEN_LEN : Fld := ⟨0, 17⟩
def KEYED : Nat := 0x1000120
def KEYED_PART : Fld := ⟨0, 3⟩
def KEYED_ERASE : Fld := ⟨3, 1⟩
def KEYED_FORMAT : Fld := ⟨4, 1⟩
def SPARE_FREE : Nat := 0x1000124
def SPARE_FREE_FREE : Fld := ⟨0, 18⟩
def PART (i : Nat) : Nat := 0x1000144 + 0x4 * i
def PART_BASE : Fld := ⟨0, 16⟩
def PART_SIZE : Fld := ⟨16, 16⟩
def XFER_BUF (i : Nat) : Nat := 0x1010000 + 0x4 * i
def XFER_BUF_DATA : Fld := ⟨0, 32⟩
end STORE

namespace PLACE
def STATUS : Nat := 0x1100010
def STATUS_STATE : Fld := ⟨0, 2⟩
def STATUS_REPLACING : Fld := ⟨2, 1⟩
def STATUS_SPARES_FREE : Fld := ⟨3, 3⟩
def STATUS_SPARES_TOTAL : Fld := ⟨6, 3⟩
def REJECT_CODE : Nat := 0x1100014
def REJECT_CODE_CODE : Fld := ⟨0, 11⟩
def REJECT_CODE_FLOW : Fld := ⟨16, 16⟩
def REJECT_RES : Nat := 0x1100018
def REJECT_RES_KIND : Fld := ⟨0, 8⟩
def REJECT_RES_INDEX : Fld := ⟨16, 16⟩
def REJECT_BOUND : Nat := 0x110001C
def REJECT_BOUND_BOUND : Fld := ⟨0, 32⟩
def REJECT_REQ : Nat := 0x1100020
def REJECT_REQ_REQ : Fld := ⟨0, 32⟩
def CONFIG_ID : Nat := 0x1100024
def CONFIG_ID_CONFIG_ID : Fld := ⟨0, 32⟩
def POLICY_ID : Nat := 0x1100028
def POLICY_ID_POLICY_ID : Fld := ⟨0, 32⟩
def BUILD_ID : Nat := 0x110002C
def BUILD_ID_BUILD_ID : Fld := ⟨0, 32⟩
def PLACE_HASH : Nat := 0x1100030
def PLACE_HASH_PLACE_HASH : Fld := ⟨0, 32⟩
def FLOW_SEL : Nat := 0x1100040
def FLOW_SEL_FLOW : Fld := ⟨0, 12⟩
def FLOW_BOUND : Nat := 0x1100044
def FLOW_BOUND_NS : Fld := ⟨0, 32⟩
def FLOW_INFO : Nat := 0x1100048
def FLOW_INFO_DEFINED : Fld := ⟨0, 1⟩
def FLOW_INFO_AFFECTED : Fld := ⟨1, 1⟩
def FLOW_INFO_HELD : Fld := ⟨2, 1⟩
def FLOW_INFO_KIND : Fld := ⟨8, 8⟩
def FLOW_INFO_INDEX : Fld := ⟨16, 16⟩
def NODE_SEL : Nat := 0x1100050
def NODE_SEL_NODE : Fld := ⟨0, 10⟩
def NODE_INFO : Nat := 0x1100054
def NODE_INFO_TILE : Fld := ⟨0, 5⟩
def NODE_INFO_UNIFIED : Fld := ⟨5, 1⟩
def NODE_INFO_DEFINED : Fld := ⟨6, 1⟩
def NODE_CH : Nat := 0x1100058
def NODE_CH_IN_BASE : Fld := ⟨0, 12⟩
def NODE_CH_OUT_BASE : Fld := ⟨16, 12⟩
def TILE_FAULT : Nat := 0x1100060
def TILE_FAULT_FAULT : Fld := ⟨0, 32⟩
def SPARE_MAP : Nat := 0x1100064
def SPARE_MAP_SPARE : Fld := ⟨0, 32⟩
def SPARE_USE : Nat := 0x1100068
def SPARE_USE_USE : Fld := ⟨0, 32⟩
def CAUSE : Nat := 0x110006C
def CAUSE_REJECTED : Fld := ⟨0, 1⟩
def CAUSE_REPLACED : Fld := ⟨1, 1⟩
def CAUSE_FLOW_SAFE : Fld := ⟨2, 1⟩
end PLACE

namespace SEC
def KEY_HASH (i : Nat) : Nat := 0x1200010 + 0x4 * i
def KEY_HASH_HASH : Fld := ⟨0, 32⟩
def STATUS : Nat := 0x1200030
def STATUS_KEY_PRESENT : Fld := ⟨0, 1⟩
def STATUS_SIGNED : Fld := ⟨1, 1⟩
def STATUS_ANCHORED : Fld := ⟨2, 1⟩
def CTL : Nat := 0x1200034
def CTL_JTAG_DIS : Fld := ⟨0, 1⟩
def CTL_WIN_PROG_RO : Fld := ⟨1, 1⟩
def CTL_REQUIRE_SIG : Fld := ⟨2, 1⟩
end SEC

end Sys2Proof.Machine
end

