-- ==== Sys2Proof/Machine/Tbl.lean ====
section
/-!
DEFINITION. Sparse tables as plain data: lists of (key, value) pairs with strictly rising keys, and the one
canonical form used for registers and memories (no entry equal to the default of its key).
-/
namespace Sys2Proof.Machine

/-- A sparse table: key and value pairs. -/
abbrev Tbl (α : Type) := List (Nat × α)

/-- The value listed for a key, if any. -/
def Tbl.find {α : Type} : Tbl α → Nat → Option α
  | [], _ => none
  | (a, v) :: r, k => if k = a then some v else Tbl.find r k

/-- The value listed for a key, or the default. -/
def Tbl.getD {α : Type} (t : Tbl α) (k : Nat) (d : α) : α := (Tbl.find t k).getD d

/-- List a value for a key, in rising key order, replacing an entry of the same key. -/
def Tbl.put {α : Type} : Tbl α → Nat → α → Tbl α
  | [], k, v => [(k, v)]
  | (a, b) :: r, k, v =>
    if k < a then (k, v) :: (a, b) :: r
    else if k = a then (k, v) :: r
    else (a, b) :: Tbl.put r k v

/-- Remove every entry of a key. -/
def Tbl.del {α : Type} (t : Tbl α) (k : Nat) : Tbl α := t.filter (fun e => decide (e.1 ≠ k))

/-- Give a key a value, keeping the form in which no entry equals its default. -/
def Tbl.set {α : Type} [DecidableEq α] (t : Tbl α) (d : α) (k : Nat) (v : α) : Tbl α :=
  if v = d then t.del k else t.put k v

/-- Strictly rising keys. -/
def Tbl.rising {α : Type} : Tbl α → Bool
  | [] => true
  | [_] => true
  | (a, _) :: (b, w) :: r => decide (a < b) && Tbl.rising ((b, w) :: r)

/-- The canonical form: rising keys, and no entry equal to what an unlisted key reads as. -/
def Tbl.canon {α : Type} [DecidableEq α] (d : Nat → α) (t : Tbl α) : Bool :=
  Tbl.rising t && t.all (fun e => decide (e.2 ≠ d e.1))

end Sys2Proof.Machine
end

