-- ==== Sys2Proof/Machine/State.lean ====
section
/-!
DEFINITION. The state of the device as plain data, the faults and refusals, and the state after reset.

Register fields of types RW, RWH, RWP, W1C and RC live in one sparse table of words (`State.regs`), keyed by address and
listing only words that differ from their reset value; what a status register (RO) shows of the state below is computed when it
is read. Times are elapsed times since VDD_AON was applied, in units of 2⁻¹⁶ ns, unless said otherwise.
-/
namespace Sys2Proof.Machine

/-! ### Identity, supply and modes (chapters 1, 2, 4, 17) -/

/-- The six modes of R32. -/
inductive Mode
  | sleep | boot | load | run | hold | safe
deriving DecidableEq, Repr

/-- The twin roles of R33. -/
inductive Role
  | solo | active | standby | isolated
deriving DecidableEq, Repr

/-- What the fuses, the bond option, the straps and the supplies give the device (R34, R45, R47, R425). -/
structure ChipS where
  fuses : Fuses
  straps : Straps
  iov : Nat           -- bank levels, bit b at 1 for 3.3 V (Table 2-15)
  pwrd : Nat          -- powered banks
  coreOn : Bool       -- VDD_CORE and the other supplies are up
  aonOn : Bool        -- VDD_AON is applied
  resetN : Bool       -- RESET_N is high
  brownout : Bool     -- a brown-out is in force
  brownStart : Bool   -- the next start follows a brown-out (R426)
  coreLost : Bool     -- VDD_AON was lost, so the counters are to be restored at power-up (R416)
deriving DecidableEq, Repr

/-- PWR state that is not a register field of its own (R419 to R422, R437). -/
structure PwrS where
  on : Nat            -- DOM_STATUS.ON
  placed : Nat        -- domains the placement in force uses
  forcedOff : Nat     -- domains forced off while in use that have not returned (R419)
  pcieUp : Bool       -- PCIE_PERST_N is high and PD10 is in use
  linkTrained : Bool  -- the PCIe link is up
  wakeLatch : Nat     -- wake sources latched (bit c − 1 for source c of Table 17-3)
  waking : Bool       -- the wake has started, domains are coming up
  wakeAt : Nat        -- elapsed time at which it started
  hotSleep : Bool     -- the last SLEEP was entered for over-temperature (R437)
  hotIgnore : Bool    -- the temperature wake source is ignored until RESET_N rises (R437)
  wakeInPin : Bool    -- level that WAKE_IN last held for 10 µs
  tj : Option Int     -- TJ as last measured, in units of 0.25 °C
deriving DecidableEq, Repr

/-! ### Host paths (chapter 3) -/

/-- One access of a host path (R56, R60). -/
structure Access where
  write : Bool
  win : Bool          -- memory window instead of register space
  addr : Nat
  be : Nat            -- byte enables, one bit a byte
  data : Nat          -- the bytes written, the lowest address least significant
  len : Nat           -- bytes it spans: 4 but for a BAR2 request
  since : Nat         -- when it started
deriving DecidableEq, Repr

/-- One access as it completed: status code of Table 3-5 and read data. -/
structure AccResult where
  status : Nat
  data : Nat
deriving DecidableEq, Repr

/-- The SPI target (R59 to R63). -/
structure SpiS where
  csLow : Bool
  opcode : Nat
  addr : Nat            -- address of the next word
  refused : Bool        -- the transaction was refused as a whole, or its opcode is unknown
  wait : List Access    -- accesses started and not yet complete
  lastStatus : Nat      -- READ_STATUS bits [7:0]
  firstBad : Nat        -- READ_STATUS bits [15:8]
  words : Nat           -- READ_STATUS bits [31:16]
  out : List AccResult  -- words clocked out on SPI_SDO in the open transaction, oldest first
deriving DecidableEq, Repr

/-- A request taken by the device over PCIe and not yet complete: of BAR0 (R56, R57), or of BAR2 (R54, R439), whose read returns `bytes`
bytes. -/
structure PcieReq where
  write : Bool
  bytes : Nat         -- bytes a BAR2 read returns; 0 for a request of BAR0
  left : List Access
  done : List AccResult
deriving DecidableEq, Repr

/-- A completion returned on PCIe: status code and data words. -/
structure PcieCpl where
  status : Nat
  data : List Nat
deriving DecidableEq, Repr

/-- A mailbox context (R75, R76). -/
structure Mbx where
  sel : Nat
  tag : Nat
  valid : Bool
  busy : Bool
  err : Bool
  errcode : Nat
  ansTag : Nat               -- TAG of the request answered
  words : Nat
  data : List Nat
  snap : Option (List Nat)   -- the captured reply, on its way back
  reqAt : Nat                -- when the request was written
deriving DecidableEq, Repr

/-- State of one host path. -/
structure PathS where
  armedTill : Option Nat     -- the path's unlock arm and when it lapses (R71)
  arg0 : Nat                 -- SYS.CMD_ARG0 of this path (R91)
  arg1 : Nat
  rdSeq : Nat                -- LOG.RD_SEQ of this path (R413)
  last : AccResult           -- the last access of the path, as it completed
  mbx : Tbl Mbx              -- mailbox contexts by block position
deriving DecidableEq, Repr

/-- A register whose parity has failed (R72): its stored address, the word it holds as a host reads it, and its corrupt bytes. The word that
the block applied last stays in the register file. A register that each host path has for itself is held once for each path. -/
structure Corrupt where
  addr : Nat
  own : Option Path          -- the path whose copy of the register it is; none for a register held once
  stored : Nat
  bad : Nat                  -- bytes whose parity does not match
  seen : Bool                -- found by a check
deriving DecidableEq, Repr

/-- The host access paths and the register fabric. -/
structure HostS where
  spi : SpiS
  spiP : PathS
  pcieP : PathS
  queue : List PcieReq       -- requests of both BARs in arrival order
  cpls : List PcieCpl        -- completions returned, oldest first
  attn : Bool                -- attention stands (R25)
  attnSeen : Bool            -- ATTN_SUMMARY.ATTN: raised since the last read
  corrupt : List Corrupt
  polHold : Nat              -- blocks under HOLD_LAST
  polMute : Nat              -- blocks under MUTE
deriving DecidableEq, Repr

/-! ### The command sequencer (chapter 4) -/

/-- A command as queued: its opcode word and arguments, with where its completion goes. -/
structure Cmd where
  op : Nat
  tag : Nat
  nodefer : Bool
  src : CmdSrc
  arg0 : Nat
  arg1 : Nat
  order : Nat                -- arrival order
deriving DecidableEq, Repr

/-- A command that has started and not completed: its target epoch in milliseconds of the STC, if it has one. -/
structure Started where
  cmd : Cmd
  epoch : Option Nat
deriving DecidableEq, Repr

/-- A completion (Table 4-12). -/
structure Cpl where
  op : Nat
  tag : Nat
  status : Nat
  src : CmdSrc
  detail : Nat
deriving DecidableEq, Repr

/-- What the mode makes of the outputs (R81, R82): muted, live, or as the parity policy of each block says. -/
inductive OutsAs
  | muted | live | byPolicy
deriving DecidableEq, Repr

/-- What the outputs were until an STC instant, by the mode (R81) and by the groups that MUTE mutes (Table 4-10). -/
structure OutEra where
  till : Nat
  outs : OutsAs
  groups : Nat
deriving DecidableEq, Repr

/-- What a load is for, and where it began (R83, R84). -/
structure LoadS where
  src : Nat                  -- CFG_SRC coding of the source being loaded
  len : Nat                  -- bytes held
  auto : Bool                -- automatic boot
  begun : Mode               -- the mode the load began in
  prevSrc : Nat              -- CFG_SRC of the bitstream running before the load
  cmd : Option Cmd           -- the LOAD or APPLY in progress
  freeAt : Nat               -- number of the first of the free values that stand for bytes not written since the LOAD (R442)
  wrote : List (Nat × Nat)   -- media-store ranges that the host has written since the LOAD
  order : List Nat           -- sources of automatic boot that follow this one
deriving DecidableEq, Repr

/-- A journal image or checkpoint as stored (R404): retained register values and the trailer of Table 16-4. -/
structure Image where
  kind : Nat                 -- 1 journal image, 2 checkpoint
  seq : Nat
  configId : Nat
  policyId : Nat
  opsec : Nat
  body : Tbl Word            -- retained values that differ from their printed values
  crc : Nat
  page : Nat                 -- first page in the STATE partition
  good : Bool                -- the image reads with its CRC-32 correct
  trailer : Bool             -- its trailer reads, with correct MAGIC and KIND
deriving DecidableEq, Repr

/-- A deferred image write (R103, R405). -/
structure ImgJob where
  image : Image
  cmd : Option Cmd           -- the SNAPSHOT it belongs to
deriving DecidableEq, Repr

/-- Sequencer and start-up state. -/
structure CmdS where
  mode : Mode
  prev : Nat                 -- MODE.PREV
  flowScoped : Bool          -- SAFE_SCOPE
  safeCause : Nat            -- SAFE_CAUSE [5:0]
  queue : List Cmd
  deferred : List Cmd
  started : List Started
  heldAborts : List Cmd
  done : List Cpl            -- SYS.CMD_DONE, oldest first
  nextOrder : Nat
  loading : Option LoadS
  applying : Bool            -- the sequencer is held by a LOAD or APPLY
  restarting : Bool          -- the control cores restart after a lockstep mismatch
  mismatchAt : Option Nat    -- time of the last lockstep mismatch
  restartAt : Option Nat     -- time of the last restart
  startWait : Option Nat     -- START or AUTOSTART waits for lock since
  autoStart : Bool           -- AUTOSTART acts after this start-up
  stateSrc : Nat
  cfgSrc : Nat
  cfgFail : Nat              -- CFG_A_FAIL, CFG_B_FAIL, GOLDEN_FAIL in bits 0 to 2
  wakeBoot : Bool
  wakeSrc : Nat
  wakeSeen : Nat
  waitLoad : Bool            -- BOOT waits for LOAD from a host
  lastMs : Nat
  swaps : Nat
  copying : Bool
  copySkip : List Nat        -- shadow entries written by software since the swap
  dirty : Bool               -- the mode has changed and the sequencer has not judged its commands again yet (R94, R441)
  parityDev : Bool           -- PARITY stands for more than active table entries (R82)
  outs : List OutEra         -- what the outputs were before, newest first
  safeLive : Bool            -- the outputs were live when SAFE was entered
  modeStc : Nat              -- STC of the last mode change
  groups : Nat               -- output groups muted by MUTE (Table 4-10)
  groupsStc : Nat            -- STC at which they last changed
  imgJob : Option ImgJob     -- image being written
  imgWait : Option ImgJob    -- image waiting
  resetting : List Nat       -- blocks a RESET_BLOCK holds until its epoch
  sleepDone : List Cpl       -- completions held in SLEEP (R88)
  sleepLost : Bool
  sleeping : Bool            -- SLEEP entry waits for its epoch or its journal image
  sleepSrc : Option Nat      -- source to be stored at step 4 of SLEEP entry, where it is not the running one (R437)
  sleepQuiet : Bool          -- step 1 of SLEEP entry has muted the outputs (R89)
deriving DecidableEq, Repr

/-- Copies held by the always-on island; invalid after a loss of VDD_AON. -/
structure AonS where
  prefCfg : Option Nat
  journal : Option (Nat × Nat)   -- COMMIT_SEQ and CRC of the newest image
  bootSrc : Nat                  -- source stored at SLEEP entry, 0 none
  resumeRun : Bool
  wakeEn : Nat
  tempCtl : Nat
  station : Nat
  wakeRegs : Tbl Word            -- copy of port M's wake patterns
deriving DecidableEq, Repr

/-! ### Event recorder and NAND (chapter 16) -/

/-- An event on its way to the recorder: its island and content. -/
structure Ev where
  isl : Island
  code : Nat
  sev : Nat
  inst : Nat
  p : List Nat
deriving DecidableEq, Repr

/-- A numbered record (Table 16-5). -/
structure Rec where
  seq : Nat
  opsec : Nat
  pcyc : Nat
  code : Nat
  sev : Nat
  inst : Nat
  fb : Bool
  copied : Bool
  p : List Nat
  page : Nat                 -- page of LOG it was programmed in, plus 1; 0 while it is not programmed
deriving DecidableEq, Repr

/-- An open snapshot of the log on one path (R414). -/
structure Snap where
  main : List Rec
  fb : List Rec
  snapSeq : Nat
  lastRead : Nat
  victims : Nat
deriving DecidableEq, Repr

/-- The event recorder. -/
structure RecS where
  nextSeq : Nat
  opsec : Nat
  pcyc : Nat
  evq : List Ev              -- records crossing into the always-on island, in production order
  hold : List Rec
  holdRun : Bool             -- the hold queue has overflowed and not emptied since
  wbuf : List Rec            -- main-log records not yet programmed
  wbufSince : Option Nat
  main : List Rec            -- programmed main-log records, oldest first
  logPage : Nat              -- page of LOG that is programmed next
  fbFirst : List Rec
  fbCirc : List Rec
  pend : List Nat            -- sequence numbers of pending records (R412)
  frozen : Bool
  degraded : Bool
  noVictim : Bool            -- LOG_NO_VICTIM recorded since a victim last existed
  snapSpi : Option Snap
  snapPcie : Option Snap
deriving DecidableEq, Repr

/-- What the 8 metadata bytes of a programmed page hold, but for the partition code, which its key gives (R395). -/
structure PageM where
  kind : Nat                 -- 1 container, 2 journal image, 3 checkpoint, 4 log, 5 header
  blk : Nat                  -- logical block within the partition
  wseq : Nat                 -- write sequence
deriving DecidableEq, Repr

/-- The NAND device and its manager. -/
structure NandS where
  present : Bool             -- the start-up sequence of R393 has ended
  ready : Bool               -- the medium is in use
  fault : Bool               -- the medium counts as failed
  geomErr : Bool
  failAt : Option Nat        -- when it failed, or the last retry ended
  retrying : Bool
  pageSize : Nat
  ppb : Nat
  blocks : Nat
  gbit : Nat
  iface : Nat
  tmode : Nat
  ce1 : Bool
  cells : List Host.Cell     -- programmed bytes of containers and log pages by partition address; unlisted bytes read 0xFF
  pages : Tbl PageM          -- programmed pages by partition × 2^20 + page
  progs : Nat                -- pages programmed so far: the next write sequence
  bad : List Nat             -- sectors that read uncorrectable: page key × 4 + sector
  marked : List Nat          -- physical blocks with a factory bad-block marker (R394)
  retired : List Nat         -- the bad-block table: physical blocks (R397)
  map : Tbl Nat              -- physical block of each logical block (partition × 2^20 + block) that has been moved
  gone : List Nat            -- logical blocks that have lost their place for want of a free block in SPARE
  wear : Tbl Nat             -- erase count of each physical block
  fresh : List Nat           -- logical blocks rewritten under R396 and not read since
  endurance : Nat
  patrol : Nat               -- position of the patrol in `pages`
  images : List Image        -- journal images, newest first
  jPage : Nat                -- page at which the next journal image starts
  slot0 : Option Image       -- checkpoint slots
  slot1 : Option Image
  lastSlot : Bool            -- slot 1 was written last
  xfer : Option (Nat × Nat × Nat × Nat) -- transfer in progress: part, op, offset, length
  xferBusy : Bool
  xferStatus : Nat
  scrub : Option Nat         -- partitions a SCRUB still reads (bit set), with its start in `started`
  ctr : Tbl Nat              -- counters of the STORE mailbox, by position 0 to 7
deriving DecidableEq, Repr

/-! ### Samples, Ethernet ports and streams (chapters 1, 6, 7, 8) -/

/-- Where a frame on a transmit queue came from (R142, R149). -/
inductive TxSrc
  | stream (sid k : Nat)
  | control
  | event (inst kind seq : Nat) (follow : List Byte)  -- a PTP event message, and the general message that carries its timestamp
  | ring (r first n gen : Nat) (offload stamp : Bool)
deriving DecidableEq, Repr

/-- A frame on a transmit queue, from the destination address up to but not including the FCS. -/
structure TxFrame where
  src : TxSrc
  bytes : List Byte
  staged : Nat               -- bytes of it in the staging buffer (R147)
  due : Bool
deriving DecidableEq, Repr

/-- A transmit timestamp (Table 6-13). -/
structure TxStamp where
  stc : Nat
  desc : Nat
  ring : Nat
deriving DecidableEq, Repr

/-- A frame as it left the port, FCS included. -/
structure Sent where
  bytes : List Byte
  stc : Nat
deriving DecidableEq, Repr

/-- One Ethernet MAC. Registers live in the register file. -/
structure MacS where
  queues : Tbl (List TxFrame)     -- by queue 0 to 7, oldest first
  cur : Option TxFrame            -- the frame on the line
  curQ : Nat
  curAt : Nat                     -- 25 × the elapsed time at which it started
  curLost : Bool                  -- its timestamp was discarded
  lineFree : Nat                  -- 25 × the elapsed time at which the line is free
  pauses : Tbl (Nat × Nat)        -- per queue, 25 × the elapsed times at which its pause begins and ends
  pausedTo : Nat                  -- 25 × the elapsed time up to which TX_PAUSED_NS counts, and what it counts short of a nanosecond
  pausedRem : Nat
  gate : Nat                      -- entry of the gate list in force at the last boundary
  fifo : List TxStamp
  ctr : Tbl Nat                   -- counters by selector (Table 6-14)
  sent : List Sent                -- frames sent, newest first
  loop : List (List Byte)         -- frames looped back inside the PCS, oldest first (LPBK)
  mdioBusy : Bool
  mdioRead : Bool                 -- the MDIO frame in progress reads
  mdioSent : List Word            -- MDIO_CMD words whose frames were sent, newest first
deriving DecidableEq, Repr

/-- Transmit stream engine. -/
structure StxS where
  next : Tbl Nat                  -- first packet index whose interval has not been taken yet, by entry
  lastK : Tbl Nat                 -- last packet index sent, plus 1, by entry
  clearK : Tbl Nat                -- first packet index after a kill was cleared, by entry
  ctr : Tbl Nat                   -- by selector × 4 + position
deriving DecidableEq, Repr

/-- Receive state of one RXS entry (R187, R189). -/
structure RxsS where
  locked : Bool
  hseq : Nat
  map : Tbl Nat                   -- arrival map: bit 0 for A, bit 1 for B, by sequence number
  run : Nat                       -- consecutive frames failing step 5 in sequence
  runSeq : Nat
  relocks : Nat
  lastOk : Nat                    -- elapsed time at which a frame last passed step 5
  aLive : Bool
  bLive : Bool
  buf : Tbl Smp                   -- receive buffer by position × 256 + channel
  tick : Nat                      -- one more than the last read-out tick (sample index + LINK_OFF)
deriving DecidableEq, Repr

/-- A token bucket (R192): tokens held and the index of the last instant at which it gained one. -/
structure Bucket where
  tok : Nat
  idx : Nat
deriving DecidableEq, Repr

/-- A frame held in ingress buffers for a receive ring. -/
structure RingFrame where
  port : Nat
  bytes : List Byte
  stamp : Nat
  oversize : Bool
  mgmt : Bool
  rsv : Nat                       -- reserved buffers it holds
  shared : Nat
  ring : Nat
  rule : Nat                      -- management rule that sent it
deriving DecidableEq, Repr

/-- A frame handed to the PTP engine or the control cores, with its receive timestamp. -/
structure CtrlFrame where
  port : Nat
  bytes : List Byte
  stamp : Nat
deriving DecidableEq, Repr

/-- Receive stream engine and classifiers. -/
structure SrxS where
  rxs : Tbl RxsS
  pol : Tbl Bucket                -- stream policers by entry × 2 + port
  mgmtPol : Tbl Bucket            -- by port
  unmPol : Tbl Bucket
  ctr : Tbl Nat                   -- by selector × 4 + position
  rings : List RingFrame          -- frames waiting for a receive ring, oldest first
  ctrl : List CtrlFrame           -- frames delivered to the control cores, newest first
  ptp : List CtrlFrame            -- frames delivered to the PTP engine, newest first
deriving DecidableEq, Repr

/-- The sample path: values of the sources over time, newest first (STC instant, sample). -/
structure PathwayS where
  src : Tbl (List (Nat × Smp))
  stamps : Tbl (List (Nat × Nat))  -- by port source: the timestamp of the block that is delivered from an STC instant on (R251), newest first
deriving DecidableEq, Repr

/-! ### Placement (chapter 5) -/

/-- A tile as placed or as re-placed: its memory mode. -/
inductive MemMode
  | split | unified
deriving DecidableEq, Repr

/-- A placed node (Table 5-10). -/
structure NodeP where
  id : Nat
  kernel : Nat
  nin : Nat
  nout : Nat
  cycles : Nat
  block : Nat
  rate : Nat
  unifiedOnly : Bool
  xmem : Nat
  ymem : Nat
  pmem : Nat
  shared : Nat
  params : List Byte
  group : Nat
  inBase : Nat
  outBase : Nat
  tile : Nat
  sharedOff : Nat
deriving DecidableEq, Repr

/-- A placed flow (Table 5-11), with its proven bound and its largest term. -/
structure FlowP where
  id : Nat
  srcKind : Nat
  dstKind : Nat
  srcIdx : Nat
  dstIdx : Nat
  srcNum : Nat                    -- routing numbers of the first channels (Table 1-5)
  dstNum : Nat
  srcCh : Nat
  dstCh : Nat
  nch : Nat
  prio : Nat
  routeSet : Bool
  holdOnFault : Bool
  boundNs : Nat
  upstream : Option Nat
  bound : Nat                     -- proven bound in ns, rounded up
  rest : Nat × Nat                -- the exact bound without the fabric hop terms, as a fraction (R386)
  kind : Nat
  index : Nat
  affected : Bool                 -- R132 applies
deriving DecidableEq, Repr

/-- A defined stream and what placement gave it. -/
structure StreamP where
  sid : Nat
  tx : Bool
  ports : Nat
  image : List Word               -- the 16 words of the entry, placement fields included
  rows : List (Nat × List Word)   -- its IPv6 rows: row and 8 words
deriving DecidableEq, Repr

/-- A placed buffer: region of Table 1-8, byte offset and length. -/
structure BufP where
  region : Nat
  off : Nat
  len : Nat
deriving DecidableEq, Repr

/-- A user program of the KERNELS section (R114). -/
structure ProgP where
  prog : Nat
  modes : Nat
  p : List Byte
  x : List Byte
  y : List Byte
deriving DecidableEq, Repr

/-- A register image record of CLOCKS or PORTS (Table 5-4). -/
structure ImgRec where
  addr : Nat
  vals : List Word
deriving DecidableEq, Repr

/-- A POLICY record (R116). -/
structure PolRec where
  addr : Nat
  carry : Nat
  count : Nat
  mask : Word
deriving DecidableEq, Repr

/-- A defined audio block ring (R321): its direction, channels, rate code and first routing number. -/
structure RingP where
  ring : Nat
  extract : Bool
  nch : Nat
  rate : Nat
  base : Nat
deriving DecidableEq, Repr

/-- The placement in force, with what it was made from. -/
structure Placed where
  configId : Nat
  policyId : Nat
  buildId : Nat
  fwVersion : Nat
  signed : Bool
  anchored : Bool
  parityLo : Nat
  parityHi : Nat
  loadLimit : Nat
  family : Nat                    -- 0: 48 kHz, 1: 44.1 kHz
  maxSpread : Nat
  spares : List Nat
  nodes : List NodeP
  flows : List FlowP
  streams : List StreamP
  bufs : List BufP
  caps : Tbl Nat                  -- CH_CAP of the sides that have a block buffer
  progs : List ProgP
  rings : List RingP
  images : List ImgRec
  policy : List PolRec
  tileMode : Tbl MemMode          -- tiles that hold nodes
  hashTail : List Nat             -- the words of R119 that follow the node words
  hash : Nat
deriving DecidableEq, Repr

/-- A flow that a tile fault zeroes or holds (R130, R132): the connection it describes, and from when to when. -/
structure DeadF where
  srcNum : Nat
  dstNum : Nat
  n : Nat
  hold : Bool
  held : List Smp                 -- the last valid sample of each of its channels before the fault
  since : Nat
  till : Option Nat
  tile : Nat
deriving DecidableEq, Repr

/-- The placement engine. -/
structure PlaceS where
  st : Nat                        -- STATUS.STATE
  now : Option Placed
  rejCode : Nat
  rejFlow : Nat
  rejKind : Nat
  rejIndex : Nat
  rejBound : Nat
  rejReq : Nat
  replacing : Option (Nat × Nat × Nat)  -- faulted tile, spare being loaded, since
  waiting : List Nat              -- faulted tiles waiting for a re-placement
  freeSpares : List Nat
  used : List (Nat × Nat)         -- spare in use and the tile it replaces
  safeTiles : List Nat            -- tiles whose fault found no spare (R132)
  dead : List DeadF               -- flows that tile faults stop
deriving DecidableEq, Repr

/-! ### Media time and clocks (chapters 9, 10) -/

/-- Slot states of Table 9-11. -/
inductive SlotSt
  | off | lost | disqualified | wait | qualified | judgedOut | new
deriving DecidableEq, Repr

/-- One reference slot (R207, R208). -/
structure SlotS where
  st : SlotSt
  since : Nat             -- elapsed time at which it entered its state
  ffo : Option Int        -- latest FFO in units of 10⁻¹²
  beyond : Nat            -- consecutive FFO values beyond HARD
  waitFrom : Nat          -- when the wait-to-restore timer last started
  far : Bool
  edges : Nat             -- periods in a row that count towards the end of a loss, and when the first began
  runFrom : Nat
  lastEdge : Option Nat   -- elapsed time of the last edge
  agree : Nat             -- seconds of agreement with the slot in use, while JUDGED_OUT
  lostTo : Nat            -- while JUDGED_OUT: the slot it lost to
  dis : Nat               -- consecutive FFO values in disagreement with the slot in use
deriving DecidableEq, Repr

/-- States of CLK_STATE (R212). -/
inductive ClkSt
  | freerun | acquiring | locked | holdover
deriving DecidableEq, Repr

/-- One time lane (R218). Estimates in units of 2⁻⁸ ns. -/
structure LaneS where
  inV : Bool              -- voted in
  est : Int
  far : Nat               -- consecutive evaluations away from both others
  nearFrom : Option Nat   -- within VOTE_NS of both others since
  rejoined : Nat          -- when it last rejoined
deriving DecidableEq, Repr

/-- A frame-pulse generator (R220): its alignment instant as an STC value, and an alignment request. -/
structure FpgS where
  t0 : Option Nat
  alignAt : Option Nat    -- STC of the ALIGN write
  pulses : Nat            -- pulses produced
  last : Option Nat       -- STC of the last pulse
  edge : Option Nat       -- STC of the last source edge
deriving DecidableEq, Repr

/-- Port states of a PTP instance, with the codes IEEE 1588-2019 gives them (R204). -/
inductive PtpSt
  | disabled0 | initializing | faulty | disabled | listening | preMaster | master | passive | uncalibrated | slave
deriving DecidableEq, Repr

/-- A PTP instance (R202 to R205). -/
structure PtpS where
  st : PtpSt
  best : Option PtpAnnounce   -- the best qualified announce dataset
  foreign : List (PtpAnnounce × Nat)  -- Announce messages of the foreign-master window with their arrival, newest first
  preAt : Nat                 -- when the state last became PRE_MASTER
  offset : Int                -- offsetFromMaster in 2⁻¹⁶ ns
  delay : Int                 -- meanDelay in 2⁻¹⁶ ns
  syncT1 : Option Int         -- origin time of the last Sync (with its Follow_Up when two-step)
  syncT2 : Int                -- its receive timestamp
  syncSeq : Nat
  waitFollow : Bool
  dreqT3 : Option Int         -- transmit timestamp of the last Delay_Req or Pdelay_Req
  dreqSeq : Nat
  lastSync : Option Nat       -- when a Sync was last accepted
  syncFrom : Nat              -- consecutive sync intervals with a Sync: when the first began, and how many
  syncRun : Nat
  cSync : Nat
  cAnn : Nat
  cReq : Nat
  cDrop : Nat
  reqSec : Nat                -- the second in which requests are being counted, and how many
  reqN : Nat
  seqOut : Nat
deriving DecidableEq, Repr

/-- The time island. -/
structure TimeS where
  on : Bool                   -- PD2 is up or the always-on island keeps the STC
  stc : Nat                   -- the STC in units of 2⁻⁵⁶ ns
  jump : Int                  -- the sum of its steps at once, in the same units
  y : Int                     -- frequency correction in units of 2⁻⁴⁰
  yBase : Int                 -- the reference correction as it stood when the last slot came into use
  slope : Nat                 -- SLOPE in force (R216)
  off : Int                   -- OFF in units of 2⁻⁸ ns
  pull : Option (Int × Nat)   -- phase to pull in 2⁻⁸ ns, and when the pull began
  step : Option Int           -- Δ of a slot to apply at once, in 2⁻⁸ ns
  steps : List Int            -- STEP_PHASE steps to apply at once with it, oldest first
  learned : Int               -- learned offset of OSC_M, 10⁻¹⁸
  learnAge : Nat
  hist : List (Nat × Int × Bool)  -- y and SLEWING, with the elapsed time from which they held, newest first
  hoFreq : Int                -- holdover frequency last computed, 2⁻⁴⁰
  st : ClkSt
  slots : Tbl SlotS
  inUse : Option Nat
  again : Option Nat          -- the slot to be acquired again after the lanes split
  named : Nat
  fresh : Bool
  selQ : List (Nat × Option Cmd)  -- SELECT_REF commands waiting for the next evaluation
  lockFrom : Option Nat       -- phase error within 1,000 ns since
  lanes : List LaneS
  followed : Int
  splitRun : Nat
  edges : Tbl Nat             -- STC of the last edge of 1PPS_IN, WCLK_IN0, WCLK_IN1, SYNC_IN
  fpg : Tbl FpgS
  ptp : Tbl PtpS
  epoch : Nat                 -- number of the last commit epoch taken (whole milliseconds)
deriving DecidableEq, Repr

/-- A media synthesiser (R223 to R227). -/
structure MsyS where
  fam : Nat                   -- values in effect
  post : Nat
  mult : Nat
  run : Bool
  lock : Bool
  relock : Bool               -- relocking after a write or at start
  held : Bool                 -- VCO held after a loss of lock
  origin : Nat                -- phase origin in whole STC seconds
  dither : Nat                -- the seed last loaded, and when
  ditherFrom : Nat
  y : Int                     -- the correction last passed to it
  rate : Option (Int × Nat)   -- while it does not follow: its offset from nominal in 2⁻⁴⁰, and the elapsed time since which it has it
  off : Int                   -- its own time less the media time, or as it stood then, in 2⁻⁵⁶ ns
  good : Nat                  -- comparisons in a row within 1 ns, and beyond 5 ns
  bad : Nat
deriving DecidableEq, Repr

/-- A spread setting: enabled, centre, depth. -/
structure Spread where
  en : Bool
  centre : Bool
  depth : Nat
deriving DecidableEq, Repr

/-- What an output carries (R236). Instants are in its source's own time: τ of a synthesiser or of OSC_M, the media time for pulses. -/
inductive Wave
  | clock (src : Nat) (rise : Int) (div : Nat) (fresh : Bool)  -- its first rising edge; `fresh` where the pin idles before it
  | pulse (k width : Nat) (delay from_ : Int) (rises : List Int)  -- rising edges not over yet, and none before from_; newest first
  | unknown (src : Nat)       -- its synthesiser relocks: no rule gives its edges
deriving DecidableEq, Repr

/-- A clock output (R236 to R241): what it carries, when that ends, and what then follows. -/
structure ClkOutS where
  cur : Option Wave
  stop : Option Int           -- in the time of cur's source
  next : Option Wave
  wait : Bool                 -- a change waits for the next falling edge of a pulse
  placed : Option Int         -- the rising edge that SYNC_IN placed, in the time of the output's source
  rephased : Nat              -- re-phases so far
deriving DecidableEq, Repr

/-- The synthesisers and clock outputs. -/
structure ClkS where
  msy : Tbl MsyS
  ssyLock : Bool
  ssyGood : Nat               -- comparisons in a row within 1 ns, and beyond 5 ns
  ssyBad : Nat
  spread : Spread
  spreadPend : Option Spread
  spreadFrom : Nat            -- elapsed time at which the present modulation period began
  maxSpread : Nat
  outs : Tbl ClkOutS
deriving DecidableEq, Repr

/-! ### Audio ports (chapter 11) -/

/-- States of a side (Table 11-6). -/
inductive SideSt
  | off | cfgErr | wait | locking | anchoring | run | restart
deriving DecidableEq, Repr

/-- One port side. -/
structure SideS where
  st : SideSt
  rateDet : Nat            -- RATE_DET
  took : Option Nat        -- the rate code taken by a relock at a changed rate (R262)
  locked : Bool            -- AES3 and MADI inputs
  maskAct : Nat
  maskOld : Option (Nat × Word)  -- when MASK was last written, and what it held before that instant (R249)
  actCh : Nat
  level : Int              -- 2⁻¹² frame
  corr : Int               -- correction of a VCXO side, 0.01 ppm
  blockAt : Nat            -- STC timestamp of the present block (R251), its elapsed time, and its first sample
  blockFrom : Nat
  blockN : Nat
  blocks : Nat             -- block starts since RUN
  cut : Option Nat         -- the side has left RUN in this frame of a receive block whose end is still to come (R260)
  holdTo : Nat             -- a master side restarts at this STC instant (R264)
  out : List (List Smp)    -- transmit frames of the present block, as driven
deriving DecidableEq, Repr

/-- An output channel's gain (R257): the value in effect and a pending target. -/
structure GainS where
  eff : Nat                -- effective gain in 2⁻¹⁴
  target : Option Nat
  since : Nat              -- when the change first became pending
  prevNeg : Bool           -- sign of the last sample
  started : Bool           -- a sample has been seen
deriving DecidableEq, Repr

/-- The audio-port cluster. -/
structure AportS where
  sides : Tbl SideS
  dco : Tbl Int            -- correction of a port's DCO by port, 0.01 ppm (R247)
  gains : Tbl GainS
  csIn : Tbl (List Byte)   -- captured channel-status block of an AES3 input
  csValid : Nat
  csDiff : Nat
  csConsumer : Nat
deriving DecidableEq, Repr

/-! ### Host rings (chapter 13) -/

/-- An item a ring has in progress. -/
structure RingItem where
  idx : Nat                -- slot index
  k : Nat                  -- block index
  desc : List Nat          -- the descriptor's words, once it has been read
deriving DecidableEq, Repr

/-- One ring's state beside its registers. -/
structure RingS where
  gen : Nat                -- times the ring has been enabled
  items : List RingItem    -- items with reads outstanding
  lastK : Nat              -- one more than the last block index taken
  cnt : Nat                -- completions counted for MSI-X
  cntFrom : Nat            -- time of the first of them
  stamps : List (Option Nat)  -- the port timestamp that came with each channel of the last block (R251)
deriving DecidableEq, Repr

/-- The PCIe function and its rings. Host memory as far as the device has written it. -/
structure DmaS where
  rings : Tbl RingS
  ctr : Tbl Nat            -- by ring × 4 + position
  bme : Bool
  d3 : Bool
  linkUp : Bool
  width : Nat
  speed : Nat
  extTag : Bool
  hostMem : List Host.Cell -- bytes the device wrote to host memory
  msix : List Nat          -- vectors sent, newest first
  pend : Nat               -- pending bits
  msixEn : Bool            -- MSI-X enabled in configuration space
  fmask : Bool             -- function mask
  cmdLast : Nat            -- the command ring that was last fetched from
  txLast : Tbl Nat         -- by port: the frame transmit ring that last sent it a frame
deriving DecidableEq, Repr

/-! ### DSP tiles (chapter 12) -/

/-- A register write under way: it is seen from the bundle numbered `at_` on (Table 12-7). `issued` orders writes of one cycle (R298). -/
structure PWrite where
  at_ : Nat
  issued : Nat
  code : Nat
  value : Nat
  pc : Nat                      -- address of the bundle that issued it
deriving DecidableEq, Repr

/-- The register context of a node (Table 12-1), saved and restored whole by the dispatcher (R278). -/
structure Ctx where
  pc : Nat
  n : Nat                       -- bundles issued in this invocation
  d : List Nat                  -- D0–D15
  p : List Nat                  -- P0–P7
  m : List Nat                  -- M0–M7
  l : List Nat                  -- L0–L7
  a : List Int                  -- A0–A7 (72 bits, signed)
  ax : List Int                 -- AX0–AX7
  tsw : Nat
  ldepth : Nat
  lc : List Nat
  ls : List Nat
  le : List Nat
  ipc : Nat
  itsw : Nat
  ivec : Nat
  imask : Nat
  ipend : Nat
  isp : Nat
  lr : Nat
  cyc : Nat
  ssel : Nat
  timer : Nat
  pend : List PWrite
  slot : Nat                    -- delay slots left before `target` issues (0: none)
  target : Option Nat           -- where the taken branch goes; none with slot > 0 for DONE
  ending : Bool                 -- a DONE is in its delay slots
  macs : List (Nat × Nat)       -- accumulator pairs written by MAC operations: pair and bundle number
  accs : List (Nat × Nat × Int × Int)  -- accumulator values RND and ACCR still see: n, k, A, AX
  tsws : List (Nat × Nat)       -- overflow bits not yet seen in TSW: bundle number and bits
  deferred : Nat                -- cycles a preemption has been deferred
  line : Nat                    -- line of 32 bytes last fetched
  lastPair : Bool               -- the bundle before used both data slots
  cached : Option Nat           -- start of the loop body held in the loop cache
  waitx : Nat                   -- channels a WAITX waits for
deriving DecidableEq, Repr

/-- One invocation of a node (R277). -/
structure Inv where
  node : Nat
  k : Nat
  release : Nat                 -- STC instants
  deadline : Nat
  ctx : Option Ctx              -- none before its first bundle
deriving DecidableEq, Repr

/-- A node at run time. -/
structure NodeS where
  xbase : Nat
  ybase : Nat
  pbase : Nat
  lastK : Nat                   -- one more than the last invocation released
  cwPend : Bool                 -- CW_APPLY waits for the next release
  xsrc : List Nat               -- transfer channels 0 to 3 (R306): SRC, DST, LEN and CTL.DIR
  xdst : List Nat
  xlen : List Nat
  xdir : List Nat
  xrun : Tbl (Nat × Nat × Nat × Nat)   -- busy channels: SRC, DST, LEN and DIR as started
  stamps : List (Option Nat)    -- the port timestamp that came with each input of its last block (R251)
deriving DecidableEq, Repr

/-- States of a tile (Table 12-9). -/
inductive TileSt
  | off | idle | run | faulted
deriving DecidableEq, Repr

/-- One tile. -/
structure TileS where
  st : TileSt
  mode : MemMode
  queue : List Inv              -- released invocations that are not running
  cur : Option Inv
  fault : Nat × Nat × Nat       -- FINFO: cause, node, pc
  busy : Nat                    -- cycles executed in the present second, and in the present millisecond
  busyMs : Nat
  secAt : Nat
  msAt : Nat
  load : Nat                    -- BUSY as last computed
  peak : Nat                    -- PEAK since the last read
deriving DecidableEq, Repr

/-- The tiles and their nodes. -/
structure DspS where
  tiles : Tbl TileS
  nodes : Tbl NodeS
deriving DecidableEq, Repr

/-! ### Twin pair and Gander (chapter 14) -/

/-- Kinds of symbols on ROLE_IN (R352), LOST included. -/
inductive GSym
  | lost | grant | standby | resync
deriving DecidableEq, Repr

/-- Symbols on HB_OUT (Table 14-4), and none. -/
inductive HbSym
  | none | ok | diverge | yield | fail
deriving DecidableEq, Repr

/-- A frame sent on the twin link. -/
inductive TwinMsg
  | heartbeat (lane : Nat) (h : Heartbeat)
  | hello (h : Hello)
  | mirror (seq : Nat) (item : MirrorItem)
  | digest (d : Digest)
  | snapReq
  | snapshot (s : Snapshot)
deriving DecidableEq, Repr

/-- A digest kept for comparison (R349), with the time it was built or arrived. -/
structure DigRec where
  d : Digest
  at_ : Nat
deriving DecidableEq, Repr

/-- A resynchronisation (R360). -/
inductive ResyncSt
  | idle
  | asked                        -- waits for the snapshot
  | watching (since : Nat)       -- step 5 is done; clean digests are awaited since then
  | failed                       -- R361: stays ISOLATED
deriving DecidableEq, Repr

/-- The twin-pair unit. -/
structure TwinS where
  role : Role
  solo : Bool                    -- an APPLY has succeeded since RESET_N (R356)
  lanes : Nat
  peerSeen : Bool
  hbLast : Option Nat            -- elapsed time of the last heartbeat frame
  hbRun : Nat                    -- consecutive 100 µs periods with one
  peer : Option Heartbeat        -- last heartbeat
  hello : Option Hello           -- last hello
  paired : Bool
  refuse : Nat
  clash : Bool                   -- UNIT_CLASH until RESET_N rises
  applyHash : Nat
  timeOk : Bool
  timeBad : Nat                  -- consecutive averages beyond TIME_NS
  timeGood : Nat
  timeOff : Int                  -- peer STC − own STC, 2⁻⁸ ns
  seqOut : Nat
  seqIn : Option Nat             -- number of the last mirror item; none where the next one starts the stream
  held : List (Nat × MirrorItem) -- items queued while a snapshot is installed, with their sequence numbers
  mirCmds : List (MirCmd × Nat)  -- mirrored commands waiting for their epoch
  out : List TwinMsg             -- frames sent, newest first
  localD : List DigRec
  peerD : List DigRec
  cleanFrom : Nat                -- start of the clean interval
  cmpAt : Option Nat             -- when a digest was last compared
  cleanSeen : Bool               -- a clean interval has passed since step 5 of R360
  misAt : List Nat               -- mismatches whose verdict is not taken yet, oldest first
  divTill : Nat                  -- DIVERGE is sent until this time
  divergent : Bool
  ind : Nat                      -- TWIN_CHECK.IND
  indTill : Tbl Nat              -- when each indicator falls
  eccSec : Nat                   -- second being counted, and corrected errors in it
  eccN : Nat
  gander : GSym
  gLast : Option Nat             -- elapsed time of the last valid symbol
  lostFrom : Nat                 -- when GANDER or the peer was last lost (R364)
  hb : HbSym
  resync : ResyncSt
  resyncing : Bool
  rejoinHeld : Bool              -- YIELD with ISOLATE: REJOIN is needed (Table 14-10)
  rejoinOk : Bool                -- REJOIN was written since ISOLATED was entered
  yield : List (Option Cmd × Nat)    -- YIELDs in progress, by a command or asked for by the peer, each with its time, oldest first
  yieldIso : Bool
  takeover : List (Cmd × Nat)        -- TAKEOVERs in progress, oldest first
  stateAt : Option Nat           -- STC millisecond of a STATE_RESET
  forced : Bool
  clockId : Nat                  -- clockIdentity of the pair (R344)
  ctr : Tbl Nat
deriving DecidableEq, Repr

/-- A Gander input (R351, R353). -/
structure GInS where
  sym : HbSym                    -- none is SILENT
  last : Option Nat              -- elapsed time of the last valid symbol
  from_ : Nat                    -- valid since
  okFrom : Nat                   -- OK since
  divRun : Nat                   -- consecutive DIVERGE symbols
deriving DecidableEq, Repr

/-- Gander (R353, R354). -/
structure GanderS where
  holder : Nat                   -- 0, 1, or 2 for none
  in0 : GInS
  in1 : GInS
  first : Option Nat             -- first valid symbol on either input
  divergent : Bool
  bothFail : Bool
  resyncTill : Nat
  grant0 : GSym                  -- symbols driven on the two lines
  grant1 : GSym
deriving DecidableEq, Repr

/-! ### Ubley fabric (chapter 15) -/

/-- STATUS.STATE of FAB. -/
inductive FabSt
  | off | discovering | formed | twinned | refused
deriving DecidableEq, Repr

/-- One lane (R367, R368, R374). -/
structure UbLaneS where
  lock : Bool
  up : Bool
  hellos : List Nat              -- elapsed times of the last three hellos, newest first
  neigh : Option (Nat × Nat)     -- serial and lane of the far end, from the last hello
  refuse : Nat
  samples : List Nat             -- round trips of the last exchanges less the residence times, newest first, in units of 10 ps
  delay : Nat
deriving DecidableEq, Repr

/-- The definition of a fabric flow (Table 15-7). -/
structure FabDef where
  f : Nat
  src : Nat
  dst : Nat
  nch : Nat
  rate : Nat
  g : Nat
deriving DecidableEq, Repr

/-- A fabric flow at run time (R378, R386). -/
structure FabFlowS where
  d : FabDef                     -- as the last APPLY found it
  st : Nat                       -- 0 UNUSED, 1 UP, 2 DOWN
  path : List (Nat × Nat)        -- lane directions: sending member's ID and its lane
  lF : Nat
  txBase : Nat
  rxBase : Nat
  sent : Nat                     -- first sample index not yet sent
  read : Nat                     -- first sample index not yet read out
  stopped : Bool                 -- DOWN until the next APPLY (R371, R378)
  buf : Tbl Smp                  -- receive buffer by channel × 512 + position
deriving DecidableEq, Repr

/-- A frame sent on a lane. -/
inductive FabMsg
  | hello (lane : Nat) (h : LaneHello)
  | link (lane : Nat) (l : LinkState)
  | time (lane tm stc8 : Nat)
  | cell (lane : Nat) (bytes : List Byte)
  | config (member configId : Nat)
  | plan (flows : List (Nat × List (Nat × Nat) × Nat)) (crc : Nat)
  | outcome (member code res bound req : Nat)
  | ptp (lane : Nat) (bytes : List Byte)  -- a message of this member's PTP instance 5 (R377)
  | ptpOn (lane src : Nat) (m : PtpMsg)   -- one of member src, passed on
deriving DecidableEq, Repr

/-- The fabric block. -/
structure FabS where
  st : FabSt
  lanes : Tbl UbLaneS
  recs : List LinkState          -- newest record of each device, this member's included
  ver : Nat                      -- of this member's own record
  reach : List Nat               -- serials of the reachable devices, ascending
  changeAt : Nat                 -- when the reachable devices last changed
  formed : List Nat              -- die serials in ID order
  present : Nat                  -- member bits
  routes : Tbl (Nat × Nat)       -- lane and hops, by ID
  flows : Tbl FabFlowS
  tm : Option Nat                -- the time master's ID
  tmRun : Nat                    -- consecutive time messages from it
  tmAt : Nat                     -- elapsed time of the last of them
  valid : Bool
  ft : Int                       -- fabric time minus own STC, 2⁻⁸ ns
  skew : Bool
  skewBad : Nat
  skewGood : Nat
  planHash : Nat
  reports : Tbl Nat              -- CONFIG_ID reported, by member
  waitCfg : Option Nat           -- step 5 waits since (R384)
  late : Bool                    -- the others already run the bitstream (R385)
  plan : Option (List (Nat × List (Nat × Nat) × Nat))  -- the plan computed or received: entry, path, L_F
  outcomes : Tbl (Nat × Nat × Nat × Nat)  -- by member: the four REJECT words, 0 for a member that passed
  rebuilt : Bool                 -- a rebuild occurred while step 5 to 7 were in progress
  out : List FabMsg              -- frames sent, newest first
  ctr : Tbl Nat
deriving DecidableEq, Repr

/-! ### Faults, refusals and the whole state -/

/-- Faults. The spec gives every command an effect (an access that fails completes with a status code, Table 3-5), so nothing in
the model raises one: the type is empty. Safe. -/
inductive Fault : Type
deriving DecidableEq, Repr

/-- Refusals. -/
inductive Refusal
  /-- Raised by the arm of a command that has no meaning yet; no arm raises it. Safe: the model stops. -/
  | notModelled (mnemonic : String)
deriving DecidableEq, Repr

/-- The banks of the double-banked tables as they stood until a swap (R22). -/
structure Bank where
  till : Nat                -- STC of the swap, in 2⁻⁵⁶ ns
  sel : Bool                -- which bank was active
  regs : Tbl Word
deriving DecidableEq, Repr

/-- What has happened at the present instant, so that software and hardware acting in one cycle meet as Table 3-8 says (R25, R66, R67, R70). -/
structure InstantS where
  raised : List (Nat × Nat × Bool)  -- cause flags that hardware set: register, bit, and whether the flag stood before
  wrote : List (Nat × Word × Word)  -- stored addresses of the registers that software wrote, with the bits written and the word
  attn : Bool                       -- attention was raised
  fault : Option (Nat × Nat)        -- the last access fault, as SYS.ACC_FAULT_ADDR and SYS.ACC_FAULT_INFO hold it
  seen : Bool                       -- ATTN_SUMMARY.ATTN before this instant
  faults : List Nat                 -- tiles whose faults the placement engine took
  done : Nat                        -- completions that SYS.CMD_DONE held before it and that no read has removed
  regs : Tbl Word                   -- the registers before it
  ctrA : Tbl Nat                    -- the clear-on-read counters before it, by block
  ctrB : Tbl Nat
  ctrM : Tbl Nat
  ctrStx : Tbl Nat
  ctrSrx : Tbl Nat
  ctrDma : Tbl Nat
  ctrTwin : Tbl Nat
  ctrFab : Tbl Nat
  ctrNand : Tbl Nat
  ptp : Tbl PtpS                    -- the PTP instances before it, for their counters
deriving DecidableEq, Repr

/-- The state of the device. -/
structure State where
  pending : List Instr      -- commands waiting, oldest first
  now : Nat                 -- elapsed time since VDD_AON was applied
  free : Nat                -- the model's own counter: free values taken so far
  regs : Tbl Word           -- registers by physical address (both banks of the double-banked tables)
  bankSel : Bool            -- which bank of the double-banked tables is active
  banks : List Bank         -- the tables before the last swaps, newest first
  inst : InstantS           -- what has happened at the present instant
  mem : List Host.Cell      -- memory window (Table 3-3), canonical, unlisted bytes read 0
  chip : ChipS
  pwr : PwrS
  host : HostS
  cmd : CmdS
  aon : AonS
  recorder : RecS
  nand : NandS
  macA : MacS
  macB : MacS
  macM : MacS
  stx : StxS
  srx : SrxS
  way : PathwayS
  place : PlaceS
  time : TimeS
  clk : ClkS
  aport : AportS
  dsp : DspS
  dma : DmaS
  twin : TwinS
  gander : GanderS
  fab : FabS
deriving DecidableEq, Repr

/-! ### Reset -/

/-- Fuses of the device the model starts as: variant code 0, serial 1, no key provisioned (log entry 3). -/
def initFuses : Fuses := ⟨0, 1, 0, true, false⟩

/-- Straps of the device the model starts as: all 0 (log entry 3). -/
def initStraps : Straps := ⟨0, 0, 0, false, false⟩

/-- A path with nothing in progress. -/
def PathS.init : PathS := ⟨none, 0, 0, 0, ⟨0, 0⟩, []⟩

/-- A mailbox context at its reset values (Table 3-15). -/
def Mbx.init : Mbx := ⟨0, 0, false, false, false, 0, 0, 0, [], none, 0⟩

/-- The host paths after reset. -/
def HostS.init : HostS :=
  { spi := ⟨false, 0, 0, false, [], 0, 0, 0, []⟩, spiP := .init, pcieP := .init, queue := [], cpls := [], attn := false,
    attnSeen := false, corrupt := [], polHold := 0, polMute := 0 }

/-- The sequencer at a start-up: mode BOOT with MODE.PREV given, queues empty (R47, R84). -/
def CmdS.boot (prev : Nat) : CmdS :=
  { mode := .boot, prev := prev, flowScoped := false, safeCause := 0, queue := [], deferred := [], started := [],
    heldAborts := [], done := [], nextOrder := 0, loading := none, applying := false, restarting := false,
    mismatchAt := none, restartAt := none, startWait := none, autoStart := false, stateSrc := 0, cfgSrc := 0, cfgFail := 0,
    wakeBoot := false, wakeSrc := 0, wakeSeen := 0, waitLoad := false, lastMs := 0, swaps := 0, copying := false,
    copySkip := [], dirty := false, parityDev := false, outs := [], safeLive := false, modeStc := 0, groups := 0, groupsStc := 0, imgJob := none, imgWait := none, resetting := [], sleepDone := [],
    sleepLost := false, sleeping := false, sleepSrc := none, sleepQuiet := false }

/-- The always-on copies after VDD_AON came up: none valid. -/
def AonS.init : AonS := ⟨none, none, 0, false, 0, 0, 0, []⟩

/-- The recorder after VDD_AON came up. -/
def RecS.init : RecS :=
  { nextSeq := 0, opsec := 0, pcyc := 0, evq := [], hold := [], holdRun := false, wbuf := [], wbufSince := none, main := [], logPage := 0,
    fbFirst := [], fbCirc := [], pend := [], frozen := false, degraded := false, noVictim := false, snapSpi := none,
    snapPcie := none }

/-- The NAND manager before its start-up sequence, with an erased device. -/
def NandS.init : NandS :=
  { present := false, ready := false, fault := false, geomErr := false, failAt := none, retrying := false, pageSize := 2048,
    ppb := 64, blocks := 0, gbit := 0, iface := 0, tmode := 0, ce1 := false, cells := [], pages := [], progs := 0, bad := [],
    marked := [], retired := [], map := [], gone := [], wear := [], fresh := [], endurance := 0, patrol := 0, images := [], jPage := 0, slot0 := none, slot1 := none, lastSlot := false, xfer := none,
    xferBusy := false, xferStatus := 0, scrub := none, ctr := [] }

/-- A MAC with nothing queued. -/
def MacS.init : MacS :=
  { queues := [], cur := none, curQ := 0, curAt := 0, curLost := false, lineFree := 0, pauses := [], pausedTo := 0, pausedRem := 0, gate := 0,
    fifo := [], ctr := [], sent := [], loop := [], mdioBusy := false, mdioRead := false, mdioSent := [] }

/-- The transmit stream engine at reset. -/
def StxS.init : StxS := ⟨[], [], [], []⟩

/-- The receive stream engine at reset. -/
def SrxS.init : SrxS := ⟨[], [], [], [], [], [], [], []⟩

/-- An unlocked RXS entry. -/
def RxsS.init : RxsS := ⟨false, 0, [], 0, 0, 0, 0, false, false, [], 0⟩

/-- The placement engine at reset: idle, no placement. -/
def PlaceS.init : PlaceS := ⟨0, none, 0, 0, 0, 0, 0, 0, none, [], [], [], [], []⟩

/-- A slot of type 0. -/
def SlotS.init : SlotS := ⟨.off, 0, none, 0, 0, false, 0, 0, none, 0, 0, 0⟩

/-- A lane voted in. -/
def LaneS.init : LaneS := ⟨true, 0, 0, none, 0⟩

/-- A frame-pulse generator not aligned. -/
def FpgS.init : FpgS := ⟨none, none, 0, none, none⟩

/-- A PTP instance that is not enabled. -/
def PtpS.init : PtpS :=
  { st := .disabled0, best := none, foreign := [], preAt := 0, offset := 0, delay := 0, syncT1 := none, syncT2 := 0, syncSeq := 0, waitFollow := false,
    dreqT3 := none, dreqSeq := 0, lastSync := none, syncFrom := 0, syncRun := 0, cSync := 0, cAnn := 0, cReq := 0, cDrop := 0, reqSec := 0, reqN := 0,
    seqOut := 0 }

/-- The time island when the STC starts (R198). -/
def TimeS.init : TimeS :=
  { on := true, stc := 0, jump := 0, y := 0, yBase := 0, slope := 100, off := 0, pull := none, step := none, steps := [], learned := 0, learnAge := 0, hist := [],
    hoFreq := 0, st := .freerun, slots := [], inUse := none, again := none, named := 0, fresh := false, selQ := [], lockFrom := none,
    lanes := [.init, .init, .init], followed := 0, splitRun := 0, edges := [], fpg := [], ptp := [],
    epoch := 0 }

/-- A media synthesiser at reset. -/
def MsyS.init : MsyS :=
  { fam := 0, post := 16, mult := 4096, run := false, lock := false, relock := false, held := false, origin := 0, dither := 0, ditherFrom := 0, y := 0,
    rate := none, off := 0, good := 0, bad := 0 }

/-- The synthesisers and clock outputs as PD1 and PD2 come up: SSY has locked (R228), MSY0 starts with the reset value of its SEED (R225, R226). -/
def ClkS.init : ClkS :=
  { msy := [(0, { MsyS.init with run := true, relock := true, dither := 1 })], ssyLock := true, ssyGood := 0, ssyBad := 0, spread := ⟨false, false, 0⟩,
    spreadPend := none, spreadFrom := 0, maxSpread := 0, outs := [] }

/-- Nothing has happened yet. -/
def InstantS.init : InstantS := ⟨[], [], false, none, false, [], 0, [], [], [], [], [], [], [], [], [], [], []⟩

/-- A clock output at reset. -/
def ClkOutS.init : ClkOutS := ⟨none, none, none, false, none, 0⟩

/-- A side that is off. -/
def SideS.init : SideS :=
  { st := .off, rateDet := 0, took := none, locked := false, maskAct := 0, maskOld := none, actCh := 0, level := 0, corr := 0, blockAt := 0, blockFrom := 0,
    blockN := 0, blocks := 0, cut := none, holdTo := 0, out := [] }

/-- An output channel that is muted with nothing pending: every output starts muted, and every unmute follows R257 (R258). -/
def GainS.init : GainS := ⟨0, none, 0, false, false⟩

/-- The audio ports at reset. -/
def AportS.init : AportS := ⟨[], [], [], [], 0, 0, 0⟩

/-- A tile that is off. -/
def TileS.init : TileS := ⟨.off, .split, [], none, (0, 0, 0), 0, 0, 0, 0, 0, 0⟩

/-- A node that has not run. -/
def NodeS.init : NodeS := ⟨0, 0, 0, 0, false, [0, 0, 0, 0], [0, 0, 0, 0], [0, 0, 0, 0], [0, 0, 0, 0], [], []⟩

/-- The tiles at reset. -/
def DspS.init : DspS := ⟨[], []⟩

/-- A ring that is not enabled. -/
def RingS.init : RingS := ⟨0, [], 0, 0, 0, []⟩

/-- The PCIe function at reset, link down. -/
def DmaS.init : DmaS :=
  { rings := [], ctr := [], bme := false, d3 := false, linkUp := false, width := 0, speed := 0, extTag := false, hostMem := [],
    msix := [], pend := 0, msixEn := false, fmask := false, cmdLast := 255, txLast := [] }

/-- The twin unit at reset: SOLO, peer and Gander not seen. -/
def TwinS.init : TwinS :=
  { role := .solo, solo := false, lanes := 0, peerSeen := false, hbLast := none, hbRun := 0, peer := none, hello := none,
    paired := false, refuse := 0, clash := false, applyHash := 0, timeOk := false, timeBad := 0, timeGood := 0, timeOff := 0,
    seqOut := 0, seqIn := none, held := [], mirCmds := [], out := [], localD := [], peerD := [], cleanFrom := 0, cmpAt := none, cleanSeen := false,
    misAt := [], divTill := 0, divergent := false, ind := 0, indTill := [], eccSec := 0, eccN := 0,
    gander := .lost, gLast := none, lostFrom := 0, hb := .none, resync := .idle,
    resyncing := false, rejoinHeld := false, rejoinOk := false, yield := [], yieldIso := false,
    takeover := [], stateAt := none, forced := false, clockId := 0, ctr := [] }

/-- A silent Gander input. -/
def GInS.init : GInS := ⟨.none, none, 0, 0, 0⟩

/-- Gander at reset: no holder (Table 14-7). -/
def GanderS.init : GanderS := ⟨2, .init, .init, none, false, false, 0, .lost, .lost⟩

/-- A lane without block lock. -/
def UbLaneS.init : UbLaneS := ⟨false, false, [], none, 0, [], 0⟩

/-- A fabric flow that is not used. -/
def FabFlowS.init : FabFlowS := ⟨⟨0, 0, 0, 0, 0, 0⟩, 0, [], 0, 0, 0, 0, 0, false, []⟩

/-- The fabric at reset: off. -/
def FabS.init : FabS :=
  { st := .off, lanes := [], recs := [], ver := 0, reach := [], changeAt := 0, formed := [], present := 0, routes := [], flows := [], tm := none,
    tmRun := 0, tmAt := 0, valid := false, ft := 0, skew := false, skewBad := 0, skewGood := 0, planHash := 0, reports := [],
    waitCfg := none, late := false, plan := none, outcomes := [], rebuilt := false, out := [], ctr := [] }

/-- The machine right after the first rising edge of RESET_N: mode BOOT, domains 0 to 2 on (R419), every register at its reset
value, memory with nothing listed, no command waiting. Fuses, straps and bank levels are inputs that the spec leaves to the part
and the board: log entry 3. -/
def State.reset : State :=
  { pending := [], now := 0, free := 0, regs := [], bankSel := false, banks := [], inst := .init, mem := [],
    chip := { fuses := initFuses, straps := initStraps, iov := 0, pwrd := 0x1FF, coreOn := true, aonOn := true, resetN := true,
              brownout := false, brownStart := false, coreLost := false }
    pwr := { on := 7, placed := 0, forcedOff := 0, pcieUp := false, linkTrained := false, wakeLatch := 0, waking := false, wakeAt := 0, hotSleep := false,
             hotIgnore := false, wakeInPin := false, tj := none }
    host := .init, cmd := CmdS.boot 0, aon := .init, recorder := { RecS.init with pcyc := 1 }, nand := .init, macA := .init, macB := .init,
    macM := .init, stx := .init, srx := .init, way := ⟨[], []⟩, place := .init, time := .init, clk := .init, aport := .init,
    dsp := .init, dma := .init, twin := .init, gander := .init, fab := .init }

end Sys2Proof.Machine
end

