-- ==== Sys2Proof/Machine/Ops.lean ====
section
/-!
DEFINITION. The operations every family shares: time, variants and blocks, register reads and writes, cause flags and
attention, event records, free values.
-/
namespace Sys2Proof.Machine

/-! ### Time -/

/-- Nanoseconds, microseconds, milliseconds and seconds in units of 2⁻¹⁶ ns. -/
def ns (n : Nat) : Nat := n * 65536
def us (n : Nat) : Nat := ns (n * 1000)
def ms (n : Nat) : Nat := ns (n * 1000000)
def secs (n : Nat) : Nat := ns (n * 1000000000)

/-- The same instants on the STC, in units of 2⁻⁵⁶ ns (R198). -/
def stcMs (n : Nat) : Nat := n * 1000000 * 2 ^ 56
def stcSec (n : Nat) : Nat := n * 1000000000 * 2 ^ 56

/-- A new instant begins: nothing has happened at it, and what stood before it is kept (Table 3-8). -/
def State.openInst (s : State) : InstantS :=
  { InstantS.init with
    seen := s.host.attnSeen, done := s.cmd.done.length, regs := s.regs, ctrA := s.macA.ctr, ctrB := s.macB.ctr
    ctrM := s.macM.ctr, ctrStx := s.stx.ctr, ctrSrx := s.srx.ctr, ctrDma := s.dma.ctr, ctrTwin := s.twin.ctr, ctrFab := s.fab.ctr
    ctrNand := s.nand.ctr, ptp := s.time.ptp }

/-- The state at elapsed time t: the STC has run on at its own frequency, which is the oscillator's times 1 + y ÷ 2⁴⁰ (R199). Time
never runs backward. What happens at one elapsed time happens in one cycle (log entry 9). -/
def State.at (s : State) (t : Nat) : State :=
  { s with now := if s.now < t then t else s.now
           inst := if s.now < t then s.openInst else s.inst
           time := { s.time with stc := if s.time.on then s.time.stc + (t - s.now) * ((2 : Int) ^ 40 + s.time.y).toNat
                                        else s.time.stc } }

/-- The STC in whole nanoseconds, in 2⁻⁸ ns, in whole milliseconds and in whole seconds. -/
def State.stcNs (s : State) : Nat := s.time.stc / 2 ^ 56
def State.stc8 (s : State) : Nat := s.time.stc / 2 ^ 48
def State.stcMsec (s : State) : Nat := s.stcNs / 1000000
def State.stcSecs (s : State) : Nat := s.stcNs / 1000000000

/-! ### Variants and blocks -/

/-- Block positions of Table 3-1. -/
def bSYS : Nat := 0
def bPWR : Nat := 1
def bCLK : Nat := 2
def bTIME : Nat := 3
def bMACA : Nat := 4
def bMACB : Nat := 5
def bMACM : Nat := 6
def bSTX : Nat := 7
def bSRX : Nat := 8
def bROUTE : Nat := 9
def bAPORT : Nat := 10
def bDSPC : Nat := 11
def bDMA : Nat := 12
def bTWIN : Nat := 13
def bFAB : Nat := 14
def bLOG : Nat := 15
def bSTORE : Nat := 16
def bPLACE : Nat := 17
def bSEC : Nat := 18

/-- The resources of a variant (Tables 0-1 and 2-1). MEDIA_MAX is coded as in Table 2-4. -/
structure Variant where
  netch : Nat
  media : Nat
  tiles : Nat
  tdm : Nat
  aes : Nat
  madi : Nat
  ubley : Nat
  lanes : Nat
  twin : Bool
  pkgM : Bool
deriving DecidableEq, Repr

/-- Tables 0-1 and 2-1, by variant code. -/
def variants : List Variant :=
  [⟨4096, 2, 32, 32, 8, 4, 8, 4, true, false⟩, ⟨4096, 2, 32, 32, 8, 4, 0, 4, true, false⟩,
   ⟨4096, 2, 32, 32, 8, 4, 8, 4, false, false⟩, ⟨4096, 2, 32, 32, 8, 4, 0, 4, false, false⟩,
   ⟨2048, 2, 16, 32, 8, 4, 4, 4, true, false⟩, ⟨2048, 1, 16, 16, 4, 2, 0, 2, true, true⟩,
   ⟨2048, 1, 16, 16, 4, 2, 0, 2, false, true⟩, ⟨1024, 1, 8, 16, 4, 2, 0, 2, true, true⟩,
   ⟨1024, 1, 8, 16, 4, 2, 0, 2, false, true⟩, ⟨512, 1, 4, 8, 2, 1, 0, 2, true, true⟩,
   ⟨512, 1, 4, 8, 2, 1, 0, 2, false, true⟩, ⟨256, 0, 2, 8, 2, 0, 0, 1, false, true⟩]

/-- No resources: what a failed fuse check leaves (R36). -/
def noVariant : Variant := ⟨0, 0, 0, 0, 0, 0, 0, 0, false, false⟩

/-- The three checks of R36, as FUSE_STATUS shows them: CRC_ERR, CODE_ERR, BOND_ERR. -/
def Fuses.crcErr (f : Fuses) : Bool := !f.crcOk
def Fuses.codeErr (f : Fuses) : Bool := decide (12 ≤ f.code)
def Fuses.bondErr (f : Fuses) : Bool := (variants.getD f.code noVariant).pkgM != f.bondM && !(decide (12 ≤ f.code))

/-- Whether the fuse check passed (R36). -/
def Fuses.ok (f : Fuses) : Bool := !(Fuses.crcErr f || Fuses.codeErr f || Fuses.bondErr f)

/-- SYS.FUSE_STATUS (Table 2-7). -/
def Fuses.status (f : Fuses) : Nat :=
  b2n (Fuses.ok f) + 2 * b2n (Fuses.crcErr f) + 4 * b2n (Fuses.codeErr f) + 8 * b2n (Fuses.bondErr f)

/-- The variant in force. -/
def State.variant (s : State) : Variant :=
  if Fuses.ok s.chip.fuses then variants.getD s.chip.fuses.code noVariant else noVariant

/-- Whether a block is present (R36, R38, Table 2-1, R136). -/
def State.present (s : State) (b : Nat) : Bool :=
  if Fuses.ok s.chip.fuses then
    if b = 13 then s.variant.twin else if b = 14 then s.variant.ubley != 0
    else if b = 6 then s.chip.straps.mgmtSel != 3 else decide (b < 19)
  else b == 0 || b == 1 || b == 15 || b == 16 || b == 18

/-- The power domain of a block (Table 17-1, Table 3-16). -/
def domainOf (b : Nat) : Nat :=
  if b = 2 ∨ b = 3 then 2 else if b = 4 ∨ b = 5 then 3 else if b = 6 then 4
  else if b = 7 ∨ b = 8 ∨ b = 9 ∨ b = 11 then 5 else if b = 10 then 9 else if b = 12 then 10
  else if b = 13 ∨ b = 14 then 11 else if b = 15 then 0 else 1

/-- The device runs: supplies up, RESET_N high, no brown-out (R425, R426). -/
def State.live (s : State) : Bool := s.chip.aonOn && s.chip.coreOn && s.chip.resetN && !s.chip.brownout

/-- PDd is on. -/
def State.domOn (s : State) (d : Nat) : Bool := s.live && bit s.pwr.on d

/-- A block is present, its domain is on, and no RESET_BLOCK holds it (R100). -/
def State.blkOn (s : State) (b : Nat) : Bool := s.present b && s.domOn (domainOf b) && !s.cmd.resetting.contains b

/-- Whether a tile, a TDM port, an AES3 port, a MADI port or an Ubley lane is present (R35). -/
def State.tileHere (s : State) (k : Nat) : Bool := decide (k < s.variant.tiles)

/-- The island that holds a block (Table 3-16). -/
def islandOf (b : Nat) : Island :=
  if b = 2 ∨ b = 3 then .time else if b = 4 then .macA else if b = 5 then .macB else if b = 6 then .macM
  else if b = 7 ∨ b = 8 ∨ b = 9 ∨ b = 11 then .stream else if b = 10 then .aport else if b = 12 then .pcie
  else if b = 13 ∨ b = 14 then .fabric else if b = 15 then .aon else .control

/-! ### Registers -/

/-- The register map of a block. -/
def regMapOf (b : Nat) : List RegDesc :=
  if b = 0 then regMapSYSA ++ regMapSYSB else if b = 1 then regMapPWR else if b = 2 then regMapCLK
  else if b = 3 then regMapTIMEA ++ regMapTIMEB else if b = 4 ∨ b = 5 then regMapMACA ++ regMapMACB
  else if b = 6 then regMapMACA ++ regMapMACB ++ regMapMACM else if b = 7 then regMapSTXA ++ regMapSTXB ++ regMapSTXC
  else if b = 8 then regMapSRXA ++ regMapSRXB ++ regMapSRXC ++ regMapSRXD else if b = 9 then regMapROUTE
  else if b = 10 then regMapAPORTA ++ regMapAPORTB else if b = 11 then regMapDSPC else if b = 12 then regMapDMAA ++ regMapDMAB
  else if b = 13 then regMapTWIN else if b = 14 then regMapFAB else if b = 15 then regMapLOG else if b = 16 then regMapSTORE
  else if b = 17 then regMapPLACEA ++ regMapPLACEB else if b = 18 then regMapSEC else []

/-- Whether a register (or array) lies at an offset of its block's window. -/
def RegDesc.hits (d : RegDesc) (off : Nat) : Bool :=
  decide (d.off ≤ off) && decide ((off - d.off) / d.stride < d.cnt) &&
  decide ((off - d.off) % d.stride % d.stride2 = 0) && decide ((off - d.off) % d.stride / d.stride2 < d.cnt2)

/-- The block of a register address, and the offset in the block's window (R51). -/
def blkOf (a : Nat) : Nat := a / 0x100000
def offOf (a : Nat) : Nat := a % 0x100000

/-- The descriptor of the register at an address of the normal view. -/
def regDesc (a : Nat) : Option RegDesc := (regMapOf (blkOf a)).find? (fun d => d.hits (offOf a))

/-- The word that a list of fields gives from a function of the field. -/
def fieldsWord (fs : List FieldDesc) (f : FieldDesc → Nat) : Word :=
  BitVec.ofNat 32 (fs.foldl (fun acc d => acc ||| ((f d % 2 ^ d.w) <<< d.lo)) 0)

/-- The reset value of the register at an address; 0 where no register lies. -/
def resetWord (a : Nat) : Word :=
  if a = 0x0600100 then 0x00000038 else   -- MACM.MAC_CTL: TX_EN and RX_EN come up at 1 (R136)
  match regDesc a with
  | some d => fieldsWord d.fields (fun f => f.reset)
  | none => 0

/-- Exchange the two banks of the double-banked tables (R22, R27, R157, R181). -/
def swapBank (a : Nat) : Nat :=
  let b := blkOf a
  let o := offOf a
  if b = 7 ∨ b = 8 then
    if 0x10000 ≤ o ∧ o < 0x20000 then a + 0x10000 else if 0x20000 ≤ o ∧ o < 0x30000 then a - 0x10000
    else if 0x30000 ≤ o ∧ o < 0x34000 then a + 0x4000 else if 0x34000 ≤ o ∧ o < 0x38000 then a - 0x4000 else a
  else if b = 9 then
    if 0x10000 ≤ o ∧ o < 0x1C000 then a + 0x10000 else if 0x20000 ≤ o ∧ o < 0x2C000 then a - 0x10000 else a
  else a

/-- Whether an address lies in a shadow bank, or in an active bank. -/
def isShadow (a : Nat) : Bool := decide (a < swapBank a)
def isActive (a : Nat) : Bool := decide (swapBank a < a)

/-- Where the word of an address is stored, with the banks as they stand. -/
def phys (sel : Bool) (a : Nat) : Nat := if sel then swapBank a else a

/-- The stored word of a register. -/
def State.rd (s : State) (a : Nat) : Word := Tbl.getD s.regs (phys s.bankSel a) (resetWord (phys s.bankSel a))

/-- Store the word of a register. -/
def State.wr (s : State) (a : Nat) (v : Word) : State :=
  { s with regs := Tbl.set s.regs (resetWord (phys s.bankSel a)) (phys s.bankSel a) v }

/-- A field of a stored word, and storing one field. -/
def State.fld (s : State) (a : Nat) (f : Fld) : Nat := f.get (s.rd a)
def State.setFld (s : State) (a : Nat) (f : Fld) (x : Nat) : State := s.wr a (f.put (s.rd a) x)

/-- A field of width 1 as a Bool. -/
def State.flag (s : State) (a : Nat) (f : Fld) : Bool := s.fld a f != 0

/-- The word of an address in the tables as they stood until a swap. -/
def Bank.word (b : Bank) (a : Nat) : Word := Tbl.getD b.regs (phys b.sel a) (resetWord (phys b.sel a))

/-- The STC of the last swap, and the word of a table register in the bank that was active before it (R183). -/
def State.swapStc (s : State) : Nat := match s.banks with | b :: _ => b.till | [] => 0
def State.rdPrev (s : State) (a : Nat) : Word := match s.banks with | b :: _ => b.word a | [] => resetWord a

/-- The mask of W1C bits of a register. -/
def w1cMask (a : Nat) : Word :=
  match regDesc a with
  | some d => fieldsWord d.fields (fun f => if f.ty = .w1c then 2 ^ f.w - 1 else 0)
  | none => 0

/-- The address of the enable register of a cause register, if it has one. -/
def causeEn (a : Nat) : Option Nat :=
  let b := blkOf a
  let o := offOf a
  if b = 1 ∨ b = 2 ∨ b = 3 ∨ b = 7 ∨ b = 8 ∨ b = 12 ∨ b = 13 ∨ b = 14 ∨ b = 15 ∨ b = 16 then
    if o = 0x100 then some (a + 4)
    else if b = 12 ∧ 0x10000 ≤ o ∧ (o - 0x10000) % 0x40 = 0x24 then some (a + 4) else none
  else if b = 4 ∨ b = 5 ∨ b = 6 then if o = 0x108 then some (a + 4) else none
  else if b = 10 then if 0x1000 ≤ o ∧ o < 0x1000 + 88 * 0x40 ∧ (o - 0x1000) % 0x40 = 0x20 then some (a + 4) else none
  else none

/-- Whether block b has a cause flag set (Table 1-3). -/
def State.causeBit (s : State) (b : Nat) : Bool :=
  s.regs.any (fun e => blkOf e.1 == b && (e.2 &&& w1cMask e.1) != 0) && s.present b

/-! ### Attention (R24, R25, R330) -/

/-- Send an MSI-X message on a vector, or set its pending bit while the vector or the function is masked (R330). -/
def State.sendVector (s : State) (v : Nat) : State :=
  if s.dma.msixEn && s.dma.linkUp then
    if s.dma.fmask || bit (s.rd (0x0C0200C + 16 * v)).toNat 0 then
      { s with dma := { s.dma with pend := setBit s.dma.pend v true } }
    else { s with dma := { s.dma with msix := v :: s.dma.msix } }
  else s

/-- Raise attention on both paths. -/
def State.attend (s : State) : State :=
  State.sendVector { s with host := { s.host with attn := true, attnSeen := true }, inst := { s.inst with attn := true } } 0

/-- The block's CAUSE_EN lets cause flag n of the register at a set; a block without one lets all. -/
def State.causeLet (s : State) (a n : Nat) : Bool := match causeEn a with | some e => bit (s.rd e).toNat n | none => true

/-- Hardware sets cause flag n of the register at a at this instant. -/
def State.noteRaise (s : State) (a n : Nat) : State :=
  { s with inst := { s.inst with raised := (phys s.bankSel a, n, bit (s.rd a).toNat n) :: s.inst.raised } }

/-- A cause flag of a block sets: bit n of the register at a. The block's CAUSE_EN must let it (where it has one); a change from 0
to 1 in a block enabled in ATTN_MASK raises attention (R25). -/
def State.raise (s : State) (a n : Nat) : State :=
  if s.causeLet a n then
    let s0 := s.noteRaise a n
    if bit (s.rd a).toNat n then s0
    else
      let s1 := s0.wr a (BitVec.ofNat 32 (setBit (s.rd a).toNat n true))
      if bit (s.rd SYS.ATTN_MASK).toNat (blkOf a) then s1.attend else s1
  else s

/-! ### Software and hardware in one cycle (R66, R67) -/

/-- The flags of a register that hardware has set at this instant: software does not clear them. -/
def State.setNow (s : State) (a : Nat) : Word :=
  BitVec.ofNat 32 (ofBits ((s.inst.raised.filter (fun x => x.1 == phys s.bankSel a)).map (fun x => x.2.1)))

/-- Software clears the flags `c` of a register: a flag that hardware sets in the same cycle stays set, and this counts as a change from 0 to 1
where the flag stood before (R25). -/
def State.clearMeets (s : State) (a : Nat) (c : Word) : State :=
  if s.inst.raised.any (fun x => x.1 == phys s.bankSel a && x.2.2 && bit c.toNat x.2.1) && bit (s.rd SYS.ATTN_MASK).toNat (blkOf a) then s.attend
  else s

/-- Software writes the bits m of a register at this instant. -/
def State.noteWrote (s : State) (a : Nat) (m v : Word) : State :=
  { s with inst := { s.inst with wrote := (phys s.bankSel a, m, v) :: s.inst.wrote } }

/-- Software has written bits of a field at this instant. -/
def State.wroteNow (s : State) (a : Nat) (f : Fld) : Bool :=
  s.inst.wrote.any (fun x => x.1 == phys s.bankSel a && f.get x.2.1 != 0)

/-- The word with which software has written a 1 to a request bit at this instant, if it has. -/
def State.askedNow (s : State) (a : Nat) (f : Fld) : Option Word :=
  (s.inst.wrote.find? (fun x => x.1 == phys s.bankSel a && f.get (x.2.1 &&& x.2.2) != 0)).map (fun x => x.2.2)

/-- Hardware updates a field: what software writes in the same cycle stands. -/
def State.hwFld (s : State) (a : Nat) (f : Fld) (x : Nat) : State := if s.wroteNow a f then s else s.setFld a f x

/-- A preloaded counter: what hardware has counted at this instant is added to the value written; it saturates. -/
def State.preload (s : State) (a : Nat) (f : Fld) (w : Word) : Word :=
  let b := f.get (Tbl.getD s.inst.regs (phys s.bankSel a) (resetWord (phys s.bankSel a)))
  f.put w (Nat.min (2 ^ f.w - 1) (f.get w + (s.fld a f - b)))

/-- The four counters of a mailbox selector, as keys of a counter table. -/
def ctrKeys (sel : Nat) : List Nat := (List.range 4).map (fun i => 4 * sel + i)

/-- Clear-on-read counters as a capture takes them: their values before this instant. What has been counted at it stays, and the table of the
values before it follows. -/
def rcTake (cur old : Tbl Nat) (ks : List Nat) : List Nat × Tbl Nat × Tbl Nat :=
  let v := fun (k : Nat) => Nat.min (Tbl.getD old k 0) (Tbl.getD cur k 0)
  (ks.map v, ks.foldl (fun c k => Tbl.set c 0 k (Tbl.getD cur k 0 - v k)) cur, ks.foldl Tbl.del old)

/-! ### Event records and free values -/

/-- An event leaves its island for the recorder (R23, R406); unused payload words are 0. -/
def State.emit (s : State) (isl : Island) (code sev inst : Nat) (p : List Nat) : State :=
  { s with recorder := { s.recorder with evq := s.recorder.evq ++ [⟨isl, code, sev, inst, p.map (· % 2 ^ 32)⟩] } }

/-- Severities of Table 16-5. -/
def sevINFO : Nat := 1
def sevNOTICE : Nat := 2
def sevWARNING : Nat := 3
def sevERROR : Nat := 4
def sevCRITICAL : Nat := 5

/-- A signed value as a payload word. -/
def pw (x : Int) : Nat := lowBits 32 x

/-- Take a free value of w bits. -/
def State.takeFree (s : State) (w : Nat) : Nat × State :=
  (Config.freeValue s.free % 2 ^ w, { s with free := s.free + 1 })

/-! ### Memory window (Table 3-3) -/

/-- Read one byte; an unlisted byte reads 0 (log entry 5). -/
def State.memB (s : State) (a : Nat) : Byte := Tbl.getD s.mem a 0

/-- Write one byte. -/
def State.setMemB (s : State) (a : Nat) (b : Byte) : State := { s with mem := Tbl.set s.mem 0 a b }

/-- Read n bytes, lowest address first. -/
def State.memBytes (s : State) (a : Nat) : Nat → List Byte
  | 0 => []
  | n + 1 => s.memB a :: State.memBytes s (a + 1) n

/-- Write bytes from an address upwards. -/
def State.setMem (s : State) (a : Nat) : List Byte → State
  | [] => s
  | b :: r => State.setMem (s.setMemB a b) (a + 1) r

/-- Whether the memory is in its canonical form: rising addresses, no byte listed that is 0. -/
def Memory.wf (m : List Host.Cell) : Bool := Tbl.canon (fun _ => (0 : Byte)) m

/-! ### Ports and tables of substates -/

/-- A MAC by port number: 0 A, 1 B, 2 M. -/
def State.mac (s : State) (p : Nat) : MacS := if p = 0 then s.macA else if p = 1 then s.macB else s.macM

/-- Replace a MAC. -/
def State.setMac (s : State) (p : Nat) (m : MacS) : State :=
  if p = 0 then { s with macA := m } else if p = 1 then { s with macB := m } else { s with macM := m }

/-- The block position of a port, and its island. -/
def portBlk (p : Nat) : Nat := 4 + p
def portIsl (p : Nat) : Island := if p = 0 then .macA else if p = 1 then .macB else .macM

/-- A path's state, and replacing it. -/
def State.path (s : State) (p : Path) : PathS := match p with | .spi => s.host.spiP | .pcie => s.host.pcieP
def State.setPath (s : State) (p : Path) (x : PathS) : State :=
  match p with
  | .spi => { s with host := { s.host with spiP := x } }
  | .pcie => { s with host := { s.host with pcieP := x } }

/-- Add to a saturating-free 64-bit counter kept in a table (counters wrap at 2⁶⁴). -/
def ctrAdd (t : Tbl Nat) (k n : Nat) : Tbl Nat := Tbl.set t 0 k ((Tbl.getD t k 0 + n) % 2 ^ 64)

/-- A counter, and the two little-endian words in which a mailbox shows it (Table 8-11). -/
def ctrGet (t : Tbl Nat) (k : Nat) : Nat := Tbl.getD t k 0
def words64 (v : Nat) : List Nat := [v % 2 ^ 32, v / 2 ^ 32 % 2 ^ 32]

/-- Insert a number into an ascending list without repeats. -/
def insertNat (n : Nat) : List Nat → List Nat
  | [] => [n]
  | a :: r => if n < a then n :: a :: r else if n = a then a :: r else a :: insertNat n r

/-- Sort a list of numbers ascending, without repeats. -/
def sortNat (l : List Nat) : List Nat := l.foldl (fun acc n => insertNat n acc) []

/-- Replace the element at a position. -/
def setAt {α : Type} : List α → Nat → α → List α
  | [], _, _ => []
  | _ :: r, 0, v => v :: r
  | a :: r, n + 1, v => a :: setAt r n v

end Sys2Proof.Machine
end

