-- ==== Sys2Proof/Machine/Mailbox.lean ====
section
/-!
DEFINITION. Mailboxes (R75, R76), host memory as the device writes it, ring completions and the event rings (R329, R331).
-/
namespace Sys2Proof.Machine

/-- The mailbox context of a path in a block. -/
def State.mbx (s : State) (p : Path) (b : Nat) : Mbx := Tbl.getD (s.path p).mbx b .init

/-- Replace it. -/
def State.setMbx (s : State) (p : Path) (b : Nat) (m : Mbx) : State :=
  s.setPath p { s.path p with mbx := Tbl.put (s.path p).mbx b m }

/-- A request is written: BUSY rises, ERR and VALID fall, and a pending request is abandoned (R76). -/
def mbxAsk (s : State) (p : Path) (b sel tag : Nat) : State :=
  s.setMbx p b { s.mbx p b with sel := sel, tag := tag, valid := false, busy := true, err := false, errcode := 0, snap := none,
                                reqAt := s.now }

/-- A request fails: ERR with its code (Table 3-15). -/
def mbxFail (s : State) (p : Path) (b code : Nat) : State :=
  s.setMbx p b { s.mbx p b with busy := false, err := true, errcode := code, ansTag := (s.mbx p b).tag, snap := none }

/-- The owning island has captured a reply, which crosses back. -/
def mbxCapture (s : State) (p : Path) (b : Nat) (w : List Nat) : State :=
  s.setMbx p b { s.mbx p b with snap := some (w.map (· % 2 ^ 32)) }

/-- A request and its capture in the owning island: ERRCODE 3 with the island off, ERRCODE 1 where the block knows no such selector;
otherwise what `cap` captures. In an absent block nothing happens (R41). -/
def mbxServe (s : State) (p : Path) (b sel tag : Nat) (cap : State → Option (List Nat × State)) : State :=
  if !s.present b then s
  else if !s.blkOn b then mbxFail (mbxAsk s p b sel tag) p b 3
  else match cap (mbxAsk s p b sel tag) with
    | none => mbxFail (mbxAsk s p b sel tag) p b 1
    | some (w, s') => mbxCapture s' p b w

/-- The reply is stored and MBX_VALID sets (R76). -/
def mbxStore (s : State) (p : Path) (b : Nat) : State :=
  match (s.mbx p b).snap with
  | some w => s.setMbx p b { s.mbx p b with busy := false, valid := true, snap := none, words := w.length, data := w,
                                            ansTag := (s.mbx p b).tag }
  | none => s

/-- MBX_STAT as read. -/
def Mbx.stat (m : Mbx) : Word :=
  BitVec.ofNat 32 (b2n m.valid + 2 * b2n m.busy + 4 * b2n m.err + (m.words % 16) * 16 + (m.ansTag % 256) * 256 + (m.errcode % 16) * 65536)

/-- A data word as read: 0 at or above WORDS. -/
def Mbx.word (m : Mbx) (k : Nat) : Word := BitVec.ofNat 32 (m.data.getD k 0)

/-- The row MAILBOX_REPLY_STORED. -/
def execMailboxReplyStored (t : Nat) (path : Path) (blk : Nat) (s : State) : Host.Outcome State Fault Refusal :=
  .next (mbxStore (s.at t) path blk)

/-- The row MAILBOX_LAST_WORD_READ: MBX_VALID clears, the data words stay (R76). -/
def execMailboxLastWordRead (t : Nat) (path : Path) (blk : Nat) (s : State) : Host.Outcome State Fault Refusal :=
  .next ((s.at t).setMbx path blk { (s.at t).mbx path blk with valid := false })

/-- Whether a request has waited 20 µs without an answer (R75). -/
def mbxLate (s : State) (p : Path) (b : Nat) : Bool := (s.mbx p b).busy && decide ((s.mbx p b).reqAt + us 20 ≤ s.now)

/-- The row MAILBOX_TIMEOUT. -/
def execMailboxTimeout (t : Nat) (path : Path) (blk : Nat) (s : State) : Host.Outcome State Fault Refusal :=
  .next (if mbxLate (s.at t) path blk then mbxFail (s.at t) path blk 2 else s.at t)

/-! ### Host memory and ring completions -/

/-- Write bytes to host memory (posted writes of the PCIe function). -/
def hostPut (m : List Host.Cell) (a : Nat) : List Byte → List Host.Cell
  | [] => m
  | b :: r => hostPut (Tbl.put m a b) (a + 1) r

/-- The device writes host memory. -/
def State.hostWriteMem (s : State) (a : Nat) (bs : List Byte) : State :=
  { s with dma := { s.dma with hostMem := hostPut s.dma.hostMem a bs } }

/-- A ring's state beside its registers. -/
def State.ring (s : State) (r : Nat) : RingS := Tbl.getD s.dma.rings r .init
def State.setRing (s : State) (r : Nat) (x : RingS) : State := { s with dma := { s.dma with rings := Tbl.put s.dma.rings r x } }

/-- RING_PARAM of any ring. -/
def ringParam (r : Nat) : Nat := 0x0C10018 + 0x40 * r

/-- Host address of slot i of a ring (R318). -/
def ringSlot (s : State) (r i : Nat) : Nat :=
  s.fld (DMA.RING_BASE_LO r) DMA.RING_BASE_LO_ADDR_LO * 64 + (s.rd (DMA.RING_BASE_HI r)).toNat * 2 ^ 32 +
  32 * (i % 2 ^ s.fld (DMA.RING_SIZE r) DMA.RING_SIZE_LOG2)

/-- RING_CTL.EN, HEAD and TAIL. -/
def ringEn (s : State) (r : Nat) : Bool := s.flag (DMA.RING_CTL r) DMA.RING_CTL_EN
def ringHead (s : State) (r : Nat) : Nat := s.fld (DMA.RING_HEAD r) DMA.RING_HEAD_HEAD
def ringTail (s : State) (r : Nat) : Nat := s.fld (DMA.RING_TAIL r) DMA.RING_TAIL_TAIL

/-- Slots from HEAD to TAIL − 1. -/
def ringPosted (s : State) (r : Nat) : Nat := (ringTail s r + 65536 - ringHead s r) % 65536

/-- A counted completion of a ring: its vector is sent when the count reaches COUNT (R331). -/
def ringCount (s : State) (r : Nat) : State :=
  let vec := s.fld (DMA.RING_IRQ r) DMA.RING_IRQ_VEC
  if vec = 0 then s
  else if s.fld (DMA.RING_IRQ r) DMA.RING_IRQ_COUNT ≤ (s.ring r).cnt + 1 then
    (s.setRing r { s.ring r with cnt := 0 }).sendVector vec
  else s.setRing r { s.ring r with cnt := (s.ring r).cnt + 1
                                   cntFrom := if (s.ring r).cnt = 0 then s.now else (s.ring r).cntFrom }

/-- The 32 bytes of a record (Table 16-5). -/
def Rec.words (r : Rec) : List Nat :=
  [r.seq, r.opsec, r.pcyc, r.code % 65536 + r.sev % 8 * 2 ^ 16 + b2n r.fb * 2 ^ 19 + b2n r.copied * 2 ^ 20 + r.inst % 256 * 2 ^ 24,
   r.p.getD 0 0, r.p.getD 1 0, r.p.getD 2 0, r.p.getD 3 0]

/-- Words as little-endian bytes. -/
def bytesOfWords (l : List Nat) : List Byte := l.flatMap (leBytes 4)

/-- Bytes as little-endian words. -/
def wordsOfBytes (bs : List Byte) (n : Nat) : List Nat := (List.range n).map (fun k => leAt bs (4 * k) 4)

/-- Copy a numbered record to one event ring (R329). -/
def eventRing (s : State) (rec : Rec) (r : Nat) : State :=
  if ringEn s r && bit (s.rd (ringParam r)).toNat 0 && decide (DMA.RING_PARAM_CE_MIN_SEV.get (s.rd (ringParam r)) ≤ rec.sev) then
    if (ringHead s r + 65536 - ringTail s r) % 65536 = 2 ^ s.fld (DMA.RING_SIZE r) DMA.RING_SIZE_LOG2 then
      ({ s with dma := { s.dma with ctr := ctrAdd s.dma.ctr (4 * r + 1) 1 } }).raise (DMA.RING_CAUSE r) 5
    else
      let s1 := s.hostWriteMem (ringSlot s r (ringHead s r)) (bytesOfWords rec.words)
      let s2 := s1.setFld (DMA.RING_HEAD r) DMA.RING_HEAD_HEAD (ringHead s r + 1)
      ringCount { s2 with dma := { s2.dma with ctr := ctrAdd s2.dma.ctr (4 * r) 1 } } r
  else s

/-- Copy a numbered record to every event ring. -/
def eventRings (s : State) (rec : Rec) : State :=
  ((List.range 32).map (· + 224)).foldl (fun st r => eventRing st rec r) s

end Sys2Proof.Machine
end

