-- ==== Sys2Proof/Machine/Completion.lean ====
section
/-!
DEFINITION. How a command of the sequencer completes (R92, R96, R97, R98, R328), and the mode registers it shows.
-/
namespace Sys2Proof.Machine

/-- Mode codes of Table 4-1. -/
def Mode.code : Mode → Nat
  | .sleep => 0
  | .boot => 1
  | .load => 2
  | .run => 3
  | .hold => 4
  | .safe => 5

/-- SYS.MODE (Table 4-1). -/
def State.modeWord (s : State) : Nat :=
  s.cmd.mode.code + 8 * b2n (s.cmd.flowScoped && s.cmd.mode == .safe) + 16 * (s.cmd.prev % 8)

/-- Completion codes (Table 4-13). -/
def cOK : Nat := 0
def cILLEGAL : Nat := 1
def cQFULL : Nat := 2
def cBADOP : Nat := 3
def cBADARG : Nat := 4
def cLATE : Nat := 5
def cCANCELLED : Nat := 6
def cFAILED : Nat := 7
def cABSENT : Nat := 8

/-- SYS.CMD_DONE as a word (Table 4-12): PATH is 1 for PCIe and for rings. -/
def Cpl.word (c : Cpl) : Nat :=
  c.op % 256 + c.tag % 256 * 2 ^ 8 + c.status % 16 * 2 ^ 16 + (if c.src = .spi then 0 else 2 ^ 20) + c.detail % 2048 * 2 ^ 21

/-- A completion enters SYS.CMD_DONE: a full FIFO loses its oldest entry and sets DONE_LOST (R96). -/
def pushDone (s : State) (c : Cpl) : State :=
  if s.cmd.done.length < 32 then
    ({ s with cmd := { s.cmd with done := s.cmd.done ++ [c] } }).raise SYS.CMD_STATUS 16
  else
    (({ s with cmd := { s.cmd with done := s.cmd.done.drop 1 ++ [c] }, inst := { s.inst with done := s.inst.done - 1 } }).raise SYS.CMD_STATUS 17).raise SYS.CMD_STATUS 16

/-- A completion of a command fetched from a command ring (R328): written over its descriptor while the ring still runs as it did at
the fetch, otherwise discarded, counted and recorded. -/
def ringDone (s : State) (c : Cpl) (r slot gen : Nat) : State :=
  if ringEn s r && (s.ring r).gen == gen && !bit (s.rd (ringParam r)).toNat 0 then
    let s1 := s.hostWriteMem (ringSlot s r slot + 12) (leBytes 4 c.word)
    let s2 := s1.hostWriteMem (ringSlot s r slot + 28) (leBytes 4 (c.status % 16 + 2 ^ 31))
    ringCount { s2 with dma := { s2.dma with ctr := ctrAdd s2.dma.ctr (4 * r + 1) 1 } } r
  else
    (({ s with dma := { s.dma with ctr := ctrAdd s.dma.ctr (4 * r + 2) 1 } }).raise DMA.DMA_CAUSE 2).emit .pcie 0xA004 sevNOTICE r []

/-- A command completes. In SLEEP the always-on island holds up to 8 completions (R88). -/
def finish (s : State) (c : Cmd) (status detail : Nat) : State :=
  let cp : Cpl := ⟨c.op, c.tag, status, c.src, detail⟩
  match c.src with
  | .mirror => s
  | .ring r slot gen => ringDone s cp r slot gen
  | _ =>
    if s.cmd.mode = .sleep then
      if s.cmd.sleepDone.length < 8 then { s with cmd := { s.cmd with sleepDone := s.cmd.sleepDone ++ [cp] } }
      else { s with cmd := { s.cmd with sleepLost := true } }
    else pushDone s cp

/-- A command is refused: no side effect, a completion and a NOTICE with opcode, tag, path and mode (R98). -/
def reject (s : State) (c : Cmd) (status : Nat) : State :=
  (finish s c status 0).emit .control (if status = cQFULL then 0x0010 else 0x000F) sevNOTICE 0
    [c.op, c.tag, if c.src = .spi then 0 else 1, s.modeWord]

/-- A list of commands completes with one code, in order. -/
def finishAll (s : State) (l : List Cmd) (status : Nat) : State := l.foldl (fun st c => finish st c status 0) s

/-- A started command that completes leaves the started list. -/
def dropStarted (s : State) (c : Cmd) : State :=
  { s with cmd := { s.cmd with started := s.cmd.started.filter (fun x => x.cmd.order != c.order) } }

/-- A started command completes. -/
def finishStarted (s : State) (c : Cmd) (status detail : Nat) : State := finish (dropStarted s c) c status detail

end Sys2Proof.Machine
end

