-- ==== Sys2Proof/Machine/Waves.lean ====
section
/-!
DEFINITION. The waveforms of the clock outputs (R236 to R241): the own time of every source, the edges that PHASE places, what an output carries
now, and how a change takes effect without a glitch.
-/
namespace Sys2Proof.Machine

/-- The family of the placement in force: 0 for 48 kHz, 1 for 44.1 kHz (R117). -/
def State.family (s : State) : Nat := match s.place.now with | some p => p.family | none => 0

/-- The unit holds the solo roles: ACTIVE, or SOLO after its first successful APPLY (R241, R356). -/
def soloRole (s : State) : Bool := s.twin.role == .active || (s.twin.role == .solo && s.twin.solo)

/-- A frame-pulse generator, and replacing it. -/
def fpgOf (s : State) (k : Nat) : FpgS := Tbl.getD s.time.fpg k .init
def setFpg (s : State) (k : Nat) (x : FpgS) : State := { s with time := { s.time with fpg := Tbl.put s.time.fpg k x } }

/-- SRC of a generator: 5 to 7 act as 0. -/
def fpgSrc (s : State) (k : Nat) : Nat :=
  let v := s.fld (TIME.FPG_CTL k) TIME.FPG_CTL_SRC
  if 4 < v then 0 else v

/-- t0 of a generator, while it runs. -/
def fpgT0 (s : State) (k : Nat) : Option Nat :=
  if s.fld (TIME.FPG_NUM k) TIME.FPG_NUM_NUM = 0 ∨ (s.rd (TIME.FPG_DEN k)).toNat = 0 then none
  else if fpgSrc s k = 0 then some 0 else (fpgOf s k).t0

/-! ### Media synthesisers (R223, R224) -/

/-- Register addresses of MSY m, 0 to 3. -/
def msyCtlA (m : Nat) : Nat := 0x0200200 + 0x10 * m
def msyFreqA (m : Nat) : Nat := 0x0200204 + 0x10 * m

/-- A media synthesiser, and replacing it. -/
def msyOf (s : State) (m : Nat) : MsyS := Tbl.getD s.clk.msy m .init
def setMsy (s : State) (m : Nat) (x : MsyS) : State := { s with clk := { s.clk with msy := Tbl.put s.clk.msy m x } }

/-- FOLLOW of MSY m: MSY0 always follows. -/
def msyFollow (s : State) (m : Nat) : Bool := m == 0 || s.flag (msyCtlA m) CLK.MSY_CTL_FOLLOW

/-- The base frequency of a FAM code, in Hz. -/
def famHz (f : Nat) : Nat := if f = 0 then 48000 else if f = 1 then 44100 else 1000

/-- Nominal output of MSY m with the values in effect, in Hz (R223). -/
def msyHz (s : State) (m : Nat) : Nat := famHz (msyOf s m).fam * (msyOf s m).mult

/-! ### Time of a source -/

/-- The media time: the STC without its steps at once, which disturb no synthesiser (R224), in 2⁻⁵⁶ ns. -/
def mediaTime (s : State) : Int := (s.time.stc : Int) - s.time.jump

/-- The own time τ of MSY m in 2⁻⁵⁶ ns: it runs at (1 + y) with the STC while the synthesiser follows, at the rate of OSC_M with FOLLOW at 0, and at the
held rate after a loss of lock (R224, R235). The source has a rising edge at every whole multiple of 1 ÷ F_OUT,nom of τ. -/
def msyTau (s : State) (m : Nat) : Int :=
  match (msyOf s m).rate with
  | none => mediaTime s + (msyOf s m).off
  | some (e, since) => (msyOf s m).off + ((s.now - since : Nat) : Int) * ((2 : Int) ^ 40 + e)

/-- The number of the last edge of F_OUT of MSY m, counted from its phase origin: edge n falls n ÷ F_OUT,nom after it (R224). -/
def msyEdges (s : State) (m : Nat) : Int :=
  (msyTau s m - ((msyOf s m).origin : Int) * (stcSec 1 : Int)) * (msyHz s m : Int) / (stcSec 1 : Int)

/-- The own time of a source: MSY0 to MSY3, OSC_M, and the media time for a pulse. -/
def srcTau (s : State) (src : Nat) : Int :=
  if src < 4 then msyTau s src else if src = 4 then ((s.now * 2 ^ 40 + Config.oscPhase : Nat) : Int) else mediaTime s

/-- The source of what an output carries. -/
def Wave.src : Wave → Nat
  | .clock src _ _ _ => src
  | .pulse k _ _ _ _ => 5 + k
  | .unknown src => src

/-! ### The settings of an output -/

/-- A clock output, and replacing it. -/
def outOf (s : State) (n : Nat) : ClkOutS := Tbl.getD s.clk.outs n .init
def setOut (s : State) (n : Nat) (x : ClkOutS) : State := { s with clk := { s.clk with outs := Tbl.put s.clk.outs n x } }

/-- SRC of an output, and its source's nominal frequency for SRC 0 to 4. -/
def outSrc (s : State) (n : Nat) : Nat := s.fld (CLK.CLKOUT_CTL n) CLK.CLKOUT_CTL_SRC
def srcHz (s : State) (src : Nat) : Nat := if src < 4 then msyHz s src else 49152000

/-- The source of an output runs and gives edges at known instants. -/
def srcRuns (s : State) (src : Nat) : Bool :=
  if src < 4 then (msyOf s src).run && !(msyOf s src).relock else if src = 4 then true else if src < 9 then (fpgT0 s (src - 5)).isSome else false

/-- PHASE in force: ANCHOR with a source that does not follow acts as FREE; 3 acts as 0. -/
def outPhase (s : State) (n : Nat) : Nat :=
  let p := s.fld (CLK.CLKOUT_CTL n) CLK.CLKOUT_CTL_PHASE
  if p = 1 then (if outSrc s n < 4 ∧ msyFollow s (outSrc s n) = true then 1 else 0) else if p = 2 then 2 else 0

/-- SOLO_MAP names the output. -/
def outSolo (s : State) (n : Nat) : Bool := bit (s.fld CLK.SOLO_MAP CLK.SOLO_MAP_SOLO) n

/-- An output is to drive (R237, R239, R241). -/
def outDrives (s : State) (n : Nat) : Bool :=
  s.blkOn bCLK && s.flag (CLK.CLKOUT_CTL n) CLK.CLKOUT_CTL_EN && srcRuns s (outSrc s n) &&
  (decide (5 ≤ outSrc s n) || outPhase s n != 2 || (outOf s n).placed.isSome) && (!outSolo s n || soloRole s)

/-- DIV in force. -/
def outDiv (s : State) (n : Nat) : Nat := Nat.max 1 (s.fld (CLK.CLKOUT_DIV n) CLK.CLKOUT_DIV_DIV)

/-- The delay D of an output in 2⁻⁵⁶ ns (R238), rounded down. -/
def outDelay (s : State) (n : Nat) : Nat :=
  let w := s.rd (CLK.CLKOUT_DLY n)
  let fine := CLK.CLKOUT_DLY_FINE.get w * 2 ^ 56 / 40
  if outSrc s n < 5 then CLK.CLKOUT_DLY_COARSE.get w * stcSec 1 / Nat.max 1 (srcHz s (outSrc s n)) + fine
  else CLK.CLKOUT_DLY_COARSE.get w * 2 ^ 56 + fine

/-! ### Edges -/

/-- Quotient rounded up. -/
def ceilDiv (a b : Int) : Int := -((-a) / b)

/-- Rising edge j of a clock of `hz` divided by `div` whose edge 0 falls at `rise`, rounded down. -/
def riseAt (rise : Int) (div hz : Nat) (j : Int) : Int := rise + j * ((div * stcSec 1 : Nat) : Int) / (hz : Int)

/-- The number of the last rising edge of such a clock at or before an instant, and of the first one at or after it. -/
def lastRise (rise : Int) (div hz : Nat) (x : Int) : Int := (x - rise) * (hz : Int) / ((div * stcSec 1 : Nat) : Int)
def nextRise (rise : Int) (div hz : Nat) (x : Int) : Int := ceilDiv ((x - rise) * (hz : Int)) ((div * stcSec 1 : Nat) : Int)

/-- The high time of a clock output, in half cycles of its source (R236): DIV ÷ 2 cycles, or (DIV + 1) ÷ 2 for odd DIV; DIV 1 passes the source. -/
def highHalves (div : Nat) : Nat := if div = 1 then 1 else 2 * ((div + 1) / 2)

/-- Its falling edge after rising edge j. -/
def fallAt (rise : Int) (div hz : Nat) (j : Int) : Int := riseAt rise div hz j + ((highHalves div * stcSec 1 / (2 * hz) : Nat) : Int)

/-- The nominal half-period of an output as it is set, or its width on a pulse output (R237). -/
def halfOf (s : State) (n : Nat) : Int :=
  if outSrc s n < 5 then ((outDiv s n * stcSec 1 / (2 * srcHz s (outSrc s n)) : Nat) : Int) else ((outDiv s n * 2 ^ 56 : Nat) : Int)

/-- The first rising edge, not before `e`, that PHASE allows a clock output (R238, R240), in the time of its source. -/
def firstRise (s : State) (n : Nat) (e : Int) : Int :=
  let hz := srcHz s (outSrc s n)
  let d := (outDelay s n : Int)
  if outPhase s n = 1 then
    (let c := (s.time.stc : Int) - srcTau s (outSrc s n)
     riseAt d (outDiv s n) hz (nextRise d (outDiv s n) hz (e + c)) - c)
  else if outPhase s n = 2 then
    (let p := (outOf s n).placed.getD e
     riseAt p (outDiv s n) hz (nextRise p (outDiv s n) hz (if p ≤ e then e else p)))
  else riseAt d 1 hz (nextRise d 1 hz e)

/-- What an output carries once it starts, not before `e` in the time of its source; nothing where it does not drive. -/
def startWave (s : State) (n : Nat) (fresh : Bool) (e : Int) : Option Wave :=
  if !outDrives s n then none
  else if outSrc s n < 5 then some (.clock (outSrc s n) (firstRise s n e) (outDiv s n) fresh)
  else some (.pulse (outSrc s n - 5) (outDiv s n) (outDelay s n) e [])

/-! ### What an output carries now -/

/-- An output with what its last change has brought by now. -/
def outNow (s : State) (n : Nat) : ClkOutS :=
  let x := outOf s n
  match x.cur, x.stop with
  | some w, some e => if e ≤ srcTau s w.src then { x with cur := x.next, stop := none, next := none } else x
  | _, _ => x

/-- The pulse that is high now. -/
def pulseHigh (s : State) (width : Nat) (rises : List Int) : Option Int :=
  rises.find? (fun r => decide (r ≤ mediaTime s) && decide (mediaTime s < r + ((width * 2 ^ 56 : Nat) : Int)))

/-- A wave is high now. While its synthesiser relocks the level is a free value. -/
def Wave.high (s : State) : Wave → Bool
  | .clock src r d _ =>
    let j := lastRise r d (srcHz s src) (srcTau s src)
    decide (r ≤ srcTau s src) && decide (srcTau s src < fallAt r d (srcHz s src) j)
  | .pulse _ w _ _ rises => (pulseHigh s w rises).isSome
  | .unknown _ => Config.freeValue s.free % 2 == 1

/-- A wave has had its first rising edge. -/
def Wave.begun (s : State) : Wave → Bool
  | .clock src r _ fresh => !fresh || decide (r ≤ srcTau s src)
  | .pulse _ _ _ from_ _ => decide (from_ ≤ mediaTime s)
  | .unknown _ => true

/-- The level of a pin. -/
inductive PinLevel
  | low | high | highZ
deriving DecidableEq, Repr

/-- A pin that does not drive: high impedance for an output of SOLO_MAP (R241), else as IDLE says (R237). -/
def outIdle (s : State) (n : Nat) : PinLevel :=
  if outSolo s n || s.flag (CLK.CLKOUT_CTL n) CLK.CLKOUT_CTL_IDLE then .highZ else .low

/-- The pin of CLKOUTn now. -/
def outPin (s : State) (n : Nat) : PinLevel :=
  match (outNow s n).cur with
  | some w => if w.begun s then (if w.high s then .high else .low) else outIdle s n
  | none => outIdle s n

/-- CLKOUTn toggles or pulses (STATUS.RUNNING). -/
def outRunning (s : State) (n : Nat) : Bool := match (outNow s n).cur with | some w => w.begun s | none => false

/-! ### Changes (R237) -/

/-- When a wave ends for a change now: at the end of the present high time, or at the next falling edge (`fall`), which a pulse output may not know yet. -/
def Wave.ends (s : State) (fall : Bool) : Wave → Option Int
  | .clock src r d _ =>
    let x := srcTau s src
    let hz := srcHz s src
    let j := lastRise r d hz x
    if x < r then some x
    else if x < fallAt r d hz j then some (fallAt r d hz j)
    else if fall then some (fallAt r d hz (j + 1)) else some x
  | .pulse _ w _ _ rises =>
    match pulseHigh s w rises with
    | some r => some (r + ((w * 2 ^ 56 : Nat) : Int))
    | none =>
      if fall then ((rises.filter (fun r => decide (mediaTime s < r))).getLast?).map (fun r => r + ((w * 2 ^ 56 : Nat) : Int))
      else some (mediaTime s)
  | .unknown src => some (srcTau s src)

/-- An output changes: what it carries ends without a glitch, and what its settings now give follows, at least a half-period after the last fall and
`lead` (2⁻⁵⁶ ns) after now. -/
def outPlan (s : State) (n : Nat) (fall : Bool) (lead : Nat) : State :=
  let x := outNow s n
  let t := srcTau s (outSrc s n)
  match x.cur with
  | none => setOut s n { x with cur := startWave s n true (t + (lead : Int)), stop := none, next := none, wait := false }
  | some w =>
    match w.ends s fall with
    | none => setOut s n { x with wait := true }
    | some f =>
      let e := match x.stop with | some g => (if g ≤ f then g else f) | none => f
      let lag := e - srcTau s w.src + halfOf s n
      setOut s n { x with stop := some e, next := startWave s n false (t + (if lag ≤ (lead : Int) then (lead : Int) else lag)), wait := false }

/-- Two instants of a source that differ by whole periods of an output, to within 25 ps (R239). -/
def samePhase (s : State) (n : Nat) (a b : Int) : Bool :=
  let hz := srcHz s (outSrc s n)
  let r := b - riseAt a (outDiv s n) hz (lastRise a (outDiv s n) hz b)
  decide (r * 40 < (2 : Int) ^ 56) || decide ((riseAt 0 (outDiv s n) hz 1 - r) * 40 < (2 : Int) ^ 56)

/-- An output re-phases: nothing happens where its next edges already stand where PHASE places them. -/
def outRephase (s : State) (n : Nat) : State :=
  let kept := match (outNow s n).cur with
    | some (.clock src r d _) => src == outSrc s n && d == outDiv s n && (outNow s n).stop.isNone && samePhase s n r (firstRise s n (srcTau s src))
    | _ => false
  let s1 := if kept then s else outPlan s n false 0
  setOut s1 n { outOf s1 n with rephased := (outOf s1 n).rephased + 1 }

/-- ANCHOR outputs of MSY m (or of every synthesiser) re-phase (R238). -/
def rephase (s : State) (m : Option Nat) : State :=
  (List.range 16).foldl (fun st n =>
    if outPhase st n = 1 ∧ st.flag (CLK.CLKOUT_CTL n) CLK.CLKOUT_CTL_EN = true ∧ m.getD (outSrc st n) = outSrc st n then outRephase st n else st) s

/-- The outputs of a source change with it. -/
def outsOf (s : State) (src : Nat) (fall : Bool) : State :=
  (List.range 16).foldl (fun st n => if outSrc st n = src then outPlan st n fall 0 else st) s

/-- The outputs that carry solo roles, once the unit has taken or left them (R241). -/
def outsSolo (s : State) (was : Bool) : State :=
  if soloRole s = was then s else (List.range 16).foldl (fun st n => if outSolo st n then outPlan st n false 0 else st) s

/-- Generator k pulses at STC instant p: the outputs it feeds rise D later, but for one that is high then (R236). -/
def pulseOuts (s : State) (k : Nat) (p : Int) : State :=
  (List.range 16).foldl (fun st n =>
    match (outNow st n).cur with
    | some (.pulse k' w d from_ rises) =>
      let r := p - st.time.jump + d
      let ended := fun (q : Int) => q + ((w * 2 ^ 56 : Nat) : Int)
      if k' != k || decide (r < from_) || rises.any (fun q => decide (q ≤ r) && decide (r < ended q)) then st
      else
        let s1 := setOut st n { outNow st n with cur := some (.pulse k' w d from_ (r :: rises.filter (fun q => decide (mediaTime st < ended q)))) }
        if (outOf s1 n).wait then outPlan s1 n true 0 else s1
    | _ => st) s

/-- An instant in the own time of MSY m moves with that time. -/
def Wave.shift (m : Nat) (d : Int) : Wave → Wave
  | .clock src r v f => .clock src (if src = m then r + d else r) v f
  | w => w

/-- MSY m takes an own time τ and a rate; the edges of its outputs stand where they were. -/
def msyRetime (s : State) (m : Nat) (tau : Int) (rate : Option (Int × Nat)) : State :=
  let d := tau - msyTau s m
  let x := msyOf s m
  let s1 := setMsy s m { x with rate := rate, off := match rate with | none => tau - mediaTime s | some _ => tau }
  { s1 with clk := { s1.clk with outs := s1.clk.outs.map (fun (e : Nat × ClkOutS) =>
      (e.1, { e.2 with
        cur := e.2.cur.map (Wave.shift m d), next := e.2.next.map (Wave.shift m d)
        stop := if e.2.cur.map Wave.src = some m then e.2.stop.map (· + d) else e.2.stop
        placed := if outSrc s e.1 = m then e.2.placed.map (· + d) else e.2.placed })) } }

end Sys2Proof.Machine
end

