-- ==== Sys2Proof/Machine/Role.lean ====
section
/-!
DEFINITION. The twin unit's role (R355, R364, Table 14-8), its verdict (R350), and the comparison of digests (R349).
-/
namespace Sys2Proof.Machine

/-- Codes of TWIN_STATUS.ROLE, GANDER and HB_SYM (Table 14-12). -/
def Role.code : Role → Nat
  | .solo => 0
  | .active => 1
  | .standby => 2
  | .isolated => 3
def GSym.code : GSym → Nat
  | .lost => 0
  | .grant => 1
  | .standby => 2
  | .resync => 3
def HbSym.code : HbSym → Nat
  | .none => 0
  | .ok => 1
  | .diverge => 2
  | .yield => 3
  | .fail => 4

/-- The unit is a member of a pair (R48, R355). -/
def twinned (s : State) : Bool := s.present bTWIN && !s.chip.straps.arbEn && s.flag TWIN.TWIN_FORCE TWIN.TWIN_FORCE_EN

/-- The own verdict is FAIL while any indicator is 1 (R350). -/
def verdictFail (s : State) : Bool := s.twin.ind != 0

/-- The peer's role and GANDER as its last heartbeat shows them, while it is seen; 7 and 0 otherwise. -/
def peerRole (s : State) : Nat := if s.twin.peerSeen then (match s.twin.peer with | some h => h.role | none => 7) else 7
def peerGander (s : State) : Nat := match s.twin.peer with | some h => h.gander | none => 0

/-- Count on the twin unit, by selector × 4 + position (Table 14-11). -/
def twinCount (s : State) (k n : Nat) : State := { s with twin := { s.twin with ctr := ctrAdd s.twin.ctr k n } }

/-- Started commands complete, in order. -/
def finishEach (s : State) (l : List Cmd) (status detail : Nat) : State := l.foldl (fun st c => finishStarted st c status detail) s

/-- The unit takes a role (R355): ROLE_CHG and the record. A STANDBY that was ACTIVE takes the next mirror item as the start of the stream. ISOLATED is entered without a permission to rejoin; a GRANT clears REJOIN. A YIELD
completes when the unit leaves ACTIVE, a TAKEOVER when it becomes ACTIVE (R363). -/
def setRole (s : State) (r : Role) (trig : Nat) : State :=
  if s.twin.role = r then s
  else
    let old := s.twin.role
    let s1 := outsSolo { s with twin := { s.twin with role := r
                                                      rejoinOk := if r = Role.isolated then false else s.twin.rejoinOk
                                                      resync := .idle
                                                      resyncing := false
                                                      held := []
                                                      seqIn := if r = Role.standby ∧ old = Role.active then none else s.twin.seqIn
                                                      rejoinHeld := if r = Role.isolated then s.twin.rejoinHeld else false } } (soloRole s)
    let s2 := twinCount ((s1.raise TWIN.TWIN_CAUSE 0).emit .fabric 0xB009 sevNOTICE 0 [old.code, r.code, trig]) 6 1
    let s3 := if old = Role.isolated ∧ r = Role.active then s2.hwFld TWIN.TWIN_CTL TWIN.TWIN_CTL_REJOIN 0 else s2
    let s4 := if old = Role.active then
        finishEach { s3 with twin := { s3.twin with yield := [] } } (s3.twin.yield.filterMap (fun x => x.1)) cOK 0 else s3
    if r = Role.active then finishEach { s4 with twin := { s4.twin with takeover := [] } } (s4.twin.takeover.map (fun x => x.1)) cOK 0 else s4

/-- Whether FORCE keeps the unit ISOLATED. -/
def forceIsolated (s : State) : Bool := s.fld TWIN.TWIN_FORCE TWIN.TWIN_FORCE_FORCE == 1

/-- The role that Table 14-8 gives from the present one, with the trigger; `trig` names the change for which no row states one. -/
def roleTarget (s : State) (trig : Nat) : Role × Nat :=
  let g := s.twin.gander
  if forceIsolated s then (.isolated, 13)
  else match s.twin.role with
    | .solo => (.isolated, 14)
    | .isolated => if g = .grant then (.active, 1) else (.isolated, trig)
    | .standby =>
      if g = .grant then (.active, 1)
      else if verdictFail s then (.isolated, 3)
      else if g = .resync then (.isolated, 4)
      else if !s.twin.peerSeen && g == .lost then (.isolated, 6)
      else if !s.twin.timeOk then (.isolated, 10)
      else if !s.twin.paired then (.isolated, 11)
      else (.standby, trig)
    | .active =>
      let iso := !s.twin.yield.isEmpty && s.twin.yieldIso
      if g = .standby ∨ g = .resync then
        (if verdictFail s || iso then .isolated else .standby, if iso then 12 else if g = .standby then 5 else 4)
      else if g == .lost && peerRole s == 1 && !(s.chip.straps.unitSel == 0 && peerGander s == 0) then (.isolated, 7)
      else (.active, trig)

/-- The role follows what has changed (R355, R364, Table 14-8). In SLEEP it stands as it was entered. A forced ACTIVE keeps its role while neither
Gander nor the peer is seen, and then returns to the rules. -/
def refreshRole (s : State) (trig : Nat) : State :=
  if s.cmd.mode = .sleep then s
  else if !twinned s then setRole { s with twin := { s.twin with forced := false } } .solo (if trig = 16 then 16 else 14)
  else if s.twin.forced then
    if s.twin.gander ≠ .lost ∨ s.twin.peerSeen = true then
      let s1 := { s with twin := { s.twin with forced := false } }
      setRole s1 (roleTarget s1 15).1 15
    else setRole s .active 13
  else setRole s (roleTarget s trig).1 (roleTarget s trig).2

/-! ### Digests (R349) -/

/-- The clean interval starts anew (R362); one that was complete is remembered (R361). -/
def restartClean (s : State) : State :=
  let done := s.twin.cmpAt.isSome && decide (s.twin.cleanFrom + secs (s.fld TWIN.RESYNC_CTL TWIN.RESYNC_CTL_CLEAN_S) ≤ s.now)
  { s with twin := { s.twin with cleanFrom := s.now, cleanSeen := s.twin.cleanSeen || done } }

/-- A mismatch of digests: the first since MISMATCH was last 0 is captured and recorded, the clean interval starts anew, and the verdict for it
is the one in force 200 µs later. -/
def mismatch (s : State) (d : Digest) : State :=
  let s0 := restartClean s
  let s1 := twinCount { s0 with twin := { s0.twin with misAt := s0.twin.misAt ++ [s0.now] } } 1 1
  if bit (s.rd TWIN.TWIN_CAUSE).toNat 3 then s1
  else
    let w := d.index % 2 ^ 11 + 2 ^ 11 * b2n d.block + d.k % 2 ^ 20 * 2 ^ 12
    ((s1.wr TWIN.MISMATCH_INFO (BitVec.ofNat 32 w)).raise TWIN.TWIN_CAUSE 3).emit .fabric 0xB006 sevWARNING 0 []

/-- Two digests of one item. -/
def compareDigests (s : State) (a b : Digest) : State :=
  let s1 := twinCount { s with twin := { s.twin with cmpAt := some s.now } } 0 1
  if a.crc = b.crc then s1 else mismatch s1 a

/-- Whether two digests are of one item. -/
def sameItem (a b : Digest) : Bool := a.block == b.block && a.index == b.index && a.k == b.k

/-- Digests are computed and compared (R349). -/
def digestsOn (s : State) : Bool := s.twin.paired && s.twin.role != .solo && s.blkOn bTWIN

/-- A local digest is built: it is sent to the peer and compared with the peer's, now or when that arrives. -/
def digestBuilt (s : State) (d : Digest) : State :=
  if digestsOn s then
    let s1 := if s.twin.lanes = 0 then s else { s with twin := { s.twin with out := .digest d :: s.twin.out } }
    match s1.twin.peerD.find? (fun x => sameItem x.d d) with
    | some p => compareDigests { s1 with twin := { s1.twin with peerD := s1.twin.peerD.filter (fun x => !sameItem x.d d) } } d p.d
    | none => { s1 with twin := { s1.twin with localD := s1.twin.localD ++ [⟨d, s.now⟩] } }
  else s

/-- A digest of the peer arrives. -/
def digestArrived (s : State) (d : Digest) : State :=
  if digestsOn s then
    match s.twin.localD.find? (fun x => sameItem x.d d) with
    | some p => compareDigests { s with twin := { s.twin with localD := s.twin.localD.filter (fun x => !sameItem x.d d) } } p.d d
    | none => { s with twin := { s.twin with peerD := s.twin.peerD ++ [⟨d, s.now⟩] } }
  else s

/-- Digests whose counterpart has not come within 2 ms are missing; a missing one restarts the clean interval (R349, R362). -/
def digestsMissing (s : State) : State :=
  let old := fun (x : DigRec) => decide (x.at_ + ms 2 ≤ s.now)
  let n := (s.twin.localD.filter old).length + (s.twin.peerD.filter old).length
  let s1 := { s with twin := { s.twin with localD := s.twin.localD.filter (fun x => !old x), peerD := s.twin.peerD.filter (fun x => !old x) } }
  if n = 0 then s1 else twinCount (restartClean s1) 2 n

/-- The verdict for a mismatch is the one in force 200 µs after it: with PASS the unit sends DIVERGE within 10 ms of the mismatch (R350, R351). It is
taken before the verdict changes after that. -/
def verdictSettle (s : State) : State :=
  let due := fun (m : Nat) => decide (m + us 200 ≤ s.now)
  { s with twin := { s.twin with
      misAt := s.twin.misAt.filter (fun m => !due m)
      divTill := if verdictFail s then s.twin.divTill else (s.twin.misAt.filter due).foldl (fun a m => Nat.max a (m + ms 10)) s.twin.divTill } }

end Sys2Proof.Machine
end

