-- ==== Sys2Proof/Machine/Nand.lean ====
section
/-!
DEFINITION. The NAND array: partitions, pages with their metadata, blocks, retirement and the failure of the medium (R394, R395, R397 to R399, R411,
R412), and the programming of log pages (R398, R410).
-/
namespace Sys2Proof.Machine

/-! ### Partitions and pages -/

/-- Replace the NAND manager's state. -/
def State.withNand (s : State) (n : NandS) : State := { s with nand := n }

/-- Sizes of the partitions in MB for a total density in Gbit (Table 16-2); the header is partition 0. -/
def partSize (gbit p : Nat) : Nat :=
  if p = 0 then 1
  else if p = 1 ∨ p = 2 ∨ p = 3 then if gbit < 2 then 12 else if gbit < 4 then 24 else 32
  else if p = 4 then if gbit < 2 then 8 else 16
  else if p = 5 then 64
  else if p = 6 then
    gbit * 128 - (1 + 3 * (if gbit < 2 then 12 else if gbit < 4 then 24 else 32) + (if gbit < 2 then 8 else 16) + 64)
  else 0

/-- Start of a partition in MB. -/
def partBase (gbit p : Nat) : Nat := ((List.range p).map (partSize gbit)).foldl (· + ·) 0

/-- Bytes of a partition. -/
def partBytes (s : State) (p : Nat) : Nat := partSize s.nand.gbit p * 2 ^ 20

/-- Key of a byte of a partition, of a page, and of a sector. -/
def nandKey (p off : Nat) : Nat := p * 2 ^ 32 + off
def pageKey (p page : Nat) : Nat := p * 2 ^ 20 + page
def sectorKey (p page sec : Nat) : Nat := 4 * pageKey p page + sec

/-- One byte of a container partition or of LOG; an unprogrammed byte reads 0xFF. -/
def nandByte (s : State) (p off : Nat) : Byte := Tbl.getD s.nand.cells (nandKey p off) 0xFF

/-- n bytes of a container partition. -/
def nandBytes (s : State) (p off n : Nat) : List Byte := (List.range n).map (fun k => nandByte s p (off + k))

/-- Program bytes. -/
def programCells (c : List Host.Cell) (k : Nat) : List Byte → List Host.Cell
  | [] => c
  | b :: r => programCells (Tbl.set c 0xFF k b) (k + 1) r

/-- Whether a page of a partition has been programmed. -/
def pageUsed (s : State) (p page : Nat) : Bool := (s.nand.pages.find (pageKey p page)).isSome

/-- Bytes and pages of a block, and pages and blocks of a partition. -/
def pageLen (s : State) : Nat := Nat.max 1 s.nand.pageSize
def blkPages (s : State) : Nat := Nat.max 1 s.nand.ppb
def partPages (s : State) (p : Nat) : Nat := partBytes s p / pageLen s
def partBlks (s : State) (p : Nat) : Nat := partPages s p / blkPages s

/-- A page is programmed: it takes its metadata and counts (R395). -/
def programMeta (s : State) (p page kind : Nat) : State :=
  { s with nand := { s.nand with pages := Tbl.put s.nand.pages (pageKey p page) ⟨kind, page / blkPages s, s.nand.progs⟩
                                 progs := (s.nand.progs + 1) % 2 ^ 32, ctr := ctrAdd s.nand.ctr 1 1 } }

/-! ### Logical and physical blocks (R397) -/

/-- First physical block of a partition. -/
def physBase (s : State) (p : Nat) : Nat := partBase s.nand.gbit p * 2 ^ 20 / (pageLen s * blkPages s)

/-- The physical block of a logical block; none where it has lost its place. -/
def physOf (s : State) (p lb : Nat) : Option Nat :=
  if s.nand.gone.contains (pageKey p lb) then none else some (Tbl.getD s.nand.map (pageKey p lb) (physBase s p + lb))

/-- The logical block that a physical block holds, as partition × 2^20 + block. -/
def logicalOf (s : State) (b : Nat) : Option Nat :=
  match s.nand.map.find? (fun e => e.2 == b) with
  | some e => some e.1
  | none =>
    match (List.range 6).find? (fun p => decide (physBase s p ≤ b) && decide (b < physBase s p + partBlks s p)) with
    | some p =>
      let k := pageKey p (b - physBase s p)
      if (s.nand.map.find k).isSome || s.nand.gone.contains k then none else some k
    | none => none

/-- The free blocks of SPARE: the good blocks that hold no logical block. -/
def spareBlocks (s : State) : List Nat :=
  (List.range s.nand.blocks).filter (fun b => !s.nand.retired.contains b && (logicalOf s b).isNone)

/-- Erase count of a physical block; the block of a list with the lowest one, of equal ones the first. -/
def wearOf (s : State) (b : Nat) : Nat := Tbl.getD s.nand.wear b 0
def leastWorn (s : State) : List Nat → Option Nat
  | [] => none
  | b :: r => some (r.foldl (fun x y => if wearOf s y < wearOf s x then y else x) b)

/-- A physical block is erased; it is then at its endurance, or not. -/
def eraseBlock (s : State) (b : Nat) : State :=
  { s with nand := { s.nand with wear := Tbl.put s.nand.wear b (wearOf s b + 1), ctr := ctrAdd s.nand.ctr 2 1 } }
def wornOut (s : State) (b : Nat) : Bool := s.nand.endurance != 0 && decide (s.nand.endurance ≤ wearOf s b)

/-- The programmed pages of a logical block. -/
def blockPages (s : State) (p lb : Nat) : List Nat :=
  (s.nand.pages.filter (fun e => e.1 / 2 ^ 20 == p && e.1 % 2 ^ 20 / blkPages s == lb)).map (fun e => e.1)

/-- What the pages of a logical block hold is gone. -/
def wipeBlock (s : State) (p lb : Nat) : State :=
  let page := fun (k : Nat) => k / 2 ^ 20 == p && k % 2 ^ 20 / blkPages s == lb
  { s with nand := { s.nand with
      pages := s.nand.pages.filter (fun e => !page e.1)
      bad := s.nand.bad.filter (fun k => !page (k / 4))
      cells := s.nand.cells.filter (fun e => !(e.1 / 2 ^ 32 == p && e.1 % 2 ^ 32 / (pageLen s * blkPages s) == lb)) } }

/-- The valid pages of a block are copied to another: they are read, and programmed anew. -/
def copyPages (s : State) (key : Nat) : State :=
  let l := blockPages s (key / 2 ^ 20) (key % 2 ^ 20)
  l.foldl (fun st k => programMeta st (k / 2 ^ 20) (k % 2 ^ 20) ((Tbl.getD st.nand.pages k ⟨0, 0, 0⟩).kind))
    { s with nand := { s.nand with ctr := ctrAdd s.nand.ctr 0 l.length } }

/-! ### The fall-back area and the failure of the medium (R411, R412) -/

/-- Serial order of sequence numbers (R407): a is at or after b. -/
def seqGe (a b : Nat) : Bool := decide ((a + 2 ^ 32 - b) % 2 ^ 32 < 2 ^ 31)

/-- Insert a record in serial order of sequence numbers; sort so. -/
def insertRec (r : Rec) : List Rec → List Rec
  | [] => [r]
  | x :: l => if seqGe x.seq r.seq then r :: x :: l else x :: insertRec r l
def sortRecs (l : List Rec) : List Rec := l.foldl (fun acc r => insertRec r acc) []

/-- Take a record into the fall-back area (R411). -/
def toFallback (s : State) (r : Rec) (pending : Bool) : State :=
  let x := { r with fb := true, page := 0 }
  let q := s.recorder
  let q1 := if q.fbFirst.length < 128 then { q with fbFirst := q.fbFirst ++ [x] }
            else { q with fbCirc := (if q.fbCirc.length < 384 then q.fbCirc else q.fbCirc.drop 1) ++ [x] }
  ({ s with recorder := if pending then { q1 with pend := q1.pend ++ [r.seq] } else q1 }).raise LOG.LOG_CAUSE 3

/-- Send a record to the fall-back area as a pending one: every record taken there while the medium has failed (R412). -/
def placeFallback (s : State) (r : Rec) : State := toFallback s r true

/-- The snapshot of a path, and replacing it. -/
def snapOf (s : State) (p : Path) : Option Snap := match p with | .spi => s.recorder.snapSpi | .pcie => s.recorder.snapPcie
def setSnap (s : State) (p : Path) (x : Option Snap) : State :=
  match p with
  | .spi => { s with recorder := { s.recorder with snapSpi := x } }
  | .pcie => { s with recorder := { s.recorder with snapPcie := x } }

/-- A path's snapshot is lost. -/
def loseSnap (s : State) (p : Path) : State :=
  match snapOf s p with
  | some _ => (setSnap s p none).raise LOG.LOG_CAUSE 6
  | none => s

/-- A path's snapshots are lost, both paths. -/
def loseSnaps (s : State) : State := loseSnap (loseSnap s .spi) .pcie

/-- The hold queue follows into the fall-back area, but for what a freeze holds back. -/
def holdToFallback (s : State) : State :=
  if s.recorder.frozen then s
  else s.recorder.hold.foldl placeFallback { s with recorder := { s.recorder with hold := [], holdRun := false } }

/-- A record that the recorder numbers at once. -/
def numbered (s : State) (code sev : Nat) (p : List Nat) : Rec := ⟨s.recorder.nextSeq, s.recorder.opsec, s.recorder.pcyc, code, sev, 0, false, false, p, 0⟩

/-- The medium fails (R412): LOG_MEDIUM_FAULT into the fall-back area unless MIN_SEV discards it, then the unprogrammed records; the log is degraded,
transfers end with MEDIUM, snapshots are lost. -/
def mediumFail (s : State) (cause block : Nat) : State :=
  if s.nand.fault then s
  else
    let r := numbered s 0xD001 5 [cause, block, 0, 0]
    let s1 := { s with recorder := { s.recorder with degraded := true, wbuf := [], wbufSince := none }
                       nand := { s.nand with fault := true, ready := false, failAt := some s.now, retrying := false } }
    let s2 :=
      if 5 < s.fld LOG.LOG_CTL LOG.LOG_CTL_MIN_SEV then s1
      else
        let n := { s1 with recorder := { s1.recorder with nextSeq := (s.recorder.nextSeq + 1) % 2 ^ 32 } }
        placeFallback (eventRings n r) r
    let s3 := s.recorder.wbuf.foldl placeFallback s2
    loseSnaps (holdToFallback ((s3.raise LOG.LOG_CAUSE 0).raise STORE.STORE_CAUSE 0))

/-! ### Retirement and erasure (R397, R398) -/

/-- A logical block takes another physical block, with its valid pages. -/
def moveBlock (s : State) (key b : Nat) : State := copyPages { s with nand := { s.nand with map := Tbl.put s.nand.map key b } } key

/-- A free block of a partition: the last logical block without a programmed page, other than `key`. -/
def freeInPart (s : State) (key : Nat) : Option Nat :=
  let p := key / 2 ^ 20
  ((List.range (partBlks s p)).reverse.map (pageKey p)).find? (fun k =>
    k != key && (physOf s p (k % 2 ^ 20)).isSome && (blockPages s p (k % 2 ^ 20)).isEmpty)

/-- The record of a retirement. -/
def retireNote (s : State) : State := (s.raise STORE.STORE_CAUSE 2).emit .control 0xD00B sevWARNING 0 []

/-- A physical block is retired: the free block of SPARE with the lowest erase count takes its place, or where there is none a free block of its own
partition, which then is one block smaller; the medium fails where there is neither. -/
def retireBlock (s : State) (b : Nat) : State :=
  if s.nand.retired.contains b then s
  else
    let s1 := { s with nand := { s.nand with retired := b :: s.nand.retired } }
    match logicalOf s b with
    | none => retireNote s1
    | some k =>
      match leastWorn s1 (spareBlocks s1) with
      | some r => retireNote (moveBlock s1 k r)
      | none =>
        match freeInPart s1 k with
        | some f =>
          let r := (physOf s1 (f / 2 ^ 20) (f % 2 ^ 20)).getD 0
          retireNote (moveBlock { s1 with nand := { s1.nand with gone := f :: s1.nand.gone, map := Tbl.del s1.nand.map f } } k r)
        | none => mediumFail s1 4 b

/-- A logical block is erased; at its endurance its physical block is retired. -/
def eraseLogical (s : State) (p lb : Nat) : State :=
  match physOf s p lb with
  | none => s
  | some b =>
    let s1 := eraseBlock (wipeBlock s p lb) b
    if wornOut s1 b then retireBlock s1 b else s1

/-- The blocks of a partition are erased. Erasing STATE takes the images and the always-on copy with it (R401). -/
def eraseCells (s : State) (p : Nat) : State :=
  let s1 := (List.range (partBlks s p)).foldl (fun st lb => eraseLogical st p lb) s
  if p = 4 then
    { s1 with nand := { s1.nand with images := [], slot0 := none, slot1 := none }, aon := { s1.aon with journal := none } }
  else s1

/-! ### Log pages (R398, R410) -/

/-- Records per page. -/
def recsPerPage (s : State) : Nat := pageLen s / 32

/-- The page of LOG after a given one: blocks in rotation, without those that have lost their place. -/
def skipGone (s : State) : Nat → Nat → Nat
  | 0, pg => pg
  | n + 1, pg => if s.nand.gone.contains (pageKey 5 (pg / blkPages s)) then skipGone s n ((pg + blkPages s) % Nat.max 1 (partPages s 5)) else pg
def logNext (s : State) (pg : Nat) : Nat := skipGone s (partBlks s 5) ((pg + 1) % Nat.max 1 (partPages s 5))

/-- A page of LOG is programmed with records, in ascending order; slots without one stay erased. -/
def logWrite (s : State) (l : List Rec) : State :=
  let pg := s.recorder.logPage
  let rs := sortRecs l
  let s1 := programMeta s 5 pg 4
  { s1 with nand := { s1.nand with cells := programCells s1.nand.cells (nandKey 5 (pg * pageLen s)) (bytesOfWords (rs.flatMap Rec.words)) }
            recorder := { s1.recorder with main := s1.recorder.main ++ rs.map (fun x => { x with page := pg + 1 }), logPage := logNext s pg } }

/-- Records are programmed, page by page. When a block is full the block after the next one is reclaimed: its records that still stand are written
again, and it is erased. -/
def programRecs : Nat → State → List Rec → State
  | 0, s, _ => s
  | n + 1, s, l =>
    if l = [] then s
    else if s.nand.fault then l.foldl placeFallback s
    else
      let s1 := logWrite s (l.take (recsPerPage s))
      let rest := l.drop (recsPerPage s)
      let blk := s1.recorder.logPage / blkPages s
      let nb := logNext s1 (blk * blkPages s + blkPages s - 1) / blkPages s
      if s1.recorder.logPage % blkPages s = 0 ∧ blockPages s1 5 nb ≠ [] then
        let here := fun (r : Rec) => (r.page - 1) / blkPages s == nb
        let s2 := { s1 with recorder := { s1.recorder with main := s1.recorder.main.filter (fun r => !here r) } }
        programRecs n (eraseLogical s2 5 nb) ((s1.recorder.main.filter here).map (fun r => { r with page := 0 }) ++ rest)
      else programRecs n s1 rest

/-- Program the records of the write buffer, one page (R410). -/
def programPage (s : State) : State :=
  if s.recorder.wbuf = [] then s
  else
    let n := recsPerPage s
    let rest := s.recorder.wbuf.drop n
    programRecs 65536 { s with recorder := { s.recorder with wbuf := rest, wbufSince := if rest = [] then none else some s.now } }
      (s.recorder.wbuf.take n)

end Sys2Proof.Machine
end

