-- ==== Sys2Proof/Machine/Recorder.lean ====
section
/-!
DEFINITION. The event recorder and the reading of the log (chapter 16, R406 to R417).
-/
namespace Sys2Proof.Machine

/-- Records the main log holds at most (R410). -/
def logCAP : Nat := 1835008

/-- The main log is in use: the medium is ready and PD1 is up (R409). -/
def logReady (s : State) : Bool := s.nand.ready && !s.recorder.degraded && s.domOn 1

/-- The main log as it is read: programmed records and the write buffer. -/
def mainLog (r : RecS) : List Rec := sortRecs (r.main ++ r.wbuf)

/-- A victim at or below the newest number of a path's snapshot is held for it (R414): the snapshot is lost at 262,144 of them. -/
def snapVictim (sn : Option Snap) (seq : Nat) : Option Snap × Bool :=
  match sn with
  | none => (none, false)
  | some x =>
    if seqGe x.snapSeq seq then
      if 262144 ≤ x.victims + 1 then (none, true) else (some { x with victims := x.victims + 1 }, false)
    else (some x, false)

/-- Account one victim to both snapshots. -/
def noteVictim (s : State) (seq : Nat) : State :=
  let a := snapVictim s.recorder.snapSpi seq
  let b := snapVictim s.recorder.snapPcie seq
  let s1 := { s with recorder := { s.recorder with snapSpi := a.1, snapPcie := b.1 } }
  if a.2 || b.2 then s1.raise LOG.LOG_CAUSE 6 else s1

/-- The victim that a record of severity sev displaces (R410). -/
def victimOf (r : RecS) (sev : Nat) : Option Rec :=
  match (mainLog r).find? (fun x => decide (x.sev < sev)) with
  | some v => some v
  | none => if sev = 5 then none else (mainLog r).find? (fun x => decide (x.sev = sev))

/-- Remove a record of the main log by its number. -/
def dropSeq (r : RecS) (seq : Nat) : RecS :=
  { r with main := r.main.filter (fun x => x.seq != seq), wbuf := r.wbuf.filter (fun x => x.seq != seq) }

/-- A record enters the main log (R410): at once programmed when it fills a page or is CRITICAL. -/
def mainAdd (s : State) (r : Rec) : State :=
  let s0 :=
    if s.recorder.main.length + s.recorder.wbuf.length < logCAP then some { s with recorder := { s.recorder with noVictim := false } }
    else match victimOf s.recorder r.sev with
      | some v => some (noteVictim { s with recorder := { dropSeq s.recorder v.seq with noVictim := false } } v.seq)
      | none => none
  match s0 with
  | none =>
    let s1 := (toFallback s r false).raise LOG.LOG_CAUSE 5
    if s1.recorder.noVictim then s1
    else ({ s1 with recorder := { s1.recorder with noVictim := true } }).emit .aon 0xD004 sevERROR 0 []
  | some s1 =>
    let s2 := { s1 with recorder := { s1.recorder with wbuf := s1.recorder.wbuf ++ [r]
                                                       wbufSince := if s1.recorder.wbuf = [] then some s1.now
                                                                    else s1.recorder.wbufSince } }
    if recsPerPage s2 ≤ s2.recorder.wbuf.length ∨ r.sev = 5 then programPage s2 else s2

/-- A record enters the hold queue, or the fall-back area when the queue is full (R409, path 1). -/
def toHold (s : State) (r : Rec) : State :=
  if s.recorder.hold.length < 64 then
    let s1 := { s with recorder := { s.recorder with hold := s.recorder.hold ++ [r] } }
    if s.recorder.holdRun then s1.raise LOG.LOG_CAUSE 4 else s1
  else
    let s1 := (toFallback s r true).raise LOG.LOG_CAUSE 4
    if s.recorder.holdRun then s1
    else ({ s1 with recorder := { s1.recorder with holdRun := true } }).emit .aon 0xD005 sevWARNING 0 []

/-- The path a numbered record takes (R409). -/
def placeRec (s : State) (r : Rec) : State :=
  if s.recorder.frozen || (!logReady s && !s.recorder.degraded) || decide (256 ≤ s.recorder.wbuf.length) then toHold s r
  else if s.recorder.degraded then placeFallback s r
  else mainAdd s r

/-- Lowest and highest of a list of sequence numbers. -/
def seqMin (l : List Nat) : Nat := l.foldl (fun a b => if seqGe a b then b else a) (l.headD 0)
def seqMax (l : List Nat) : Nat := l.foldl (fun a b => if seqGe a b then a else b) (l.headD 0)

/-- Copy the pending records still in the fall-back area into the main log, in order, and write LOG_GAP for those overwritten (R412). -/
def copyPending (s : State) : State :=
  let fb := s.recorder.fbFirst ++ s.recorder.fbCirc
  let there := sortRecs (fb.filter (fun r => s.recorder.pend.contains r.seq))
  let lost := s.recorder.pend.filter (fun q => !fb.any (fun r => r.seq == q))
  let s1 := there.foldl (fun st r => mainAdd st { r with fb := false, copied := true }) { s with recorder := { s.recorder with pend := [] } }
  if lost = [] then s1
  else (s1.raise LOG.LOG_CAUSE 2).emit .aon 0xD003 sevWARNING 0 [seqMin lost, seqMax lost, lost.length]

/-- The hold queue drains, in order, once its path is open (R409): to the main log, or to the fall-back area after a medium failure.
After a run that overflowed the pending records follow. -/
def drainHold (s : State) : State :=
  if s.recorder.frozen || (!logReady s && !s.recorder.degraded) || decide (256 ≤ s.recorder.wbuf.length) then s
  else
    let ran := s.recorder.holdRun
    let s0 := { s with recorder := { s.recorder with hold := [], holdRun := false } }
    if s.recorder.degraded then s.recorder.hold.foldl placeFallback s0
    else
      let s1 := s.recorder.hold.foldl mainAdd s0
      if ran then copyPending s1 else s1

/-- Number an event (R407) and send its record on its way: nothing for one below MIN_SEV. -/
def record (s : State) (e : Ev) : State :=
  if e.sev < s.fld LOG.LOG_CTL LOG.LOG_CTL_MIN_SEV then s
  else
    let r : Rec := ⟨s.recorder.nextSeq, s.recorder.opsec, s.recorder.pcyc, e.code, e.sev, e.inst, false, false, e.p, 0⟩
    let s1 := { s with recorder := { s.recorder with nextSeq := (s.recorder.nextSeq + 1) % 2 ^ 32 } }
    placeRec (eventRings s1 r) r

/-- The oldest event of an island, and the queue without it. -/
def takeEv (isl : Island) : List Ev → Option (Ev × List Ev)
  | [] => none
  | e :: r => if e.isl = isl then some (e, r) else (takeEv isl r).map (fun x => (x.1, e :: x.2))

/-- The place of an island in Table 1-1, from top to bottom: the media MACs A before B, the tiles by ascending index (R23). -/
def islRank : Island → Nat
  | .macA => 0
  | .macB => 1
  | .macM => 2
  | .stream => 3
  | .tile k => 4 + k
  | .time => 2 ^ 32
  | .control => 2 ^ 32 + 1
  | .aport => 2 ^ 32 + 2
  | .pcie => 2 ^ 32 + 3
  | .fabric => 2 ^ 32 + 4
  | .aon => 2 ^ 32 + 5

/-- Put an island into a list that is in the order of Table 1-1. -/
def insertIsl (i : Island) : List Island → List Island
  | [] => [i]
  | x :: r => if islRank x ≤ islRank i then x :: insertIsl i r else i :: x :: r

/-- The oldest record of an island, if one is crossing, is numbered. -/
def recordOne (s : State) (isl : Island) : State :=
  match takeEv isl s.recorder.evq with
  | some (e, r) => record { s with recorder := { s.recorder with evq := r } } e
  | none => s

/-- The row EVENT_RECORD: in one always-on cycle the oldest record of each of these islands completes its crossing. They are numbered in the order
of Table 1-1 (R23, R407, R409). An island named twice has its two oldest records numbered in the order in which it produced them. -/
def execEventRecord (t : Nat) (isls : List Island) (s : State) : Host.Outcome State Fault Refusal :=
  .next ((isls.foldl (fun l i => insertIsl i l) []).foldl recordOne (s.at t))

/-- The row LOG_PAGE_TIMER: 100 ms after the first unprogrammed record arrived, the page is programmed (R410); the hold queue follows if
the full write buffer held it up. -/
def execLogPageTimer (t : Nat) (s : State) : Host.Outcome State Fault Refusal :=
  .next (match (s.at t).recorder.wbufSince with
    | some w => if w + ms 100 ≤ (s.at t).now && logReady (s.at t) && !(s.at t).recorder.frozen then drainHold (programPage (s.at t)) else s.at t
    | none => s.at t)

/-- The row OPSEC_TICK: OPSEC counts every whole second with VDD_AON applied (R416). -/
def execOpsecTick (t : Nat) (s : State) : Host.Outcome State Fault Refusal :=
  .next (if (s.at t).chip.aonOn then
    { s.at t with recorder := { (s.at t).recorder with opsec := ((s.at t).recorder.opsec + 1) % 2 ^ 32 } } else s.at t)

/-! ### Freeze and thaw (R415) -/

/-- LOG_FREEZE takes effect. -/
def freezeLog (s : State) : State :=
  if s.recorder.frozen then s
  else ({ s with recorder := { s.recorder with frozen := true } }).emit .aon 0xD006 sevNOTICE 0 []

/-- A freeze ends: the hold queue drains, pending records are copied, and the loss is written. -/
def thawDrain (s : State) : State :=
  let s1 := { s with recorder := { s.recorder with frozen := false } }
  let s2 := drainHold s1
  if logReady s2 then copyPending s2 else s2

/-- LOG_THAW takes effect. -/
def thawLog (s : State) : State :=
  if s.recorder.frozen then (thawDrain s).emit .aon 0xD007 sevNOTICE 0 [] else s

/-! ### The LOG mailbox (R413, R414) -/

/-- Oldest and newest sequence numbers of a list in order; 0 where the list is empty (log entry 20). -/
def oldestSeq (l : List Rec) : Nat := match l with | [] => 0 | r :: _ => r.seq
def newestSeq (l : List Rec) : Nat := match l.getLast? with | some r => r.seq | none => 0

/-- Set a path's cursor. -/
def setCursor (s : State) (p : Path) (n : Nat) : State := s.setPath p { s.path p with rdSeq := n % 2 ^ 32 }

/-- Hardware moves a path's cursor: the whole register is written anew, its parity included (R72). -/
def moveCursor (s : State) (p : Path) (n : Nat) : State :=
  setCursor { s with host := { s.host with corrupt := s.host.corrupt.filter (fun c => c.addr != LOG.RD_SEQ || c.own != some p) } } p n

/-- The next record at or after the cursor, or END. -/
def nextRec (s : State) (p : Path) (l : List Rec) : List Nat × State :=
  match l.find? (fun r => seqGe r.seq (s.path p).rdSeq) with
  | some r => (r.words, moveCursor s p (r.seq + 1))
  | none => ([1], s)

/-- A read of a snapshot: LOST where the path has none; otherwise the next record, and the read restarts the 60 s. -/
def snapRead (s : State) (p : Path) (sel : Snap → List Rec) : List Nat × State :=
  match snapOf s p with
  | none => ([2], s)
  | some x => nextRec (setSnap s p (some { x with lastRead := s.now })) p (sel x)

/-- What the LOG mailbox captures (Table 16-7). -/
def logCapture (p : Path) (sel : Nat) (s : State) : Option (List Nat × State) :=
  let l := mainLog s.recorder
  if sel = 0x0000 then some ([oldestSeq l, newestSeq l, l.length, logCAP], s)
  else if sel = 0x0001 then some (nextRec s p l)
  else if sel = 0x0010 then
    if logReady s then
      some ([0, newestSeq l, oldestSeq l, l.length],
        setSnap s p (some ⟨l, sortRecs (s.recorder.fbFirst ++ s.recorder.fbCirc ++ s.recorder.hold), newestSeq l, s.now, 0⟩))
    else some ([1, newestSeq l, oldestSeq l, l.length],
        setSnap s p (some ⟨[], sortRecs (s.recorder.fbFirst ++ s.recorder.fbCirc ++ s.recorder.hold), newestSeq l, s.now, 0⟩))
  else if sel = 0x0011 then some (snapRead s p Snap.main)
  else if sel = 0x0012 then some (snapRead s p Snap.fb)
  else if sel = 0x0013 then some ([0], setSnap s p none)
  else none

/-- A request of the LOG mailbox. -/
def logMbx (s : State) (p : Path) (sel tag : Nat) : State := mbxServe s p bLOG sel tag (logCapture p sel)

/-- The rows of the LOG mailbox: selectors 0x0000, 0x0001, 0x0010, 0x0011, 0x0012 and 0x0013. -/
def execLogSummary (t : Nat) (path : Path) (tag : Nat) (s : State) : Host.Outcome State Fault Refusal :=
  .next (logMbx (s.at t) path 0x0000 tag)
def execLogLiveRead (t : Nat) (path : Path) (tag : Nat) (s : State) : Host.Outcome State Fault Refusal :=
  .next (logMbx (s.at t) path 0x0001 tag)
def execSnapOpen (t : Nat) (path : Path) (tag : Nat) (s : State) : Host.Outcome State Fault Refusal :=
  .next (logMbx (s.at t) path 0x0010 tag)
def execSnapNext (t : Nat) (path : Path) (tag : Nat) (s : State) : Host.Outcome State Fault Refusal :=
  .next (logMbx (s.at t) path 0x0011 tag)
def execSnapFbNext (t : Nat) (path : Path) (tag : Nat) (s : State) : Host.Outcome State Fault Refusal :=
  .next (logMbx (s.at t) path 0x0012 tag)
def execSnapClose (t : Nat) (path : Path) (tag : Nat) (s : State) : Host.Outcome State Fault Refusal :=
  .next (logMbx (s.at t) path 0x0013 tag)

/-- The row SNAP_TIMEOUT: 60 s without a snapshot read on the path (R414). -/
def execSnapTimeout (t : Nat) (path : Path) (s : State) : Host.Outcome State Fault Refusal :=
  .next (match snapOf (s.at t) path with
    | some x => if x.lastRead + secs 60 ≤ (s.at t).now then loseSnap (s.at t) path else s.at t
    | none => s.at t)

end Sys2Proof.Machine
end

