-- ==== Sys2Proof/Machine/Storage.lean ====
section
/-!
DEFINITION. The NAND manager: start-up, format, retry, reading with correction, patrol and SCRUB, transfers (chapter 16, R392 to R403, R412).
-/
namespace Sys2Proof.Machine

/-! ### Format (R397, R399, R401) -/

/-- Every main-log record is removed, and both snapshots are lost (R401, R414). -/
def clearLog (s : State) : State :=
  loseSnaps { s with recorder := { s.recorder with main := [], wbuf := [], wbufSince := none, noVictim := false } }

/-- The bad-block table is built: the blocks with a factory marker join those retired, every partition takes its own blocks again, and a free block
of SPARE stands in for each that is bad. -/
def buildTable (s : State) : State :=
  let bad := sortNat (s.nand.retired ++ s.nand.marked)
  let s1 := { s with nand := { s.nand with retired := bad, map := [], gone := [] } }
  bad.foldl (fun st b =>
    match logicalOf st b with
    | some k =>
      if k / 2 ^ 20 = 0 then st
      else match leastWorn st (spareBlocks st) with
        | some r => { st with nand := { st.nand with map := Tbl.put st.nand.map k r } }
        | none => { st with nand := { st.nand with gone := k :: st.nand.gone } }
    | none => st) s1

/-- Every good block outside the header is erased; those at their endurance are retired. -/
def eraseAll (s : State) : State :=
  let l := ((List.range s.nand.blocks).drop (physBase s 1)).filter (fun b => !s.nand.retired.contains b)
  let s1 := { s with
    nand := { s.nand with
      wear := s.nand.wear.filter (fun e => !l.contains e.1) ++ l.map (fun b => (b, wearOf s b + 1)), ctr := ctrAdd s.nand.ctr 2 l.length
      cells := [], pages := s.nand.pages.filter (fun e => decide (e.1 < 2 ^ 20)), bad := s.nand.bad.filter (fun k => decide (k < 2 ^ 22)), fresh := []
      images := [], slot0 := none, slot1 := none }
    aon := { s.aon with journal := none } }
  (l.filter (wornOut s1)).foldl retireBlock s1

/-- Both copies of the header are written, in its first two good blocks (R399). -/
def writeHeader (s : State) : State :=
  let l := ((List.range (partBlks s 0)).filter (fun b => !s.nand.retired.contains b)).take 2
  l.foldl (fun st b => programMeta (eraseBlock (wipeBlock st 0 b) b) 0 (b * blkPages s) 5) s

/-- FORMAT. -/
def formatNand (s : State) : State :=
  let s1 := clearLog (writeHeader (eraseAll (buildTable s)))
  (s1.raise STORE.STORE_CAUSE 5).emit .control 0xD00A sevNOTICE 0 []

/-! ### Start-up and recovery (R393, R399, R412, R416) -/

/-- The geometry checks of R393. -/
def geomOk (g : NandGeom) : Bool :=
  g.oneBit && (g.pageSize == 2048 || g.pageSize == 4096) && decide (2 + 78 * (g.pageSize / 1024) ≤ g.spare) &&
  (g.ppb == 64 || g.ppb == 128) && decide (1 ≤ g.gbit) && decide (g.gbit ≤ 16) && decide (g.ecc ≤ 40)

/-- The counters are restored after a loss of VDD_AON, from what can be read (R416). -/
def restoreCounters (s : State) (readable : Bool) : State :=
  if !s.chip.coreLost then s
  else
    let log := if readable then sortRecs s.recorder.main else []
    let trailer := if readable then ((s.nand.images.filter (fun i => i.trailer)).map (fun i => i.opsec)).head? else none
    let last := log.getLast?
    let op := match last, trailer with
      | some r, some o => Nat.max r.opsec o + 1
      | some r, none => r.opsec + 1
      | none, some o => o + 1
      | none, none => 0
    let pc := match last with | some r => r.pcyc + 1 | none => 1
    let sq := match last with | some r => (r.seq + 1) % 2 ^ 32 | none => 0
    ({ s with chip := { s.chip with coreLost := false }
              recorder := { s.recorder with opsec := op % 2 ^ 32, pcyc := pc % 2 ^ 32, nextSeq := sq } }).emit .aon 0xD009 sevWARNING 0
      [op, pc, sq]

/-- The interface and the timing mode: the fastest that the part and the bank voltage support; with VDDIO1 at 3.3 V asynchronous SDR only (R45,
R393, Table 16-1). -/
def nandIface (s : State) (g : NandGeom) : Nat × Nat :=
  match g.ddr2, bit s.chip.iov 1 with
  | some m, false => (2, Nat.min m 7)
  | _, _ => (1, Nat.min g.sdr 5)

/-- The manager takes the medium into use with a geometry. -/
def useNand (s : State) (g : NandGeom) : State :=
  { s with nand := { s.nand with present := true, ready := true, fault := false, geomErr := false, failAt := none, retrying := false,
                                 pageSize := g.pageSize, ppb := g.ppb, blocks := g.gbit * 2 ^ 27 / Nat.max 1 (g.pageSize * g.ppb), gbit := g.gbit
                                 iface := (nandIface s g).1, tmode := (nandIface s g).2, ce1 := g.ce1, endurance := g.endurance, marked := g.marked } }

/-- The start-up sequence of R393 ends with what it found. Records still pending from before the start follow the hold queue. -/
def nandStart (s : State) (g : NandGeom) : State :=
  if !geomOk g then mediumFail (restoreCounters { s with nand := { s.nand with present := true, geomErr := true } } false) 3 (2 ^ 32 - 1)
  else if g.headerOk then copyPending (drainHold (restoreCounters (useNand s g) true))
  else if g.headerErased then copyPending (drainHold (restoreCounters (formatNand (useNand s g)) true))
  else mediumFail (restoreCounters { s with nand := { s.nand with present := true } } false) 2 (2 ^ 32 - 1)

/-- The last operations of a retry: a free block is programmed and erased. -/
def retryBlock (s : State) : State :=
  match leastWorn s (spareBlocks s) with
  | some b => { eraseBlock s b with nand := { (eraseBlock s b).nand with ctr := ctrAdd (eraseBlock s b).nand.ctr 1 1, progs := (s.nand.progs + 1) % 2 ^ 32 } }
  | none => s

/-- The medium recovers (R412): DEGRADED clears, pending records are copied and the loss is written. -/
def nandRecover (s : State) (g : NandGeom) : State :=
  let s1 := retryBlock (useNand { s with recorder := { s.recorder with degraded := false } } g)
  let s2 := ((s1.raise LOG.LOG_CAUSE 1).raise STORE.STORE_CAUSE 1).emit .control 0xD002 sevNOTICE 0 []
  copyPending (drainHold s2)

/-- The row NAND_OP_TIMEOUT: an operation has not completed within 10 ms; during a retry the retry fails (R412). -/
def execNandOpTimeout (t : Nat) (block : Option Nat) (s : State) : Host.Outcome State Fault Refusal :=
  .next (
    if !(s.at t).blkOn bSTORE then s.at t
    else if (s.at t).nand.retrying then
      { s.at t with nand := { (s.at t).nand with retrying := false, failAt := some (s.at t).now } }
    else mediumFail { s.at t with nand := { (s.at t).nand with present := true } } 1 (block.getD (2 ^ 32 - 1)))

/-- The row MEDIUM_RETRY: 10 s after the failure or the last failed retry (R412). -/
def execMediumRetry (t : Nat) (s : State) : Host.Outcome State Fault Refusal :=
  .next (match (s.at t).nand.failAt with
    | some f => if (s.at t).blkOn bSTORE && (s.at t).nand.fault && decide (f + secs 10 ≤ (s.at t).now) then { s.at t with nand := { (s.at t).nand with retrying := true } }
                else s.at t
    | none => s.at t)

/-- The row MEDIUM_RETRY_END: with a medium found the log recovers; otherwise the next retry is 10 s away (R412). -/
def execMediumRetryEnd (t : Nat) (found : Option NandGeom) (s : State) : Host.Outcome State Fault Refusal :=
  .next (
    if !((s.at t).blkOn bSTORE && (s.at t).nand.retrying) then s.at t
    else match found with
      | some g =>
        if geomOk g && (g.headerOk || g.headerErased) then
          nandRecover (if g.headerOk then s.at t else formatNand (useNand (s.at t) g)) g
        else { s.at t with nand := { (s.at t).nand with retrying := false, failAt := some (s.at t).now } }
      | none => { s.at t with nand := { (s.at t).nand with retrying := false, failAt := some (s.at t).now } })

/-! ### Reading with correction (R394, R396) -/

/-- Pages of an image: the records of every register with a retained field (279,392 bytes) and the trailer, in whole pages (R404; log
entry 99). -/
def imagePages (s : State) : Nat := cdiv (279392 + 32) (pageLen s)

/-- An uncorrectable log page: its records are removed and LOG_GAP is written (R412). -/
def dropLogPage (s : State) (page : Nat) : State :=
  let lost := (s.recorder.main.filter (fun r => r.page == page + 1)).map (fun r => r.seq)
  if lost = [] then s
  else (({ s with recorder := { s.recorder with main := s.recorder.main.filter (fun r => r.page != page + 1) } }).raise LOG.LOG_CAUSE 2).emit
    .control 0xD003 sevWARNING 0 [seqMin lost, seqMax lost, lost.length]

/-- An image of n pages with a page that reads uncorrectable no longer reads with its CRC correct; without its last page it is no image. -/
def spoilImage (n page : Nat) (i : Image) : Image :=
  if i.page ≤ page ∧ page < i.page + n then { i with good := false, trailer := i.trailer && page + 1 != i.page + n } else i

/-- The images that have a given page of STATE are spoilt. -/
def spoilImages (s : State) (page : Nat) : State :=
  let f := spoilImage (imagePages s) page
  { s with nand := { s.nand with images := s.nand.images.map f, slot0 := s.nand.slot0.map f, slot1 := s.nand.slot1.map f } }

/-- A block is rewritten: its valid pages move to a freshly erased block, and the old block is erased. A block whose pages keep failing straight after a
rewrite is retired (R397). Without a free block nothing is moved. -/
def rewriteBlock (s : State) (p lb : Nat) : State :=
  let key := pageKey p lb
  match physOf s p lb with
  | none => s
  | some old =>
    if s.nand.fresh.contains key then retireBlock { s with nand := { s.nand with fresh := s.nand.fresh.filter (fun k => k != key) } } old
    else match leastWorn s (spareBlocks s) with
      | none => s
      | some b =>
        let s1 := eraseBlock (moveBlock s key b) old
        let s2 := { s1 with nand := { s1.nand with ctr := ctrAdd s1.nand.ctr 3 1, fresh := key :: s1.nand.fresh } }
        (if wornOut s2 old then retireBlock s2 old else s2).emit .control 0xD00C sevINFO 0 []

/-- A page of a partition is read, with the error counts of its sectors. A sector of an erased page with at most 8 zero bits reads as erased; one with
more than 40 errors, or an erased one with more zero bits, is uncorrectable; 24 or more corrected bits have the block rewritten. -/
def pageRead (s : State) (key : Nat) (errs : List Nat) : State :=
  let p := key / 2 ^ 20
  let pg := key % 2 ^ 20
  let used := pageUsed s p pg
  let isBad := fun (e : Nat) => if used then decide (40 < e) else decide (8 < e)
  let bads := (List.range errs.length).filter (fun i => isBad (errs.getD i 0))
  let fixed := if used then (errs.filter (fun e => !isBad e)).foldl (· + ·) 0 else 0
  let s1 := { s with nand := { s.nand with ctr := ctrAdd (ctrAdd (ctrAdd s.nand.ctr 0 1) 4 fixed) 5 bads.length } }
  let s2 :=
    if bads = [] then s1
    else
      let a := { s1 with nand := { s1.nand with bad := (bads.map (sectorKey p pg)).filter (fun k => !s1.nand.bad.contains k) ++ s1.nand.bad } }
      let b := ((if p = 4 ∧ used = true then spoilImages a pg else a).raise STORE.STORE_CAUSE 3).emit .control 0xD00D sevERROR 0 [p, pg]
      if p = 5 then dropLogPage b pg else b
  let blk := pageKey p (pg / blkPages s)
  if used && errs.any (fun e => decide (24 ≤ e) && !isBad e) then rewriteBlock s2 p (pg / blkPages s)
  else { s2 with nand := { s2.nand with fresh := s2.nand.fresh.filter (fun k => k != blk) } }

/-- The programmed pages of the partitions, in patrol order. -/
def patrolPages (s : State) : List Nat := (s.nand.pages.map (fun e => e.1)).filter (fun k => decide (2 ^ 20 ≤ k))

/-- The row PATROL_READ: the patrol reads its next programmed page and finds the error counts `errs` in its sectors (R396). -/
def execPatrolRead (t : Nat) (errs : List Nat) (s : State) : Host.Outcome State Fault Refusal :=
  .next (
    let s0 := s.at t
    let l := patrolPages s0
    if s0.blkOn bSTORE && s0.nand.ready && l != [] then
      let i := if s0.nand.patrol < l.length then s0.nand.patrol else 0
      pageRead { s0 with nand := { s0.nand with patrol := (i + 1) % l.length } } (l.getD i 0) errs
    else s0)

/-- Reading pages one after another, each with its error counts. -/
def readPages (s : State) (l : List Nat) (errs : List (List Nat)) : State :=
  (l.zip (List.range l.length)).foldl (fun st e => pageRead st e.1 (errs.getD e.2 [])) s

/-! ### SCRUB (R402) -/

/-- Partitions named by SCRUB: one, or all for 0. -/
def scrubParts (arg : Nat) : List Nat := if arg = 0 then [1, 2, 3, 4, 5] else [arg]

/-- A SCRUB's read ends: every programmed page of its partitions has been read, with the error counts `errs`. OK, or FAILED with DETAIL 1 where an
uncorrectable sector was found. The next SCRUB begins. -/
def scrubEnd (s : State) (errs : List (List Nat)) : State :=
  match s.nand.scrub with
  | none => s
  | some p =>
    let l := (patrolPages s).filter (fun k => (scrubParts p).contains (k / 2 ^ 20))
    let found := l.any (fun k => s.nand.bad.any (fun b => b / 4 == k)) || (List.range l.length).any (fun i => (errs.getD i []).any (fun e => decide (40 < e)))
    let s1 := readPages { s with nand := { s.nand with scrub := none } } l errs
    match s1.cmd.started.find? (fun x => x.cmd.op == 0x12) with
    | some x =>
      let s2 := finishStarted s1 x.cmd (if found then cFAILED else cOK) (b2n found)
      { s2 with nand := { s2.nand with scrub := (s2.cmd.started.find? (fun y => y.cmd.op == 0x12)).map (fun y => y.cmd.arg0) } }
    | none => s1

/-- The row NAND_OP_COMPLETE (R393, R397). -/
def execNandOpComplete (t : Nat) (outcome : NandOutcome) (s : State) : Host.Outcome State Fault Refusal :=
  .next (
    if !(s.at t).blkOn bSTORE then s.at t
    else match outcome with
      | .started g => if (s.at t).nand.present then s.at t else nandStart (s.at t) g
      | .pass errs => if (s.at t).nand.ready then drainHold (scrubEnd (s.at t) errs) else s.at t
      | .fail er b =>
        if (s.at t).nand.ready then
          retireBlock { s.at t with nand := { (s.at t).nand with ctr := ctrAdd (s.at t).nand.ctr (if er then 7 else 6) 1 } } b
        else s.at t)

/-! ### Transfers (R400) -/

/-- Status codes of XFER_CTL.STATUS (Table 16-3). -/
def xOK : Nat := 0
def xBADARG : Nat := 1
def xPROTECTED : Nat := 2
def xNOTERASED : Nat := 3
def xINUSE : Nat := 4
def xMEDIUM : Nat := 5
def xUNCORR : Nat := 6
def xRANGE : Nat := 7

/-- A LOAD reads from a partition. -/
def loadReads (s : State) (p : Nat) : Bool := match s.cmd.loading with | some l => l.src == p | none => false

/-- Write the words of the transfer buffer. -/
def setXferBuf (s : State) (i : Nat) : List Nat → State
  | [] => s
  | w :: r => setXferBuf (s.wr (STORE.XFER_BUF i) (BitVec.ofNat 32 w)) (i + 1) r

/-- The pages a range of a partition lies in. -/
def rangePages (ps off len : Nat) : List Nat := (List.range ((off + len - 1) / ps - off / ps + 1)).map (· + off / ps)

/-- The words of a range of a partition. Words of a sector that reads uncorrectable, and those of an image, whose bytes the spec lays out in part
only, are free values (log entry 21). -/
def readWords (s : State) (p off : Nat) : Nat → List Nat × State
  | 0 => ([], s)
  | n + 1 =>
    let pg := off / pageLen s
    if s.nand.bad.contains (sectorKey p pg (off % pageLen s / 1024)) || (p == 4 && pageUsed s 4 pg) then
      ((s.takeFree 32).1 :: (readWords (s.takeFree 32).2 p (off + 4) n).1, (readWords (s.takeFree 32).2 p (off + 4) n).2)
    else (leAt (nandBytes s p off 4) 0 4 :: (readWords s p (off + 4) n).1, (readWords s p (off + 4) n).2)

/-- The sectors a range of a partition lies in. -/
def rangeSectors (s : State) (p off len : Nat) : List Nat :=
  (List.range ((off + len - 1) / 1024 - off / 1024 + 1)).map (fun i =>
    let o := (off / 1024 + i) * 1024
    sectorKey p (o / pageLen s) (o % pageLen s / 1024))

/-- A READ: its pages are read with the error counts `errs`, and the range goes into the buffer from word 0; a sector that reads uncorrectable gives
UNCORR, and the rest is delivered. -/
def xferRead (s : State) (p off len : Nat) (errs : List (List Nat)) : State × Nat :=
  let s1 := readPages s ((rangePages (pageLen s) off len).map (pageKey p)) errs
  let bad := (rangeSectors s p off len).any (fun k => s1.nand.bad.contains k)
  let r := readWords s1 p off (len / 4)
  (setXferBuf r.2 0 r.1, if bad then xUNCORR else xOK)

/-- A PROGRAM of pages that are erased: the buffer, the last page padded with 0xFF (which the erased cells hold). -/
def xferProgram (s : State) (p off len : Nat) : State × Nat :=
  let pgs := rangePages (pageLen s) off len
  if pgs.any (pageUsed s p) then (s, xNOTERASED)
  else
    let bytes := bytesOfWords ((List.range (len / 4)).map (fun k => (s.rd (STORE.XFER_BUF k)).toNat))
    (pgs.foldl (fun st g => programMeta st p g 1) { s with nand := { s.nand with cells := programCells s.nand.cells (nandKey p off) bytes } }, xOK)

/-- A range touches a block that has lost its place (R397). -/
def rangeGone (s : State) (p off len : Nat) : Bool :=
  (rangePages (pageLen s) off len).any (fun g => s.nand.gone.contains (pageKey p (g / blkPages s)))

/-- How a transfer ends. -/
def xferRun (s : State) (p op off len : Nat) (errs : List (List Nat)) : State × Nat :=
  if p = 0 ∨ 6 < p ∨ len % 4 ≠ 0 ∨ len < 4 ∨ 65536 < len then (s, xBADARG)
  else if op = 1 ∧ 4 ≤ p then (s, xPROTECTED)
  else if s.nand.fault ∨ !s.nand.ready then (s, xMEDIUM)
  else if op = 1 ∧ off % pageLen s ≠ 0 then (s, xBADARG)
  else if partBytes s p < off + len ∨ rangeGone s p off len = true then (s, xRANGE)
  else if op = 1 ∧ loadReads s p then (s, xINUSE)
  else if op = 1 then xferProgram s p off len
  else xferRead s p off len errs

/-- The row XFER_COMPLETE: BUSY clears, STATUS holds the outcome and XFER_DONE sets (R400). For a READ, `errs` holds the error counts of the sectors of
each page of the range. -/
def execXferComplete (t : Nat) (errs : List (List Nat)) (s : State) : Host.Outcome State Fault Refusal :=
  .next (match if (s.at t).blkOn bSTORE then (s.at t).nand.xfer else none with
    | some (p, op, off, len) =>
      let r := xferRun (s.at t) p op off len errs
      ({ r.1 with nand := { r.1.nand with xfer := none, xferBusy := false, xferStatus := r.2 } }).raise STORE.STORE_CAUSE 4
    | none => s.at t)

/-- A write of XFER_CTL: PART and OP are stored; GO starts a transfer and clears when it is taken; GO while BUSY is ignored (R400). -/
def xferCtlWrite (s : State) (v : Nat) : State :=
  let s1 := s.wr STORE.XFER_CTL (BitVec.ofNat 32 (v % 16))
  if bit v 4 && !s.nand.xferBusy then
    { s1 with nand := { s1.nand with xferBusy := true
                                     xfer := some (v % 8, v / 8 % 2, (s.rd STORE.XFER_OFF).toNat, s.fld STORE.XFER_LEN STORE.XFER_LEN_LEN) } }
  else s1

/-- A keyed write of STORE.KEYED (R401). -/
def keyedWrite (s : State) (v : Nat) : State :=
  let done (st : State) (code : Nat) : State := { st with nand := { st.nand with xferStatus := code } }
  let p := v % 8
  if bit v 4 then
    if s.nand.fault || !s.nand.ready then done s xMEDIUM
    else if (s.cmd.loading.map (fun l => decide (1 ≤ l.src ∧ l.src ≤ 3))).getD false then done s xINUSE
    else done (formatNand s) xOK
  else if bit v 3 then
    if p = 0 ∨ 6 ≤ p then done s xBADARG
    else if s.nand.fault || !s.nand.ready then done s xMEDIUM
    else if loadReads s p then done s xINUSE
    else
      let s1 := (eraseCells s p).emit .control 0xD00E sevNOTICE 0 []
      done (if p = 5 then (clearLog s1).emit .aon 0xD008 sevNOTICE 0 [] else s1) xOK
  else s

/-- The STORE mailbox (R403): NAND counts, cleared at the snapshot. -/
def storeCapture (sel : Nat) (s : State) : Option (List Nat × State) :=
  if sel = 0 ∨ sel = 1 then
    let r := rcTake s.nand.ctr s.inst.ctrNand (ctrKeys sel)
    some (r.1.flatMap words64, { s with nand := { s.nand with ctr := r.2.1 }, inst := { s.inst with ctrNand := r.2.2 } })
  else none

/-- The row STORE_COUNTER_READ. -/
def execStoreCounterRead (t : Nat) (path : Path) (sel tag : Nat) (s : State) : Host.Outcome State Fault Refusal :=
  .next (mbxServe (s.at t) path bSTORE sel tag (storeCapture sel))

end Sys2Proof.Machine
end

