-- ==== Sys2Proof/Machine/Blocks.lean ====
section
/-!
DEFINITION. Mode changes and SAFE entry (R78, R79, R82), block reset and power domains (R100, R419), and what the outputs carry
(R72, R81).
-/
namespace Sys2Proof.Machine

/-! ### Modes -/

/-- What the mode makes of the outputs (R81, R82): live in RUN, until step 1 of SLEEP entry mutes them (R89). SAFE entered from RUN leaves them live
while it is flow-scoped, and otherwise as each block's policy says; outputs that were muted when SAFE was entered stay muted (log entry 22). -/
def outsAs (s : State) : OutsAs :=
  if s.cmd.mode = .run then (if s.cmd.sleepQuiet then .muted else .live)
  else if s.cmd.mode = .safe ∧ s.cmd.safeLive = true then (if s.cmd.flowScoped then .live else .byPolicy)
  else .muted

/-- The outputs have changed from what they were in `old`: that is kept for the media instants before now (R81). -/
def noteOuts (old s : State) : State :=
  if outsAs old = outsAs s ∧ old.cmd.groups = s.cmd.groups then s
  else { s with cmd := { s.cmd with outs := (⟨s.time.stc, outsAs old, old.cmd.groups⟩ :: s.cmd.outs).take 16 } }

/-- Whether the causes standing are all flow-scoped: TILE_FAULT (bit 5), or PARITY (bit 3) from active table entries only (R82). -/
def flowCauses (cause : Nat) (parityDev : Bool) : Bool :=
  !bit cause 0 && !bit cause 1 && !bit cause 2 && !bit cause 4 && !(bit cause 3 && parityDev)

/-- A check indicator of the twin unit rises (R350); it falls 10 s after the last occurrence of its cause, SAFE when the device leaves
device-wide SAFE. A rise of the verdict to FAIL sets CHECK_FAIL and is recorded. -/
def indicate (s' : State) (b : Nat) : State :=
  let s := verdictSettle s'
  if s.blkOn bTWIN then
    let i := setBit s.twin.ind b true
    let s1 := { s with twin := { s.twin with ind := i, indTill := Tbl.put s.twin.indTill b (s.now + secs 10) } }
    refreshRole (if s.twin.ind = 0 then (s1.raise TWIN.TWIN_CAUSE 4).emit .fabric 0xB007 sevERROR 0 [i] else s1) 3
  else s

/-- The SAFE indicator follows the mode. -/
def safeIndicator (s : State) : State :=
  if s.cmd.mode == .safe && !s.cmd.flowScoped then (if bit s.twin.ind 8 then s else indicate s 8)
  else
    let s1 := verdictSettle s
    { s1 with twin := { s1.twin with ind := setBit s1.twin.ind 8 false } }

/-- Change to a mode (R78): PREV, MODE_CHG, the record, and the instant at which the outputs change. The sequencer judges its commands
again before it takes another (`dirty`). -/
def changeMode (s : State) (m : Mode) : State :=
  if s.cmd.mode = m then s
  else
    let s1 := noteOuts s { s with cmd := { s.cmd with
      mode := m, prev := s.cmd.mode.code, flowScoped := m == .safe && flowCauses s.cmd.safeCause s.cmd.parityDev
      safeLive := m == .safe && outsAs s == .live, dirty := true, modeStc := s.time.stc } }
    let s2 := safeIndicator (s1.raise SYS.CMD_STATUS 18)
    if m = .safe then (s2.raise SYS.CMD_STATUS 19).emit .control 0x0008 sevCRITICAL 0 [s2.modeWord]
    else s2.emit .control 0x0007 sevNOTICE 0 [s2.modeWord]

/-- Bits of SAFE_CAUSE (Table 4-2). -/
def scFUSE : Nat := 0
def scTEST : Nat := 1
def scNOCONFIG : Nat := 2
def scPARITY : Nat := 3
def scLOCKSTEP : Nat := 4
def scTILE : Nat := 5

/-- A SAFE cause stands (R79, R82). `dev` is false for a parity mismatch of an active table entry. In RUN, HOLD and LOAD the device
enters SAFE; a device-wide cause makes a flow-scoped SAFE device-wide. -/
def safeCause (s : State) (b : Nat) (dev : Bool) : State :=
  let s1 := { s with cmd := { s.cmd with safeCause := setBit s.cmd.safeCause b true
                                         parityDev := s.cmd.parityDev || (b == 3 && dev) } }
  if s.cmd.mode = .run ∨ s.cmd.mode = .hold ∨ s.cmd.mode = .load then changeMode s1 .safe
  else if s.cmd.mode = .safe ∧ s.cmd.flowScoped = true ∧ flowCauses s1.cmd.safeCause s1.cmd.parityDev = false then
    let s2 := safeIndicator (noteOuts s { s1 with cmd := { s1.cmd with flowScoped := false } })
    (s2.raise SYS.CMD_STATUS 19).emit .control 0x0008 sevCRITICAL 0 [s2.modeWord]
  else s1

/-- A SAFE cause clears (Table 4-6); the device does not leave SAFE by itself. -/
def clearCause (s : State) (b : Nat) : State :=
  { s with cmd := { s.cmd with safeCause := setBit s.cmd.safeCause b false
                               parityDev := if b = 3 then false else s.cmd.parityDev } }

/-- SYS.PARITY_POLICY of a block (Table 3-13): 3 acts as 2. -/
def parityPolicy (s : State) (b : Nat) : Nat :=
  let v := if b < 16 then ((s.rd SYS.PARITY_POLICY_LO).toNat >>> (2 * b)) % 4 else ((s.rd SYS.PARITY_POLICY_HI).toNat >>> (2 * (b - 16))) % 4
  if v = 3 then 2 else v

/-- What the outputs were for an STC instant: the oldest change after it tells, and without one they are as they stand. -/
def outEra (s : State) (stc : Nat) : OutsAs × Nat :=
  match (s.cmd.outs.filter (fun e => decide (stc < e.till))).getLast? with
  | some e => (e.outs, e.groups)
  | none => (outsAs s, s.cmd.groups)

/-- Whether the outputs of block b were live for an STC instant; in device-wide SAFE a block whose policy is HOLD_LAST keeps operating and every
other is muted (R72, R82). A block under MUTE is muted (R72). -/
def outLive (s : State) (b stc : Nat) : Bool :=
  (match (outEra s stc).1 with
   | .live => true
   | .byPolicy => parityPolicy s b == 0
   | .muted => false) && !bit s.host.polMute b

/-- Whether an output group of Table 4-10 was muted by MUTE for an STC instant. -/
def groupMuted (s : State) (g stc : Nat) : Bool := bit (outEra s stc).2 g

/-! ### Blocks -/

/-- The bits of a register whose field types satisfy a condition. -/
def typeMask (a : Nat) (p : FTy → Bool) : Word :=
  match regDesc a with
  | some d => fieldsWord d.fields (fun f => if p f.ty then 2 ^ f.w - 1 else 0)
  | none => 0

/-- The mask of retained bits of the register at an address (R13). -/
def keptMask (a : Nat) : Word :=
  match regDesc a with
  | some d => fieldsWord d.fields (fun f => if f.kept then 2 ^ f.w - 1 else 0)
  | none => 0

/-- The value that the register image records of the placement in force give an address (R107), if they give one. -/
def imageVal (im : List ImgRec) (a : Nat) : Option Word :=
  im.foldl (fun acc r => if r.addr ≤ a ∧ a < r.addr + 4 * r.vals.length ∧ (a - r.addr) % 4 = 0
                         then some (r.vals.getD ((a - r.addr) / 4) 0) else acc) none

/-- The register image records of the placement in force. -/
def State.images (s : State) : List ImgRec := match s.place.now with | some p => p.images | none => []

/-- A block's volatile fields return to their reset values; retained fields stay, and no parity mismatch remains. -/
def blankRegs (s : State) (b : Nat) : State :=
  { s with host := { s.host with corrupt := s.host.corrupt.filter (fun c => blkOf c.addr != b) }, regs := s.regs.filterMap (fun e =>
      if blkOf e.1 = b then
        let v := (resetWord e.1 &&& ~~~ keptMask e.1) ||| (e.2 &&& keptMask e.1)
        if v = resetWord e.1 then none else some (e.1, v)
      else some e) }

/-- The PTP instances of a MAC or of the fabric lose their state with it: on a port that is off they act as absent (R202). -/
def ptpDrop (s : State) (b : Nat) : State :=
  { s with time := { s.time with ptp := s.time.ptp.filter (fun e => (if e.1 = 5 then bFAB else portBlk (e.1 / 2)) != b) } }

/-- The volatile state of a block beside its registers returns to its reset value. -/
def clearBlock (s0 : State) (b : Nat) : State :=
  let s := ptpDrop s0 b
  if b = 4 then { s with macA := .init } else if b = 5 then { s with macB := .init } else if b = 6 then { s with macM := .init }
  else if b = 7 then { s with stx := .init } else if b = 8 then { s with srx := .init }
  else if b = 10 then { s with aport := .init }
  else if b = 11 then
    { s with dsp := { tiles := [], nodes := s.dsp.nodes.map (fun e => (e.1, { NodeS.init with xbase := e.2.xbase, ybase := e.2.ybase, pbase := e.2.pbase })) } }
  else if b = 2 then { s with clk := .init }
  else if b = 12 then { s with dma := { DmaS.init with bme := s.dma.bme, d3 := s.dma.d3, linkUp := s.dma.linkUp, width := s.dma.width,
                                                       speed := s.dma.speed, extTag := s.dma.extTag, hostMem := s.dma.hostMem,
                                                       msix := s.dma.msix, msixEn := s.dma.msixEn, fmask := s.dma.fmask
                                                       rings := s.dma.rings.map (fun r => (r.1, { RingS.init with gen := r.2.gen + 1 })) } }
  else if b = 13 then { s with twin := { TwinS.init with role := s.twin.role, solo := s.twin.solo, clash := s.twin.clash,
                                                         applyHash := s.twin.applyHash, out := s.twin.out, clockId := s.twin.clockId,
                                                         lostFrom := s.now } }
  else if b = 14 then { s with fab := { FabS.init with formed := s.fab.formed, flows := s.fab.flows, planHash := s.fab.planHash,
                                                       st := s.fab.st, ver := s.fab.ver, out := s.fab.out } }
  else if b = 16 then { s with nand := { s.nand with xfer := none, xferBusy := false, xferStatus := 0, ctr := [] } }
  else s

/-- The blocks of a power domain. -/
def domainBlocks (d : Nat) : List Nat := (List.range 19).filter (fun b => domainOf b == d)

/-- A domain is in use (R419): the placement uses it; PD4 while port M is strapped on; PD10 while PCIE_PERST_N is high; PD11 wherever the variant
has a twin or fabric section, since pairing and forming come before a placement (R342, R384; log entry 43). -/
def domInUse (s : State) (d : Nat) : Bool :=
  d < 3 || bit s.pwr.placed d || (d == 4 && s.chip.straps.mgmtSel != 3) || (d == 10 && s.pwr.pcieUp) ||
  (d == 11 && (s.variant.twin || s.variant.ubley != 0))

/-- A domain exists in this variant (Table 2-1, R418). -/
def domHere (s : State) (d : Nat) : Bool :=
  if d = 8 then decide (16 < s.variant.tiles) else if d = 11 then s.variant.twin || s.variant.ubley != 0
  else if Fuses.ok s.chip.fuses then decide (d < 12) else decide (d < 3)

/-- A domain is due (R419). -/
def domDue (s : State) (d : Nat) : Bool :=
  domHere s d && (domInUse s d || bit (s.rd PWR.DOM_REQ).toNat d) && !(bit (s.rd PWR.DOM_FORCE).toNat d)

/-- What a domain without supply loses beside the registers: PD6 the media store, PD7 and PD8 their tiles and tile memories. -/
def domLose (s : State) (d : Nat) : State :=
  if d = 6 then { s with mem := s.mem.filter (fun e => decide (0x3000000 ≤ e.1)) }
  else if d = 7 then
    { s with mem := s.mem.filter (fun e => decide (e.1 < 0x3000000 ∨ 0x3400000 ≤ e.1))
             dsp := { s.dsp with tiles := s.dsp.tiles.filter (fun e => decide (16 ≤ e.1)) } }
  else if d = 8 then
    { s with mem := s.mem.filter (fun e => decide (e.1 < 0x3400000 ∨ 0x3800000 ≤ e.1))
             dsp := { s.dsp with tiles := s.dsp.tiles.filter (fun e => decide (e.1 < 16)) } }
  else s

/-- A domain switches off: its blocks lose their volatile state; the control cores keep the retained fields (R419). -/
def domSwitchOff (s : State) (d : Nat) : State :=
  domLose ((domainBlocks d).foldl (fun st b => clearBlock (blankRegs st b) b)
    { s with pwr := { s.pwr with on := setBit s.pwr.on d false } }) d

/-- Switch off every domain of 3 to 11 that is on and not due. -/
def domainsOff (s : State) : State :=
  (List.range 12).foldl (fun st d => if 3 ≤ d && bit st.pwr.on d && !domDue st d then domSwitchOff st d else st) s

/-- Domains 0 to 11 as the placement needs them, at APPLY: those due come up with it, the others switch off. -/
def domainsSettle (s : State) : State :=
  let s1 := domainsOff s
  { s1 with pwr := { s1.pwr with on := ofBits ((List.range 12).filter (fun d => bit s1.pwr.on d || (3 ≤ d && domDue s1 d && bit s1.pwr.placed d))) } }

end Sys2Proof.Machine
end

