-- ==== Sys2Proof/Machine/Samples.lean ====
section
/-!
DEFINITION. The sample path: source histories and routing (R26, R27, R81), sample coding and the IEC 60958 labels (R162, R186),
the generated channel-status block (Table 11-9), and what an active table entry under a parity mismatch carries (R72).
-/
namespace Sys2Proof.Machine

/-! ### Samples and labels -/

/-- Valid silence, and a zero sample marked invalid. -/
def smpSilence : Smp := ⟨0, true, none⟩
def smpBad : Smp := ⟨0, false, none⟩

/-- A label: bit 0 validity, bit 1 user, bit 2 channel status, bit 3 block start (log entry 24). -/
def mkLabel (v u c b : Bool) : Nat := b2n v + 2 * b2n u + 4 * b2n c + 8 * b2n b

/-- Odd number of ones among the low n bits. -/
def oddOnes (n v : Nat) : Bool := ((List.range n).filter (fun k => bit v k)).length % 2 == 1

/-- One bit and one byte of the CRCC of AES3 (polynomial 0x1D, least significant bit first, start all ones). -/
def crccBit (c : Nat) : Nat := if c % 2 = 1 then (c / 2) ^^^ 0xB8 else c / 2
def crccByte (c : Nat) (b : Byte) : Nat :=
  crccBit (crccBit (crccBit (crccBit (crccBit (crccBit (crccBit (crccBit (c ^^^ b.toNat))))))))

/-- The CRCC byte of the first 23 bytes of a channel-status block. -/
def crcc (l : List Byte) : Byte := BitVec.ofNat 8 ((l.take 23).foldl crccByte 0xFF)

/-- A block of 23 bytes completed by its CRCC. -/
def withCrcc (l : List Byte) : List Byte := l.take 23 ++ [crcc l]

/-- The generated channel-status block (Table 11-9) at a multiple code (0 ×1, 1 ×2, 2 ×4, 3 ×8) of a family's base rate; the bit
patterns are those of AES3 (log entry 24). -/
def csBlock (family rate : Nat) : List Byte :=
  let b0 : Byte := if rate = 0 then (if family = 0 then 0x85 else 0x45) else 0x05
  let b4 : Byte := if rate = 1 then (if family = 0 then 0x10 else 0x50) else if rate = 2 then (if family = 0 then 0x18 else 0x58) else 0
  withCrcc ([b0, 0x08, 0x2C, 0, b4] ++ List.replicate 18 0)

/-- Channel-status bit k of a block. -/
def csBit (l : List Byte) (k : Nat) : Bool := bit (byteAt l (k / 8 % 24)) (k % 8)

/-- The label of sample n of a channel under generated channel status. -/
def genLabel (blk : List Byte) (n : Nat) : Nat := mkLabel false false (csBit blk (n % 192)) (n % 192 == 0)

/-- The four bytes of an AM824 sample: label 0b00BFPCUV, then 24 bits; `first` for the first subframe of a pair (log entry 24). -/
def am824 (v lab : Nat) (first : Bool) : List Byte :=
  let d := v / 256 % 2 ^ 24
  let p := oddOnes 24 d != oddOnes 3 lab
  BitVec.ofNat 8 (b2n (bit lab 0) + 2 * b2n (bit lab 1) + 4 * b2n (bit lab 2) + 8 * b2n p + 16 * b2n first + 32 * b2n (first && bit lab 3)) ::
    beBytes 3 d

/-- Bytes per sample of a format: L16, L24, L32, AM824 (R161). -/
def fmtBytes (fmt : Nat) : Nat := if fmt = 0 then 2 else if fmt = 1 then 3 else 4

/-- A sample as sent in a format (R162): a sample marked invalid is sent as zero, and in AM824 with its validity bit at 1. -/
def encodeSmp (fmt : Nat) (first gen : Bool) (blk : List Byte) (n : Nat) (x : Smp) : List Byte :=
  let v := if x.ok then x.v else 0
  if fmt = 0 then beBytes 2 (v / 65536) else if fmt = 1 then beBytes 3 (v / 256) else if fmt = 2 then beBytes 4 v
  else
    let lab := if gen then genLabel blk n else x.lab.getD (genLabel blk n)
    am824 v (if x.ok then lab else lab ||| 1) first

/-- A sample as received (R186): in AM824 a label outside 0x00–0x3F is no IEC 60958-conformant label and marks the sample invalid. -/
def decodeSmp (fmt : Nat) (l : List Byte) : Smp :=
  if fmt = 0 then ⟨beAt l 0 2 * 65536, true, none⟩ else if fmt = 1 then ⟨beAt l 0 3 * 256, true, none⟩
  else if fmt = 2 then ⟨beAt l 0 4, true, none⟩
  else
    let b := byteAt l 0
    if b < 64 then ⟨beAt l 1 3 * 256, true, some (mkLabel (bit b 0) (bit b 1) (bit b 2) (bit b 5))⟩ else smpBad

/-! ### Rates and media instants -/

/-- The family's base rate in Hz, and a rate code's rate. -/
def baseRate (s : State) : Nat := if s.family = 0 then 48000 else 44100
def rateHz (s : State) (code : Nat) : Nat := baseRate s * 2 ^ code

/-- The STC instant of sample n at a rate (R164), in 2⁻⁵⁶ ns, rounded up to that unit: the first STC value at or after n ÷ fs. -/
def mediaAt (fs n : Nat) : Nat := cdiv (n * stcSec 1) fs

/-- The current media sample count at a rate: floor(STC × fs). -/
def mediaNow (s : State) (fs : Nat) : Nat := s.time.stc * fs / stcSec 1

/-! ### Table words as the data plane uses them (R72) -/

/-- The word of an address as its block applies it: a register with a parity mismatch keeps the word last applied. -/
def State.use (s : State) (a : Nat) : Word := s.rd a

/-- The word of an active table address that is in force for an STC instant: the oldest swap after it tells which banks were (R22). -/
def State.useAt (s : State) (stc a : Nat) : Word :=
  match (s.banks.filter (fun b => decide (stc < b.till))).getLast? with
  | some b => b.word a
  | none => s.use a

/-- How the active entry at addresses a to a + n − 1 of block b acts: none while it is sound or its block holds the last applied value,
otherwise the sample its channels carry: silence under MUTE, a zero sample marked invalid under SAFE (R72). -/
def entryBad (s : State) (b a n : Nat) : Option Smp :=
  if s.host.corrupt.any (fun c => c.bad != 0 && decide (phys s.bankSel a ≤ c.addr) && decide (c.addr < phys s.bankSel a + n)) then
    (let p := parityPolicy s b
     if p = 0 then none else if p = 1 then some smpSilence else some smpBad)
  else none

/-! ### Sources and destinations -/

/-- A source channel takes a value at an STC instant. The newest 2,048 values of a channel are kept. -/
def srcPut (s : State) (ch stc : Nat) (x : Smp) : State :=
  { s with way := { s.way with src := Tbl.put s.way.src ch (((stc, x) :: Tbl.getD s.way.src ch []).take 2048) } }

/-- A source channel takes a value from an STC instant on, up to the next instant for which it has one. -/
def srcInsert (s : State) (ch stc : Nat) (x : Smp) : State :=
  let l := Tbl.getD s.way.src ch []
  let l1 := (l.takeWhile (fun e => decide (stc < e.1)) ++ (stc, x) :: l.dropWhile (fun e => decide (stc < e.1))).take 2048
  { s with way := { s.way with src := Tbl.put s.way.src ch l1 } }

/-- The timestamp that travels with the port block which source channel `ch` carries at an STC instant (R251); the newest 64 blocks are kept. -/
def srcStamp (s : State) (ch stc : Nat) : Option Nat := ((Tbl.getD s.way.stamps ch []).find? (fun e => decide (e.1 ≤ stc))).map (fun e => e.2)
def putStamp (s : State) (ch stc stamp : Nat) : State :=
  { s with way := { s.way with stamps := Tbl.put s.way.stamps ch (((stc, stamp) :: Tbl.getD s.way.stamps ch []).take 64) } }

/-- What a source channel carried at an STC instant: the last value given at or before it, 0 marked invalid before any. -/
def srcAt (s : State) (ch stc : Nat) : Smp :=
  match (Tbl.getD s.way.src ch []).find? (fun e => e.1 ≤ stc) with
  | some e => e.2
  | none => smpBad

/-- Whether a source number lies in a reserved range of Table 1-5. -/
def srcReserved (n : Nat) : Bool := (decide (5392 ≤ n) && decide (n < 6144)) || (decide (12288 ≤ n) && decide (n < 16383))

/-- The last valid sample that a source carried before an instant, marked valid; 0 marked invalid where it carried none. -/
def lastValid (s : State) (ch stc : Nat) : Smp :=
  match (Tbl.getD s.way.src ch []).find? (fun e => decide (e.1 < stc) && e.2.ok) with
  | some e => e.2
  | none => smpBad

/-- What a tile fault makes destination d, routed from source n, carry for an instant (R130, R132): zero marked invalid, or the last
valid sample of a held flow; none where no stopped flow covers the connection. -/
def deadAt (s : State) (d n stc : Nat) : Option Smp :=
  match s.place.dead.find? (fun f => decide (f.dstNum ≤ d) && decide (d < f.dstNum + f.n) && (f.srcNum + (d - f.dstNum) == n) &&
      decide (f.since ≤ stc) && (match f.till with | some x => decide (stc < x) | none => true)) with
  | some f => some (if f.hold then f.held.getD (d - f.dstNum) smpBad else smpBad)
  | none => none

/-- The timestamp of the port block that reaches destination d for the media instant stc. -/
def destStamp (s : State) (d stc : Nat) : Option Nat := srcStamp s (ROUTE.ENTRY_SHADOW_SRC.get (s.useAt stc (ROUTE.ENTRY_ACTIVE d))) stc

/-- Destination d carries the zero samples of R130 and R132 for the media instant stc. -/
def destDead (s : State) (d stc : Nat) : Bool :=
  match deadAt s d (ROUTE.ENTRY_SHADOW_SRC.get (s.useAt stc (ROUTE.ENTRY_ACTIVE d))) stc with
  | some x => x.v == 0 && !x.ok
  | none => false

/-- What destination d carries for the media instant stc, by the routing entry in force for it (R22, R27). -/
def destAt (s : State) (d stc : Nat) : Smp :=
  match entryBad s bROUTE (ROUTE.ENTRY_ACTIVE d) 4 with
  | some x => x
  | none =>
    let w := s.useAt stc (ROUTE.ENTRY_ACTIVE d)
    let n := ROUTE.ENTRY_SHADOW_SRC.get w
    if ROUTE.ENTRY_SHADOW_MUTE.get w = 1 then smpSilence
    else if n = 0x3FFF then smpSilence
    else if srcReserved n then smpBad
    else match deadAt s d n stc with
      | some x => x
      | none => srcAt s n stc

/-- What an output of block b and output group g carries for the media instant stc: silence while a parity policy mutes it, or the mode or MUTE at
the instant `from_`, which for a packet is that of its first sample (R72, R81). -/
def outFrom (s : State) (b g d from_ stc : Nat) : Smp :=
  if bit s.host.polMute b || (bit s.host.polMute bROUTE) then smpSilence
  else if outLive s b from_ && !groupMuted s g from_ then destAt s d stc else smpSilence
def outAt (s : State) (b g d stc : Nat) : Smp := outFrom s b g d stc stc

end Sys2Proof.Machine
end

