-- ==== Sys2Proof/Machine/Streams.lean ====
section
/-!
DEFINITION. The timing of stream entries: packet times, intervals and launch instants (R164, R168), the enabled entries of the
active banks, and which ports a unit of a twin pair serves (R336).
-/
namespace Sys2Proof.Machine

/-- Packet time by PTIME, in thirds of a nanosecond (Table 7-2). -/
def ptime3 (c : Nat) : Nat :=
  if c = 0 then 187500 else if c = 1 then 375000 else if c = 2 then 750000 else if c = 3 then 1000000
  else if c = 4 then 3000000 else 12000000

/-- The packet interval that contains an STC instant: floor(STC ÷ P). -/
def pktIdx (c stc : Nat) : Nat := stc * 3 / (ptime3 c * 2 ^ 56)

/-- The instant kP in thirds of 2⁻⁵⁶ ns. -/
def pktAt3 (c k : Nat) : Nat := k * ptime3 c * 2 ^ 56

/-- The first sample of packet k at a rate: ceil(kP × fs) (R164). -/
def pktFirst (c fs k : Nat) : Nat := cdiv (k * ptime3 c * fs) 3000000000

/-- The largest S of an entry (R164). -/
def sMax (c fs : Nat) : Nat := cdiv (ptime3 c * fs) 3000000000

/-- The logical addresses of W0 words listed in the register table within a table of entries, in entry order. -/
def listedW0 (s : State) (base : Nat) : List Nat :=
  (s.regs.map (fun e => phys s.bankSel e.1)).filter (fun a => decide (base ≤ a) && decide (a < base + 0x10000) && (a - base) % 64 == 0)

/-- TXS entries, and RXS entries, with EN 1 in the active bank, ascending. -/
def txEnabled (s : State) : List Nat :=
  ((listedW0 s 0x0720000).map (fun a => (a - 0x0720000) / 64)).filter (fun n => STX.TXS_W0_EN.get (s.use (STX.TXSA_W0 n)) == 1)
def rxEnabledAll (s : State) : List Nat :=
  ((listedW0 s 0x0820000).map (fun a => (a - 0x0820000) / 64)).filter (fun n => SRX.RXS_W0_EN.get (s.use (SRX.RXSA_W0 n)) == 1)

/-- The entries that run: none while no placement is in force. -/
def txActive (s : State) : List Nat := if s.place.now.isNone then [] else txEnabled s
def rxActive (s : State) : List Nat := if s.place.now.isNone then [] else rxEnabledAll s

/-- TXS entries that any bank lists, the banks before the last swaps included. -/
def txNamed (s : State) : List Nat :=
  let old := s.banks.flatMap (fun b => ((b.regs.map (fun e => phys b.sel e.1)).filter
    (fun a => decide (0x0720000 ≤ a) && decide (a < 0x0730000) && (a - 0x0720000) % 64 == 0)))
  if s.place.now.isNone then [] else sortNat ((listedW0 s 0x0720000 ++ old).map (fun a => (a - 0x0720000) / 64))

/-- Whether packet k of a TXS entry falls under EN 1: by the entry as it stands at the start of the interval (R166). -/
def txEnAt (s : State) (n k : Nat) : Bool :=
  STX.TXS_W0_EN.get (s.useAt (cdiv (pktAt3 (STX.TXS_W0_PTIME.get (s.use (STX.TXSA_W0 n))) k) 3) (STX.TXSA_W0 n)) == 1

/-- Whether a TXS, or an RXS, entry is killed. -/
def txKilled (s : State) (n : Nat) : Bool := bit (s.rd (STX.KILLED (n / 32))).toNat (n % 32)
def rxKilled (s : State) (n : Nat) : Bool := bit (s.rd (SRX.KILLED (n / 32))).toNat (n % 32)

/-- The media ports to which this unit hands stream frames (R336): both in SOLO, port A in U0 and port B in U1 of a pair, none in
ISOLATED. -/
def unitPort (s : State) (p : Nat) : Bool :=
  match s.twin.role with
  | .solo => true
  | .isolated => false
  | _ => p == s.chip.straps.unitSel

/-- The ports a TXS entry names, as its W0 word gives them. -/
def txPort (w0 : Word) (p : Nat) : Bool := if p = 0 then STX.TXS_W0_PORT_A.get w0 == 1 else STX.TXS_W0_PORT_B.get w0 == 1

/-- The launch instant of packet k of a TXS entry, in thirds of 2⁻⁵⁶ ns: (k + 1)P + O (R168). -/
def launchAt3 (s : State) (n k : Nat) : Nat :=
  pktAt3 (STX.TXS_W0_PTIME.get (s.use (STX.TXSA_W0 n))) (k + 1) + STX.TXS_W1_LAUNCH_US.get (s.use (STX.TXSA_W1 n)) * 3000 * 2 ^ 56

/-- The next launch instant after now of a packet that an entry has still to build, in thirds of 2⁻⁵⁶ ns. -/
def nextLaunch3 (s : State) (n : Nat) : Option Nat :=
  let i := pktIdx (STX.TXS_W0_PTIME.get (s.use (STX.TXSA_W0 n))) s.time.stc
  (([i - 1, i, i + 1] : List Nat).find? (fun k => decide (Tbl.getD s.stx.next n 0 ≤ k) && decide (Tbl.getD s.stx.lastK n 0 ≤ k) &&
    decide (Tbl.getD s.stx.clearK n 0 ≤ k) && txEnAt s n k && decide (s.time.stc * 3 < launchAt3 s n k))).map (launchAt3 s n)

/-- The launch instants after now of the stream frames on the queues of a port. -/
def queuedLaunch3 (s : State) (p : Nat) : List Nat :=
  (((s.mac p).queues.flatMap (fun e => e.2)).filterMap (fun f => match f.src with
    | .stream n k => some (launchAt3 s n k)
    | _ => none)).filter (fun x => decide (s.time.stc * 3 < x))

/-- The next instant on a port at which a stream frame is due (R169), in thirds of 2⁻⁵⁶ ns: a frame on a queue counts whatever has become of its
entry since (R166, R171). -/
def portLaunch3 (s : State) (p : Nat) : Option Nat :=
  let l := (txNamed s).filter (fun n => txPort (s.use (STX.TXSA_W0 n)) p && unitPort s p && !txKilled s n)
  match queuedLaunch3 s p ++ l.filterMap (nextLaunch3 s) with
  | [] => none
  | x :: r => some (r.foldl Nat.min x)

end Sys2Proof.Machine
end

