-- ==== Sys2Proof/Machine/Mac.lean ====
section
/-!
DEFINITION. The Ethernet MACs: queues, gates, pause, underrun, checksums, timestamps, wake patterns, counters and MDIO (chapter 6).
-/
namespace Sys2Proof.Machine

/-! ### Line and gates -/

/-- Line rate of a port as coded in MAC_CTL.RATE; port M always runs at 1 GbE (R136). -/
def portRate (s : State) (p : Nat) : Nat := if p = 2 then 0 else s.fld (MAC.MAC_CTL p) MAC.MAC_CTL_RATE

/-- A port runs RGMII: port M where MGMT_SEL selects it (R136, Table 2-16). -/
def rgmii (s : State) (p : Nat) : Bool := p == 2 && (s.chip.straps.mgmtSel == 1 || s.chip.straps.mgmtSel == 2)

/-- A port runs SGMII (R136, Table 6-1). -/
def sgmii (s : State) (p : Nat) : Bool :=
  if p = 2 then s.chip.straps.mgmtSel == 0 else s.fld (MAC.MAC_CTL p) MAC.MAC_CTL_RATE == 0 && s.flag (MAC.MAC_CTL p) MAC.MAC_CTL_IF_1G

/-- Time of one byte on the line, in units of 1/25 ns. -/
def byte25 (rate : Nat) : Nat := if rate = 0 then 200 else if rate = 1 then 20 else 8

/-- Line time of a frame of n bytes, FCS included: with 8 bytes of preamble and 12 of inter-frame gap (R143), in 1/25 ns. -/
def line25 (rate n : Nat) : Nat := (n + 20) * byte25 rate

/-- The present time in units of 2⁻¹⁶/25 ns. -/
def now25 (s : State) : Nat := s.now * 25

/-- MAC_STATUS.LINK, MAC_CTL.TX_EN, LPBK and RX_EN. -/
def linkUp (s : State) (p : Nat) : Bool := s.flag (MAC.MAC_STATUS p) MAC.MAC_STATUS_LINK
def txEn (s : State) (p : Nat) : Bool := s.flag (MAC.MAC_CTL p) MAC.MAC_CTL_TX_EN
def lpbk (s : State) (p : Nat) : Bool := s.flag (MAC.MAC_CTL p) MAC.MAC_CTL_LPBK
def rxEn (s : State) (p : Nat) : Bool := s.flag (MAC.MAC_CTL p) MAC.MAC_CTL_RX_EN

/-- The MAC sends remote fault: at 10 GbE and 25 GbE while LINK is 0, whatever TX_EN holds (R138, Clause 46); while LPBK loops inside the PCS the
line carries idles (Table 6-4). -/
def remoteFault (s : State) (p : Nat) : Bool := s.blkOn (portBlk p) && portRate s p != 0 && !linkUp s p && !lpbk s p

/-- The gate list of a port: intervals in ns and gates, entries 0 to LEN − 1 (Table 6-9). -/
def gateList (s : State) (p : Nat) : List (Nat × Nat) :=
  (List.range (s.fld (MAC.GCL_STATUS p) MAC.GCL_STATUS_LEN)).map (fun i =>
    (s.fld (MAC.GCL_ENTRY p i) MAC.GCL_ENTRY_INTERVAL, s.fld (MAC.GCL_ENTRY p i) MAC.GCL_ENTRY_GATES))

/-- The entry in force at a position in the cycle (in 2⁻⁵⁶ ns), with the time left in it. -/
def gateAt (l : List (Nat × Nat)) (i pos : Nat) : Nat × Nat :=
  match l with
  | [] => (0, 0)
  | e :: r => if pos < e.1 * 2 ^ 56 ∨ r = [] then (i, e.1 * 2 ^ 56 - pos) else gateAt r (i + 1) (pos - e.1 * 2 ^ 56)

/-- Open time of a queue along a list of entries until the first closed one. -/
def openRun (q : Nat) : List (Nat × Nat) → Nat
  | [] => 0
  | e :: r => if bit e.2 q then e.1 * 2 ^ 56 + openRun q r else 0

/-- The list rotated to start at entry i. -/
def rotate (l : List (Nat × Nat)) (i : Nat) : List (Nat × Nat) := l.drop i ++ l.take i

/-- Position of the STC in a port's gate cycle (R143). -/
def gatePos (s : State) (p : Nat) : Nat :=
  let c := s.fld (MAC.GCL_STATUS p) MAC.GCL_STATUS_CYCLE_US * 1000 * 2 ^ 56
  if c = 0 then 0 else s.time.stc % c

/-- How long queue q stays open from now, in 2⁻⁵⁶ ns; none while it never closes. -/
def gateLeft (s : State) (p q : Nat) : Option Nat :=
  let l := gateList s p
  if l.all (fun e => bit e.2 q) then none
  else
    let g := gateAt l 0 (gatePos s p)
    if bit (l.getD g.1 (0, 0)).2 q then some (g.2 + openRun q (rotate l (g.1 + 1))) else some 0

/-- The longest open time of queue q in the list; none while it never closes. -/
def gateLongest (s : State) (p q : Nat) : Option Nat :=
  let l := gateList s p
  if l.all (fun e => bit e.2 q) then none
  else some (((List.range l.length).map (fun i => openRun q (rotate l i))).foldl Nat.max 0)

/-- Whether a frame of n bytes fits a time. -/
def fits (s : State) (p n : Nat) (left : Option Nat) : Bool :=
  match left with
  | none => true
  | some x => decide (line25 (portRate s p) n * 2 ^ 56 ≤ 25 * x)

/-! ### Frames -/

/-- The FCS of a frame as it is sent, and the frame on the line: padded to 60 bytes, FCS appended (R104, R327). -/
def fcsOf (l : List Byte) : List Byte := leBytes 4 (crc32 l)
def padTo (n : Nat) (l : List Byte) : List Byte := l ++ List.replicate (n - l.length) 0
def onLine (l : List Byte) : List Byte := padTo 60 l ++ fcsOf (padTo 60 l)

/-- Offset of the Ethertype that follows an optional tag. -/
def etOff (l : List Byte) : Nat := if beAt l 12 2 = 0x8100 then 16 else 12

/-- One's-complement sum of the 16-bit words of a byte string (an odd last byte is padded with 0). -/
def ocSum : List Byte → Nat
  | [] => 0
  | [a] => a.toNat * 256
  | a :: b :: r => a.toNat * 256 + b.toNat + ocSum r

/-- The 16-bit Internet checksum of a sum. -/
def ocFold (x : Nat) : Nat := (x % 65536 + x / 65536) % 65536 + (x % 65536 + x / 65536) / 65536
def inetSum (x : Nat) : Nat := 65535 - ocFold (ocFold x)

/-- Replace two bytes at an offset by a big-endian number. -/
def put16 (l : List Byte) (o v : Nat) : List Byte := l.take o ++ beBytes 2 v ++ l.drop (o + 2)

/-- A UDP checksum as sent: 0 becomes 0xFFFF (R149). -/
def udpSum (x : Nat) : Nat := if inetSum x = 0 then 0xFFFF else inetSum x

/-- Offset of the UDP header of an IPv6 packet at o, after hop-by-hop, routing and destination-options headers (R149). -/
def udp6 (l : List Byte) (o nxt : Nat) : Nat → Option Nat
  | 0 => none
  | k + 1 => if nxt = 17 then some o
             else if nxt = 0 ∨ nxt = 43 ∨ nxt = 60 then udp6 l (o + 8 * (byteAt l (o + 1) + 1)) (byteAt l o) k else none

/-- Fill the IPv4 header checksum and the UDP checksum (Table 6-12). -/
def fillSums (l : List Byte) : List Byte :=
  let o := etOff l + 2
  if beAt l (etOff l) 2 = 0x0800 then
    let hl := byteAt l o % 16 * 4
    let l0 := put16 l (o + 10) 0
    let l1 := put16 l0 (o + 10) (inetSum (ocSum ((l0.drop o).take hl)))
    let frag := beAt l (o + 6) 2 % 16384
    if byteAt l (o + 9) = 17 ∧ frag = 0 then
      let u := o + hl
      let n := beAt l (o + 2) 2 - hl
      let l2 := put16 l1 (u + 6) 0
      put16 l2 (u + 6) (udpSum (ocSum ((l2.drop (o + 12)).take 8) + 17 + n + ocSum ((l2.drop u).take n)))
    else l1
  else if beAt l (etOff l) 2 = 0x86DD then
    match udp6 l (o + 40) (byteAt l (o + 6)) 8 with
    | some u =>
      let n := beAt l (u + 4) 2
      let l2 := put16 l (u + 6) 0
      put16 l2 (u + 6) (udpSum (ocSum ((l2.drop (o + 8)).take 32) + 17 + n + ocSum ((l2.drop u).take n)))
    | none => l
  else l

/-- Whether the MAC fills a frame's checksums (Table 6-12). -/
def fillsSums (f : TxFrame) : Bool :=
  match f.src with
  | .stream _ _ => true
  | .control => true
  | .event _ _ _ _ => true
  | .ring _ _ _ _ off _ => off && decide (f.bytes.length + 4 ≤ 2048)

/-- The bytes that a frame puts on the line. -/
def TxFrame.line (f : TxFrame) : List Byte := onLine (if fillsSums f then fillSums f.bytes else f.bytes)

/-! ### Counters, ring completions, discards -/

/-- Count on a port. -/
def macCount (s : State) (p sel n : Nat) : State :=
  s.setMac p { s.mac p with ctr := ctrAdd (s.mac p).ctr sel n }

/-- A frame of a frame transmit ring ends (R319, R327): each of its descriptors completes with the code; only the last carries TS_LOST.
Nothing is written for a ring that was stopped or enabled anew since. -/
def txRingDone (s : State) (r first n gen status : Nat) (tsLost : Bool) (len : Nat) : State :=
  let a := 160 + r
  let s1 := { s with dma := { s.dma with ctr :=
    (let c := if status = 0 then ctrAdd (ctrAdd s.dma.ctr (4 * a) 1) (4 * a + 1) len else ctrAdd s.dma.ctr (4 * a + 2) 1
     if tsLost then ctrAdd c (4 * a + 3) 1 else c) } }
  if (s.ring a).gen = gen then
    (List.range n).foldl (fun st k =>
      ringCount (st.hostWriteMem (ringSlot st a (first + k) + 28)
        (leBytes 4 (status + 16 * b2n (tsLost && k + 1 == n) + 2 ^ 31))) a) s1
  else s1

/-- A frame is discarded at link down or with TX_EN at 0 (R138): stream frames are counted, ring frames complete with LINK_DOWN. -/
def dropLink (s : State) (p : Nat) (f : TxFrame) : State :=
  match f.src with
  | .stream _ _ => macCount s p 0x25 1
  | .control => s
  | .event _ _ _ _ => s
  | .ring r first n gen _ _ => txRingDone s r first n gen 4 false 0

/-- A queue of a port. -/
def macQ (s : State) (p q : Nat) : List TxFrame := Tbl.getD (s.mac p).queues q []
def setMacQ (s : State) (p q : Nat) (l : List TxFrame) : State :=
  s.setMac p { s.mac p with queues := if l = [] then (s.mac p).queues.del q else (s.mac p).queues.put q l }

/-- A frame reaches a transmit queue: with the link down, TX_EN at 0 or the block off it is discarded as at link down (R138, Table 6-4). -/
def enqueue (s : State) (p q : Nat) (f : TxFrame) : State :=
  if s.blkOn (portBlk p) && linkUp s p && txEn s p then setMacQ s p q (macQ s p q ++ [f]) else dropLink s p f

/-- A control-lane frame (queue 7, R142), and a PTP event message, whose timestamp is taken as it starts (R150). -/
def sendControl (s : State) (p : Nat) (bytes : List Byte) : State :=
  enqueue s p 7 ⟨.control, bytes, Nat.min bytes.length 2048, false⟩
def sendEvent (s : State) (p : Nat) (bytes : List Byte) (inst kind seq : Nat) (follow : List Byte) : State :=
  enqueue s p 7 ⟨.event inst kind seq follow, bytes, Nat.min bytes.length 2048, false⟩

/-- The frame on the line ends with a correct FCS. -/
def finishFrame (s : State) (p : Nat) (f : TxFrame) : State :=
  let m := s.mac p
  let s1 := s.setMac p { m with cur := none, ctr := ctrAdd (ctrAdd (ctrAdd m.ctr 0x20 1) 0x21 (f.line).length) (0x30 + m.curQ) 1 }
  match f.src with
  | .ring r first n gen _ _ => txRingDone s1 r first n gen 0 m.curLost f.bytes.length
  | _ => s1

/-- The line as time has it: a frame whose line time is over has ended. -/
def txSettle (s : State) (p : Nat) : State :=
  match (s.mac p).cur with
  | some f => if (s.mac p).lineFree ≤ now25 s then finishFrame s p f else s
  | none => s

/-! ### Pause (R145) -/

/-- A queue is paused: its pause has begun and not ended. -/
def paused (s : State) (p q : Nat) : Bool :=
  match Tbl.find (s.mac p).pauses q with
  | some x => decide (x.1 ≤ now25 s) && decide (now25 s < x.2)
  | none => false

/-- MAC_STATUS.PAUSED. -/
def pausedBits (s : State) (p : Nat) : Nat := ofBits ((List.range 8).filter (fun q => paused s p q))

/-- A pair placed by its first number, and how much of the time from a to b a list of intervals in rising order covers. -/
def insertSpan (x : Nat × Nat) : List (Nat × Nat) → List (Nat × Nat)
  | [] => [x]
  | y :: r => if x.1 < y.1 then x :: y :: r else y :: insertSpan x r
def covered : List (Nat × Nat) → Nat → Nat → Nat
  | [], _, _ => 0
  | x :: r, a, b => (Nat.min x.2 b - Nat.max x.1 a) + covered r (Nat.max a (Nat.min x.2 b)) b

/-- Account TX_PAUSED_NS up to now: the time with at least one queue paused. -/
def pauseAccount (s : State) (p : Nat) : State :=
  let m := s.mac p
  let n := m.pausedRem + covered (m.pauses.foldl (fun l e => insertSpan e.2 l) []) m.pausedTo (now25 s)
  s.setMac p { m with ctr := if n / (25 * 65536) = 0 then m.ctr else ctrAdd m.ctr 0x26 (n / (25 * 65536)), pausedTo := now25 s
                      pausedRem := n % (25 * 65536) }

/-- Pause the listed queues for their quanta (512 bit times each), from now or from the end of the frame on the line. A queue that is paused stays
so until its new time begins. -/
def pauseQueues (s : State) (p : Nat) (l : List (Nat × Nat)) : State :=
  let s0 := pauseAccount (txSettle s p) p
  let m := s0.mac p
  let b := byte25 (portRate s p) * 65536
  let start := match m.cur with | some _ => Nat.max (now25 s) (m.lineFree - 12 * b) | none => now25 s
  let from_ := fun (q : Nat) => if paused s0 p q then now25 s else start
  s0.setMac p { m with pauses := l.foldl (fun t e => if e.2 = 0 then t.del e.1 else t.put e.1 (from_ e.1, start + 64 * b * e.2)) m.pauses }

/-- The row PAUSE_EXPIRY. -/
def execPauseExpiry (t : Nat) (port queue : Nat) (s : State) : Host.Outcome State Fault Refusal :=
  .next (
    let s0 := s.at t
    match Tbl.find (s0.mac port).pauses queue with
    | some x =>
      if x.2 ≤ now25 s0 then
        (fun st : State => st.setMac port { st.mac port with pauses := (st.mac port).pauses.del queue }) (pauseAccount s0 port)
      else s0
    | none => s0)

/-! ### Transmission -/

/-- A frame is due (R142, R147): a stream frame at its launch instant; any other once enough of it is staged. -/
def isDue (s : State) (p : Nat) (f : TxFrame) : Bool :=
  match f.src with
  | .stream _ _ => f.due
  | _ =>
    let whole := f.bytes.length
    decide ((if fillsSums f then whole else Nat.min (Nat.min (s.fld (MAC.TX_THRESH p) MAC.TX_THRESH_STEPS * 64) whole) 2048) ≤ f.staged)

/-- Drop head frames that can never fit their queue's gate (R143). -/
def gateDrop (s : State) (p q : Nat) : State :=
  match macQ s p q with
  | [] => s
  | f :: r =>
    if fits s p f.line.length (gateLongest s p q) then s
    else
      let s1 := (macCount (setMacQ s p q r) p 0x23 1).raise (MAC.MAC_CAUSE p) 5
      match f.src with
      | .ring rr first n gen _ _ => txRingDone s1 rr first n gen 5 false 0
      | _ => s1

/-- What R169 asks of queues 0 and 7 of a media port: no stream frame is due and not yet started, and the line time ends at or before the
next launch instant on the port. -/
def clearOfStreams (s : State) (p q n : Nat) : Bool :=
  if (q = 0 ∨ q = 7) ∧ p < 2 ∧ s.blkOn bSTX = true then
    !(s.mac p).queues.any (fun e => e.2.any (fun f => f.due)) &&
    (match portLaunch3 s p with
     | some x => decide (75 * s.time.stc + 3 * line25 (portRate s p) n * 2 ^ 56 ≤ 25 * x)
     | none => true)
  else true

/-- Whether the head of a queue may start now (R142, R169). -/
def mayStart (s : State) (p q : Nat) : Bool :=
  match macQ s p q with
  | [] => false
  | f :: _ => isDue s p f && !paused s p q && fits s p f.line.length (gateLeft s p q) && clearOfStreams s p q f.line.length

/-- A transmit timestamp: the STC 8 byte times after the start, plus TX_ADJ (R150), in 2⁻⁵⁶ ns. -/
def txStampAt (s : State) (p : Nat) : Nat :=
  ((s.time.stc + 8 * byte25 (portRate s p) * 2 ^ 56 / 25 : Nat) + sgn 16 (s.fld (MAC.TS_CORR p) MAC.TS_CORR_TX_ADJ) * (2 : Int) ^ 52).toNat

/-- `staged` bytes of the ring frame at the head of queue 0 have come into the staging buffer, which holds 2,048 (R147). -/
def stageHead (s : State) (p staged : Nat) : State :=
  match macQ s p 0 with
  | f :: r => (match f.src with
    | .ring _ _ _ _ _ _ => setMacQ s p 0 ({ f with staged := Nat.max f.staged (Nat.min (Nat.min staged 2048) f.bytes.length) } :: r)
    | _ => s)
  | [] => s

/-- A requested transmit timestamp enters the FIFO, or is lost where it holds 64 (R151). -/
def stampIn (s : State) (p : Nat) (x : TxStamp) : State :=
  let m := s.mac p
  if m.fifo.length < 64 then s.setMac p { m with fifo := m.fifo ++ [x], ctr := ctrAdd m.ctr 0x27 1, curLost := false }
  else
    let n := s.fld (MAC.TS_STATUS p) MAC.TS_STATUS_TS_LOST_CNT
    ((s.setMac p { m with curLost := true }).setFld (MAC.TS_STATUS p) MAC.TS_STATUS_TS_LOST_CNT (if n < 65535 then n + 1 else n)).raise
      (MAC.MAC_CAUSE p) 3

/-- A PTP message of n octets at the end of a frame takes a timestamp of its transmission, in 2⁻¹⁶ ns: in its timestamp field where it has one,
and in correctionField the part below a nanosecond, or all of it. -/
def eventStamp (l : List Byte) (n : Nat) (field : Bool) (t : Nat) : List Byte :=
  let c := l.length - n + 8
  let corr := (beAt l c 8 + (if field then t % 65536 else t)) % 2 ^ 64
  let l1 := l.take c ++ beBytes 8 corr ++ l.drop (c + 8)
  if field then
    (let o := l.length - n + 34
     l1.take o ++ beBytes 6 (t / 65536 / 1000000000) ++ beBytes 4 (t / 65536 % 1000000000) ++ l1.drop (o + 10))
  else l1

/-- A frame as it starts at a transmit timestamp: a one-step Sync (kind 0) carries it, a one-step Pdelay_Resp (kind 3) the time since its request
arrived. -/
def TxFrame.stamped (f : TxFrame) (t : Nat) : TxFrame :=
  match f.src with
  | .event _ 0 _ _ => { f with bytes := eventStamp f.bytes 44 true t }
  | .event _ 3 _ _ => { f with bytes := eventStamp f.bytes 54 false t }
  | _ => f

/-- The PTP engine takes the timestamp of its event message (R150): a request (kind 2) keeps it, and a two-step Sync (kind 1) or Pdelay_Resp (kind 4)
is followed by the message that carries it. -/
def eventStarted (s : State) (p : Nat) (f : TxFrame) (t : Nat) : State :=
  match f.src with
  | .event i 2 seq _ =>
    let x := Tbl.getD s.time.ptp i .init
    if x.dreqSeq = seq then { s with time := { s.time with ptp := Tbl.put s.time.ptp i { x with dreqT3 := some (t : Int) } } } else s
  | .event _ k _ follow => if follow.isEmpty then s else sendControl s p (eventStamp follow (if k = 1 then 44 else 54) true t)
  | _ => s

/-- The head frame of queue q starts. -/
def startHead (s : State) (p q : Nat) : State :=
  match macQ s p q with
  | [] => s
  | g :: r =>
    let t16 := txStampAt s p / 2 ^ 40
    let f := g.stamped t16
    let s1 := setMacQ s p q r
    let s2 := s1.setMac p { s1.mac p with cur := some f, curQ := q, curAt := now25 s, curLost := false
                                          lineFree := now25 s + line25 (portRate s p) f.line.length * 65536
                                          sent := if lpbk s p then (s1.mac p).sent else ⟨f.line, txStampAt s p⟩ :: (s1.mac p).sent
                                          loop := if lpbk s p then (s1.mac p).loop ++ [f.line] else (s1.mac p).loop }
    match f.src with
    | .ring rr first n _ _ true =>
      stampIn s2 p ⟨txStampAt s p, (first + n + 65535) % 2 ^ Nat.min 16 (s.fld (DMA.RING_SIZE (160 + rr)) DMA.RING_SIZE_LOG2), rr⟩
    | .event _ _ _ _ => eventStarted s2 p f t16
    | _ => s2

/-- At the end of a frame or on an idle line: the head frame of the highest queue that may start (R142), after heads that can never fit
are dropped. After an underrun the line is idle once the ended frame has left it. -/
def frameStart (s : State) (p : Nat) : State :=
  let s0 := txSettle s p
  if s0.blkOn (portBlk p) && linkUp s0 p && txEn s0 p && (s0.mac p).cur.isNone && decide ((s0.mac p).lineFree ≤ now25 s0) then
    let s1 := (List.range 8).foldl (fun st q => gateDrop st p q) s0
    match ([7, 6, 5, 4, 3, 2, 1, 0] : List Nat).find? (fun q => mayStart s1 p q) with
    | some q => startHead s1 p q
    | none => s1
  else s0

/-- The row TX_FRAME_START. `staged` tells how much of the ring frame at the head of queue 0 is in the staging buffer. -/
def execTxFrameStart (t : Nat) (port staged : Nat) (s : State) : Host.Outcome State Fault Refusal :=
  .next (frameStart (stageHead (s.at t) port staged) port)

/-- The row GATE_INTERVAL_BOUNDARY: the entry in force is the one whose interval contains the STC (R143). -/
def execGateIntervalBoundary (t : Nat) (port : Nat) (s : State) : Host.Outcome State Fault Refusal :=
  .next (
    let s0 := s.at t
    if s0.fld (MAC.GCL_STATUS port) MAC.GCL_STATUS_LEN = 0 then s0
    else s0.setMac port { s0.mac port with gate := (gateAt (gateList s0 port) 0 (gatePos s0 port)).1 })

/-- Where a frame came from, as a payload word: its row of Table 6-12 (log entry 23). -/
def srcCode (f : TxFrame) : Nat :=
  match f.src with
  | .stream _ _ => 1
  | .control => 2
  | .event _ _ _ _ => 2
  | .ring _ _ _ _ _ _ => 3

/-- Whether a frame can underrun after `sent` bytes (R147): not a stream frame of at most 2,048 bytes, and no frame before what was in the buffer
as it started has been sent. -/
def canUnderrun (s : State) (p sent : Nat) (f : TxFrame) : Bool :=
  decide (sent < f.bytes.length) &&
  (match f.src with
   | .stream _ _ => decide (2048 < f.line.length) && decide (Nat.min (s.fld (MAC.TX_THRESH p) MAC.TX_THRESH_STEPS * 64) 2048 ≤ sent)
   | _ => decide (f.staged ≤ sent))

/-- The frame on the line ends by underrun: its staging buffer emptied after `sent` bytes (R148). The present instant is the end of the frame as it
was cut; the inter-frame gap follows. -/
def underrun (s00 : State) (p sent : Nat) : State :=
  let s := txSettle s00 p
  match (s.mac p).cur with
  | none => s
  | some f =>
    if canUnderrun s p sent f then
      let m := s.mac p
      let cut := padTo 60 ((if fillsSums f then fillSums f.bytes else f.bytes).take sent)
      let bad := cut ++ (fcsOf cut).map (fun b => ~~~ b)
      let steps := s.fld (MAC.TX_THRESH p) MAC.TX_THRESH_STEPS
      let s1 := s.setMac p { m with cur := none, lineFree := now25 s + 12 * byte25 (portRate s p) * 65536
                                    ctr := ctrAdd m.ctr 0x22 1
                                    sent := if lpbk s p then m.sent else match m.sent with | x :: r => ⟨bad, x.stc⟩ :: r | [] => []
                                    loop := if lpbk s p then m.loop.dropLast ++ [bad] else m.loop }
      let s2 := s1.hwFld (MAC.TX_THRESH p) MAC.TX_THRESH_STEPS (if steps < 32 then steps + 1 else 32)
      let s3 := (s2.raise (MAC.MAC_CAUSE p) 2).emit (portIsl p) 0x4004 sevWARNING p [m.curQ, srcCode f]
      match f.src with
      | .ring r first n gen _ _ => txRingDone s3 r first n gen 6 m.curLost 0
      | _ => s3
    else s

/-- The row TX_UNDERRUN, at the end of the frame that ran short. -/
def execTxUnderrun (t : Nat) (port sent : Nat) (s : State) : Host.Outcome State Fault Refusal :=
  .next (if (s.at t).blkOn (portBlk port) then underrun (s.at t) port sent else s.at t)

/-! ### Link (R137 to R139) -/

/-- Every queued frame is discarded (R138). The frame on the line when LINK falls is discarded and counted with them: the rule speaks of the queues
alone (DESIGN CHOICE, log entry 88). -/
def dropAll (s : State) (p : Nat) : State :=
  let m := s.mac p
  let fs := m.cur.toList ++ m.queues.flatMap (fun e => e.2)
  fs.foldl (fun st f => dropLink st p f) (s.setMac p { m with queues := [], cur := none })

/-- LINK falls: the steps of R138. -/
def linkFall (s : State) (p : Nat) : State :=
  let s0 := txSettle s p
  let s1 := dropAll s0 p
  let s2 := s1.setMac p { s1.mac p with ctr := ctrAdd (s1.mac p).ctr 0x40 1 }
  let s3 := (((s2.setFld (MAC.MAC_STATUS p) MAC.MAC_STATUS_LINK 0).setFld (MAC.MAC_STATUS p) MAC.MAC_STATUS_AN_DONE 0).setFld
    (MAC.MAC_STATUS p) MAC.MAC_STATUS_PCS_LOCK 0).setFld (MAC.MAC_STATUS p) MAC.MAC_STATUS_FEC_LOCK 0
  (s3.raise (MAC.MAC_CAUSE p) 1).emit (portIsl p) 0x4002 sevWARNING p []

/-- What a port shows of its line while LINK is 0: PCS_LOCK, FEC_LOCK and AN_DONE where its mode has them (Table 6-5; over RGMII there is no PCS,
DEDUCED, log entry 89), and SPEED_FAULT, which sets its cause as it begins (R137). -/
def lineState (s : State) (p : Nat) (pcs fec an fault : Bool) : State :=
  let bad := fault && (sgmii s p || rgmii s p)
  let was := s.flag (MAC.MAC_STATUS p) MAC.MAC_STATUS_SPEED_FAULT
  let anOn := portRate s p == 0 && s.flag (MAC.MAC_CTL p) MAC.MAC_CTL_AN_EN && !rgmii s p
  let w := MAC.MAC_STATUS_PCS_LOCK.put (s.rd (MAC.MAC_STATUS p)) (b2n (pcs && !rgmii s p))
  let w1 := MAC.MAC_STATUS_AN_DONE.put (MAC.MAC_STATUS_FEC_LOCK.put w (b2n (fec && portRate s p == 2))) (b2n (an && anOn))
  let s1 := s.wr (MAC.MAC_STATUS p) (MAC.MAC_STATUS_SPEED_FAULT.put w1 (b2n bad))
  if bad && !was then s1.raise (MAC.MAC_CAUSE p) 7 else s1

/-- The row LINK_DOWN: the conditions of LINK do not hold. LINK falls, if it was up; `pcs`, `fec` and `an` tell which of the locks the line still
has, and `speedFault` that the partner signals a speed or duplex that R137 refuses. -/
def execLinkDown (t : Nat) (port : Nat) (pcs fec an speedFault : Bool) (s : State) : Host.Outcome State Fault Refusal :=
  .next (
    let s0 := s.at t
    if !s0.blkOn (portBlk port) then s0
    else lineState (if linkUp s0 port then linkFall s0 port else s0) port pcs fec an speedFault)

/-- LINK rises: the conditions it depends on hold (R138). -/
def linkRise (s : State) (port : Nat) : State :=
  let w := MAC.MAC_STATUS_RATE_ACT.put (MAC.MAC_STATUS_LINK.put (s.rd (MAC.MAC_STATUS port)) 1) (portRate s port)
  let s1 := lineState (s.wr (MAC.MAC_STATUS port) w) port true true true false
  (s1.raise (MAC.MAC_CAUSE port) 0).emit (portIsl port) 0x4001 sevNOTICE port []

/-- A write of MAC_CTL as it leaves the register (R40, R136, Table 6-4): a RATE above MEDIA_MAX, or 3, keeps the old one; in MACM, RATE
and IF_1G ignore writes, and IF_1G reports the interface. -/
def macCtlValue (s : State) (p : Nat) (old new : Word) : Word :=
  if p = 2 then MAC.MAC_CTL_IF_1G.put (MAC.MAC_CTL_RATE.put new 0) (b2n (rgmii s 2))
  else if s.variant.media < MAC.MAC_CTL_RATE.get new then MAC.MAC_CTL_RATE.put new (MAC.MAC_CTL_RATE.get old) else new

/-- MAC_CTL takes a value: a changed RATE or IF_1G drops the link and retrains it, which is recorded for a write at run time (R139). A frame in
progress is not interrupted by TX_EN (R142), and what stands in the queues stays there (DESIGN CHOICE, log entry 88). -/
def macCtlWrite (runTime : Bool) (s : State) (p : Nat) (new : Word) : State :=
  let old := s.rd (MAC.MAC_CTL p)
  let v := macCtlValue s p old new
  let s0 := if p < 2 && decide (s.variant.media < MAC.MAC_CTL_RATE.get new) then s.emit (portIsl p) 0x0003 sevNOTICE 0 [] else s
  let changed := MAC.MAC_CTL_RATE.get v != MAC.MAC_CTL_RATE.get old || MAC.MAC_CTL_IF_1G.get v != MAC.MAC_CTL_IF_1G.get old
  let s1 := if changed && linkUp s0 p then linkFall s0 p else s0
  let s2 := s1.wr (MAC.MAC_CTL p) v
  if changed then
    let s3 := (s2.setFld (MAC.MAC_STATUS p) MAC.MAC_STATUS_RATE_ACT (MAC.MAC_CTL_RATE.get v)).setFld (MAC.MAC_STATUS p) MAC.MAC_STATUS_SPEED_FAULT 0
    if runTime then s3.emit (portIsl p) 0x4003 sevWARNING p [] else s3
  else s2

/-! ### Reception (R152, R153) and wake patterns (R154, R155) -/

/-- A frame that has passed the MAC, on its way to classification: its bytes without FCS (an oversize frame: all MAX_FRAME bytes),
whether it is OVERSIZE, and its receive timestamp. -/
structure RxFrame where
  port : Nat
  bytes : List Byte
  oversize : Bool
  stamp : Nat
deriving DecidableEq, Repr

/-- The station address of a port as it stands in frames, octet 0 first. -/
def station (s : State) (p : Nat) : List Byte :=
  leBytes 4 (s.rd (MAC.STATION_ADDR_LO p)).toNat ++ leBytes 2 (s.rd (MAC.STATION_ADDR_HI p)).toNat

/-- The address filter of R152, step 3. -/
def addrOk (s : State) (p : Nat) (f : List Byte) : Bool :=
  s.flag (MAC.MAC_CTL p) MAC.MAC_CTL_PROMISC || f.take 6 == station s p || byteAt f 0 % 2 == 1

/-- A received frame's FCS is right. -/
def fcsOk (f : List Byte) : Bool := f.drop (f.length - 4) == fcsOf (f.take (f.length - 4))

/-- A receive timestamp: the STC at the start of the destination address, plus RX_ADJ (R150), where now is the last bit. -/
def rxStampAt (s : State) (p len : Nat) : Nat :=
  ((s.time.stc - len * byte25 (portRate s p) * 2 ^ 56 / 25 : Nat) + sgn 16 (s.fld (MAC.TS_CORR p) MAC.TS_CORR_RX_ADJ) * (2 : Int) ^ 52).toNat

/-- One bit and one byte of the CRC-16 of R154. -/
def crc16Bit (c : Nat) : Nat := if 32768 ≤ c then ((c * 2) % 65536) ^^^ 0x1021 else c * 2 % 65536
def crc16Byte (c : Nat) (b : Byte) : Nat :=
  crc16Bit (crc16Bit (crc16Bit (crc16Bit (crc16Bit (crc16Bit (crc16Bit (crc16Bit (c ^^^ (b.toNat * 256)))))))))

/-- The frame bytes that a mask covers, in ascending order. -/
def maskBytes (mask : Nat) (f : List Byte) : List Byte := (bitsOf 128 mask).map (fun k => f.getD k 0)

/-- Whether a pattern with this mask and check value matches a frame (R154). -/
def patternHit (mask crc : Nat) (f : List Byte) : Bool :=
  mask != 0 && (bitsOf 128 mask).all (fun k => decide (k < f.length)) && (maskBytes mask f).foldl crc16Byte 0xFFFF == crc

/-- The mask of pattern k, from a way of reading registers. -/
def wakeMask (rd : Nat → Word) (p k : Nat) : Nat :=
  (rd (MAC.WAKE_MASK p k 0)).toNat + (rd (MAC.WAKE_MASK p k 1)).toNat * 2 ^ 32 + (rd (MAC.WAKE_MASK p k 2)).toNat * 2 ^ 64 +
  (rd (MAC.WAKE_MASK p k 3)).toNat * 2 ^ 96

/-- Whether enabled pattern k of a port matches a frame. -/
def wakeHit (rd : Nat → Word) (p k : Nat) (f : List Byte) : Bool :=
  bit (rd (MAC.WAKE_CTL p k)).toNat 16 && patternHit (wakeMask rd p k) ((rd (MAC.WAKE_CTL p k)).toNat % 65536) f

/-- A frame passes steps 1 to 3 of R152, as R154 asks; `own` is its address filter. -/
def passesMac (own : Bool) (f : List Byte) : Bool := decide (64 ≤ f.length) && fcsOk f && beAt f 12 2 != 0x8808 && own

/-- WAKE_HIT bits set for a frame outside SLEEP. -/
def wakeFlags (s : State) (p : Nat) (f : List Byte) : State :=
  (List.range 16).foldl (fun st k => if wakeHit s.rd p k f then st.raise (MAC.WAKE_HIT p) k else st) s

/-- A MAC control frame is consumed (R145, R152): pause and PFC obeyed where the destination is right, others counted. -/
def macControl (s : State) (p : Nat) (f : List Byte) : State :=
  let dst := f.take 6 == [0x01, 0x80, 0xC2, 0x00, 0x00, 0x01] || f.take 6 == station s p
  if beAt f 14 2 = 0x0001 ∧ dst = true then
    (macCount (pauseQueues s p ((List.range 8).map (fun q => (q, beAt f 16 2)))) p 0x06 1).raise (MAC.MAC_CAUSE p) 8
  else if beAt f 14 2 = 0x0101 ∧ dst = true then
    let en := beAt f 16 2 % 256
    let map := s.fld (MAC.PFC_MAP p) MAC.PFC_MAP_QCLASS
    let qs := ((List.range 8).filter (fun q => bit en ((map >>> (3 * q)) % 8))).map
      (fun q => (q, beAt f (18 + 2 * ((map >>> (3 * q)) % 8)) 2))
    ((bitsOf 8 en).foldl (fun st c => macCount st p (0x08 + c) 1) (pauseQueues s p qs)).raise (MAC.MAC_CAUSE p) 8
  else macCount s p 0x07 1

/-- A frame of `f.length` bytes, FCS included, has been received: the steps of R152. Answers the frame for classification, if any. -/
def macReceive (s : State) (p : Nat) (pcsErr : Bool) (f : List Byte) : State × Option RxFrame :=
  if !(s.blkOn (portBlk p) && rxEn s p && linkUp s p) then (s, none)
  else if pcsErr then (macCount s p 0x10 1, none)
  else if f.length < 64 then (macCount s p 0x03 1, none)
  else if !fcsOk f then (macCount s p 0x02 1, none)
  else if beAt f 12 2 = 0x8808 then (macControl s p f, none)
  else if !addrOk s p f then (macCount s p 0x05 1, none)
  else
    let s1 := wakeFlags s p f
    let mx := s.fld (MAC.MAX_FRAME p) MAC.MAX_FRAME_BYTES
    let cut := decide (mx < f.length)
    let len := if cut then mx else f.length
    let s2 := macCount (macCount (if cut then macCount s1 p 0x04 1 else s1) p 0x00 1) p 0x01 len
    (s2, some ⟨p, if cut then f.take mx else f.take (f.length - 4), cut, rxStampAt s p f.length⟩)

/-! ### Timestamps, counters, MDIO, FEC -/

/-- The three words of a timestamp (Table 6-13, Table 13-8): NS, SEC_LO, SEC_HI with FRAC, from 2⁻⁵⁶ ns. -/
def stampWords (stc : Nat) : List Nat :=
  let n := stc / 2 ^ 56
  [n % 1000000000, n / 1000000000 % 2 ^ 32, n / 1000000000 / 2 ^ 32 % 65536 + stc / 2 ^ 40 % 65536 * 65536]

/-- The counter selectors of Table 6-14. -/
def macSel (sel : Nat) : Bool :=
  decide (sel ≤ 0x12) || (decide (0x20 ≤ sel) && decide (sel ≤ 0x27)) || (decide (0x30 ≤ sel) && decide (sel ≤ 0x37)) || sel == 0x40

/-- A port's counters before this instant, and replacing them. -/
def macBefore (s : State) (p : Nat) : Tbl Nat := if p = 0 then s.inst.ctrA else if p = 1 then s.inst.ctrB else s.inst.ctrM
def setMacBefore (s : State) (p : Nat) (c : Tbl Nat) : State :=
  if p = 0 then { s with inst := { s.inst with ctrA := c } } else if p = 1 then { s with inst := { s.inst with ctrB := c } }
  else { s with inst := { s.inst with ctrM := c } }

/-- What the MAC mailbox captures (R151, R156). -/
def macCapture (p sel : Nat) (s : State) : Option (List Nat × State) :=
  if sel = 0x0100 then
    match (s.mac p).fifo with
    | [] => some ([0, 0, 0, 0], s)
    | x :: r => some (stampWords x.stc ++ [x.desc % 65536 + x.ring % 64 * 65536 + 2 ^ 31], s.setMac p { s.mac p with fifo := r })
  else if macSel sel then
    let s1 := pauseAccount (txSettle s p) p
    let late := (ctrGet (s1.mac p).ctr sel + 2 ^ 64 - ctrGet (s.mac p).ctr sel) % 2 ^ 64
    let r := rcTake (s1.mac p).ctr (ctrAdd (macBefore s p) sel late) [sel]
    some (r.1.flatMap words64, setMacBefore (s1.setMac p { s1.mac p with ctr := r.2.1 }) p r.2.2)
  else none

/-- The rows MAC_COUNTER_READ and TIMESTAMP_FIFO_POP. -/
def execMacCounterRead (t : Nat) (path : Path) (port sel tag : Nat) (s : State) : Host.Outcome State Fault Refusal :=
  .next (mbxServe (s.at t) path (portBlk port) sel tag (macCapture port sel))
def execTimestampFifoPop (t : Nat) (path : Path) (port tag : Nat) (s : State) : Host.Outcome State Fault Refusal :=
  .next (mbxServe (s.at t) path (portBlk port) 0x0100 tag (macCapture port 0x0100))

/-- Whether an MDIO_CMD word names a read frame (Table 6-11). -/
def mdioReads (v : Word) : Bool :=
  if MAC.MDIO_CMD_CL45.get v = 1 then decide (2 ≤ MAC.MDIO_CMD_OP.get v) else MAC.MDIO_CMD_OP.get v == 2

/-- A write of MDIO_CMD: GO starts the frame; with BUSY at 1, a write of GO at 1 changes nothing. -/
def mdioWrite (s : State) (v : Word) : State :=
  if MAC.MDIO_CMD_GO.get v = 1 then
    if s.macM.mdioBusy then s
    else { s.wr MAC.MDIO_CMD v with macM := { s.macM with mdioBusy := true, mdioRead := mdioReads v, mdioSent := v :: s.macM.mdioSent } }
  else s.wr MAC.MDIO_CMD (MAC.MDIO_CMD_GO.put v (MAC.MDIO_CMD_GO.get (s.rd MAC.MDIO_CMD)))

/-- The row MDIO_FRAME_END: BUSY and GO clear; a read leaves its data in RDATA (R136). GO written 1 in the same cycle starts the next frame
(Table 3-8). -/
def execMdioFrameEnd (t : Nat) (rdata : Nat) (s : State) : Host.Outcome State Fault Refusal :=
  .next (
    let s0 := s.at t
    if s0.blkOn bMACM && s0.macM.mdioBusy then
      let s1 := s0.hwFld MAC.MDIO_CMD MAC.MDIO_CMD_GO 0
      let s2 := if s0.macM.mdioRead then s1.setFld MAC.MDIO_STATUS MAC.MDIO_STATUS_RDATA rdata else s1
      let s3 := { s2 with macM := { s2.macM with mdioBusy := false } }
      match s0.askedNow MAC.MDIO_CMD MAC.MDIO_CMD_GO with
      | some v => mdioWrite s3 v
      | none => s3
    else s0)

/-- The row FEC_CODEWORD: an RS-FEC codeword at 25 GbE, corrected or uncorrectable (R156). -/
def execFecCodeword (t : Nat) (port : Nat) (bad corrected : Bool) (s : State) : Host.Outcome State Fault Refusal :=
  .next (
    let s0 := s.at t
    if port < 2 && s0.blkOn (portBlk port) && portRate s0 port == 2 then
      if bad then (macCount s0 port 0x12 1).raise (MAC.MAC_CAUSE port) 4
      else if corrected then macCount s0 port 0x11 1 else s0
    else s0)

end Sys2Proof.Machine
end

