-- ==== Sys2Proof/Machine/Stx.lean ====
section
/-!
DEFINITION. Transmit streams (chapter 7): frames, packet building, launch, discontinuities, kills and counters.
-/
namespace Sys2Proof.Machine

/-! ### Frames (R161, Table 7-5) -/

/-- Word i of an active TXS entry, as it stands for an STC instant. -/
def txWord (s : State) (stc n i : Nat) : Word := s.useAt stc (STX.TXSA_W0 n + 4 * i)

/-- The address octets of a row word as they stand in frames. -/
def octets (w : Word) : List Byte := leBytes 4 w.toNat

/-- The four words of an IPv6 row as 16 octets. -/
def rowOctets (s : State) (stc : Nat) (a : Nat → Nat) : List Byte := (List.range 4).flatMap (fun j => octets (s.useAt stc (a j)))

/-- The Ethernet header of an entry's frame on port p. -/
def ethHeader (s : State) (stc n p : Nat) : List Byte :=
  let w0 := txWord s stc n 0
  let w6 := txWord s stc n 6
  let w8 := (txWord s stc n 8).toNat
  let da := if p = 0 then octets (txWord s stc n 7) ++ leBytes 2 (w8 % 65536) else octets (txWord s stc n 9) ++ leBytes 2 (w8 / 65536)
  da ++ station s p ++
    (if STX.TXS_W0_VLAN.get w0 = 1 then [0x81, 0x00] ++ beBytes 2 (STX.TXS_W6_PCP.get w6 * 8192 + STX.TXS_W6_VID.get w6) else []) ++
    (if STX.TXS_W0_IPV6.get w0 = 1 then [0x86, 0xDD] else [0x08, 0x00])

/-- The IP header of an entry's frame on port p, for n bytes after it; the MAC fills the IPv4 checksum (R149). -/
def ipHeader (s : State) (stc n p len : Nat) : List Byte :=
  let w6 := txWord s stc n 6
  let w14 := txWord s stc n 14
  if STX.TXS_W0_IPV6.get (txWord s stc n 0) = 1 then
    let r := if p = 0 then STX.TXS_W14_A_ROW.get w14 else STX.TXS_W14_B_ROW.get w14
    beBytes 4 (6 * 2 ^ 28 + STX.TXS_W6_DSCP.get w6 * 2 ^ 22) ++ beBytes 2 len ++ [17, BitVec.ofNat 8 (STX.TXS_W6_TTL.get w6)] ++
      rowOctets s stc (STX.ROWA_SRC r) ++ rowOctets s stc (STX.ROWA_DST r)
  else
    [0x45, BitVec.ofNat 8 (STX.TXS_W6_DSCP.get w6 * 4)] ++ beBytes 2 (20 + len) ++ [0, 0, 0x40, 0, BitVec.ofNat 8 (STX.TXS_W6_TTL.get w6), 17, 0, 0] ++
      octets (txWord s stc n (if p = 0 then 12 else 13)) ++ octets (txWord s stc n (if p = 0 then 10 else 11))

/-- The RTP header of packet k of an entry (R164): `first` is its first sample. -/
def rtpHeader (s : State) (stc n k first : Nat) : List Byte :=
  let w3 := txWord s stc n 3
  [0x80, BitVec.ofNat 8 (STX.TXS_W3_PT.get w3)] ++ beBytes 2 ((k + STX.TXS_W3_SEQ_OFF.get w3) % 65536) ++
    beBytes 4 ((first + (txWord s stc n 4).toNat) % 2 ^ 32) ++ beBytes 4 (txWord s stc n 2).toNat

/-- The frame of packet k of an entry on port p, with its payload. -/
def streamFrame (s : State) (stc n p k first : Nat) (payload : List Byte) : List Byte :=
  let w5 := txWord s stc n 5
  ethHeader s stc n p ++ ipHeader s stc n p (20 + payload.length) ++
    beBytes 2 (STX.TXS_W5_UDP_SRC.get w5) ++ beBytes 2 (STX.TXS_W5_UDP_DST.get w5) ++ beBytes 2 (20 + payload.length) ++ [0, 0] ++
    rtpHeader s stc n k first ++ payload

/-! ### Packets -/

/-- The samples of packet k of an entry, in payload order, with the channel's place and the sample index (R164, R166). What the mode
mutes or lets live changes between packets, by their first samples (R81). -/
def packetSamples (s : State) (stc n k : Nat) : List (Nat × Nat × Smp) :=
  let w0 := txWord s stc n 0
  let c := STX.TXS_W0_PTIME.get w0
  let fs := rateHz s (STX.TXS_W0_RATE.get w0)
  let base := STX.TXS_W1_CH_BASE.get (txWord s stc n 1)
  let f := pktFirst c fs k
  (List.range (pktFirst c fs (k + 1) - f)).flatMap (fun i =>
    (List.range (STX.TXS_W0_NCH.get w0)).map (fun ch =>
      (f + i, ch, match entryBad s bSTX (STX.TXSA_W0 n) 64 with
                  | some x => x
                  | none => outFrom s bSTX 0 (base + ch) (mediaAt fs f) (mediaAt fs (f + i)))))

/-- The payload of packet k. -/
def packetPayload (s : State) (stc n : Nat) (l : List (Nat × Nat × Smp)) : List Byte :=
  let w0 := txWord s stc n 0
  let blk := csBlock s.family (STX.TXS_W0_RATE.get w0)
  l.flatMap (fun e => encodeSmp (STX.TXS_W0_FMT.get w0) (e.2.1 % 2 == 0) (STX.TXS_W0_CS_GEN.get w0 == 1) blk e.1 e.2.2)

/-- A stream frame takes its place in its queue: frames stand in the order of their launch instants (R142, R168). -/
def insertFrame (s : State) (f : TxFrame) (at3 : Nat) : List TxFrame → List TxFrame
  | [] => [f]
  | g :: r =>
    match g.src with
    | .stream n k => if at3 < launchAt3 s n k then f :: g :: r else g :: insertFrame s f at3 r
    | _ => g :: insertFrame s f at3 r

/-- Packet k of an entry is handed to the MAC of a port, and counted (R167, R172); a MAC that cannot queue it discards it (R138). -/
def handStream (s : State) (stc n p k first : Nat) (payload : List Byte) : State :=
  if txPort (txWord s stc n 0) p && unitPort s p then
    let bytes := streamFrame s stc n p k first payload
    let f : TxFrame := ⟨.stream n k, bytes, Nat.min bytes.length 2048, false⟩
    let s1 := { s with stx := { s.stx with ctr := ctrAdd (ctrAdd s.stx.ctr (4 * n + p) 1) (4 * 0x400 + p) 1 } }
    let q := STX.TXS_W1_QUEUE.get (txWord s stc n 1)
    if s1.blkOn (portBlk p) && linkUp s1 p && txEn s1 p then setMacQ s1 p q (insertFrame s1 f (launchAt3 s1 n k) (macQ s1 p q))
    else dropLink s1 p f
  else s

/-- Packet k of an entry is built, once, and handed to the ports it names (R164, R167). -/
def buildPacket (s : State) (stc n k : Nat) : State :=
  let w0 := txWord s stc n 0
  let l := packetSamples s stc n k
  let payload := packetPayload s stc n l
  let first := pktFirst (STX.TXS_W0_PTIME.get w0) (rateHz s (STX.TXS_W0_RATE.get w0)) k
  let s1 := if l.any (fun e => !e.2.2.ok) then { s with stx := { s.stx with ctr := ctrAdd s.stx.ctr (4 * 0x401) 1 } } else s
  let s2 := digestBuilt s1 ⟨false, n, k, crc32 (rtpHeader s stc n k first ++ payload)⟩
  handStream (handStream s2 stc n 0 k first payload) stc n 1 k first payload

/-- At the end of packet interval k, which is taken once, the entry as it stood at the start of the interval builds packet k: never one at or below
the last it sent, none while killed, and none before the first allowed after a kill (R165, R166, R171). -/
def endInterval (s : State) (n : Nat) : State :=
  let c := STX.TXS_W0_PTIME.get (s.use (STX.TXSA_W0 n))
  let i := pktIdx c s.time.stc
  let k := i - 1
  let stc := cdiv (pktAt3 c k) 3
  if s.blkOn bSTX && decide (0 < i) && decide (Tbl.getD s.stx.next n 0 ≤ k) && s.place.now.isSome then
    let s1 := { s with stx := { s.stx with next := Tbl.put s.stx.next n (k + 1) } }
    if STX.TXS_W0_EN.get (txWord s stc n 0) = 0 ∨ k < Tbl.getD s.stx.lastK n 0 then s1
    else if txKilled s n = true ∨ k < Tbl.getD s.stx.clearK n 0 then { s1 with stx := { s1.stx with ctr := ctrAdd s1.stx.ctr (4 * 0x402) 1 } }
    else buildPacket { s1 with stx := { s1.stx with lastK := Tbl.put s1.stx.lastK n (k + 1) } } stc n k
  else s

/-- The row STREAM_PACKET_BUILD. -/
def execStreamPacketBuild (t : Nat) (entry : Nat) (s : State) : Host.Outcome State Fault Refusal := .next (endInterval (s.at t) entry)

/-! ### Launch (R142, R146, R168) -/

/-- Whether a queued frame is of entry n with its launch instant at or before now. -/
def launched (s : State) (n : Nat) (f : TxFrame) : Bool :=
  match f.src with
  | .stream m k => m == n && decide (launchAt3 s n k ≤ s.time.stc * 3)
  | _ => false

/-- The newest launched frame of entry n becomes due; an earlier one that has not started is removed (R146). -/
def launchList (s : State) (n : Nat) : List TxFrame → List TxFrame
  | [] => []
  | f :: r =>
    if launched s n f then
      (if r.any (launched s n) then launchList s n r else { f with due := true } :: launchList s n r)
    else f :: launchList s n r

/-- A launch instant of an entry on a port. -/
def streamLaunch (s : State) (p n : Nat) : State :=
  let q := STX.TXS_W1_QUEUE.get (s.use (STX.TXSA_W1 n))
  let l := launchList s n (macQ s p q)
  let late := (macQ s p q).length - l.length
  let s1 := setMacQ s p q l
  if late = 0 then s1 else (macCount s1 p 0x24 late).raise (MAC.MAC_CAUSE p) 6

/-- The row STREAM_LAUNCH. -/
def execStreamLaunch (t : Nat) (port entry : Nat) (s : State) : Host.Outcome State Fault Refusal :=
  .next (if (s.at t).blkOn (portBlk port) && port < 2 then streamLaunch (s.at t) port entry else s.at t)

/-! ### Discontinuity, kills, counters -/

/-- The STC was stepped at once (R165): the intervals go on with the one that holds the new STC, and those stepped over are not sent. The state holds
the new STC; the step is in 2⁻⁸ ns. Every entry with EN 1 in the active bank counts as affected, a killed one too (DESIGN CHOICE, log entry 90). -/
def stxStep (s : State) (step : Int) : State :=
  if s.blkOn bSTX && txActive s != [] then
    let at_ := fun (n : Nat) => pktIdx (STX.TXS_W0_PTIME.get (s.use (STX.TXSA_W0 n))) s.time.stc
    let s1 := { s with stx := { s.stx with
      next := (txActive s).foldl (fun t n => Tbl.put t n (at_ n)) s.stx.next
      clearK := s.stx.clearK.map (fun (e : Nat × Nat) => (e.1, Nat.min e.2 (at_ e.1 + 1))) } }
    (s1.raise STX.CAUSE 1).emit .stream 0x5001 sevNOTICE 0 [pw step, (txActive s).length]
  else s

/-- A kill filter names TXS entry n (R171). -/
def txKill (s : State) (n : Nat) : State :=
  ((s.raise (STX.KILLED (n / 32)) (n % 32)).raise STX.CAUSE 0).emit .stream 0x5002 sevWARNING 0 []

/-- The kills of the entries 32k + i with i in `bits` end: an entry resumes with the first packet whose interval starts after now. -/
def txUnkill (s : State) (k bits : Nat) : State :=
  let one := fun (c : Tbl Nat) (i : Nat) =>
    if txKilled s (32 * k + i) then
      Tbl.put c (32 * k + i) (pktIdx (STX.TXS_W0_PTIME.get (s.use (STX.TXSA_W0 (32 * k + i)))) s.time.stc + 1)
    else c
  { s with stx := { s.stx with clearK := (bitsOf 32 bits).foldl one s.stx.clearK } }

/-- What the STX mailbox captures (Table 7-7). -/
def stxCapture (sel : Nat) (s : State) : Option (List Nat × State) :=
  let r := rcTake s.stx.ctr s.inst.ctrStx ((ctrKeys sel).take (if sel ≤ 0x400 then 2 else 1))
  let s1 := { s with stx := { s.stx with ctr := r.2.1 }, inst := { s.inst with ctrStx := r.2.2 } }
  if sel ≤ 0x402 then some (r.1.flatMap words64, s1) else none

/-- The row STX_COUNTER_READ. -/
def execStxCounterRead (t : Nat) (path : Path) (sel tag : Nat) (s : State) : Host.Outcome State Fault Refusal :=
  .next (mbxServe (s.at t) path bSTX sel tag (stxCapture sel))

end Sys2Proof.Machine
end

