-- ==== Sys2Proof/Machine/Srx.lean ====
section
/-!
DEFINITION. Receive streams (chapter 8): policers, keys, acceptance, the seamless merge, lock, read-out, kills and counters.
-/
namespace Sys2Proof.Machine

/-! ### Entries -/

/-- The receive state of an entry, and replacing it. -/
def rxsOf (s : State) (n : Nat) : RxsS := Tbl.getD s.srx.rxs n .init
def setRxs (s : State) (n : Nat) (r : RxsS) : State := { s with srx := { s.srx with rxs := Tbl.put s.srx.rxs n r } }

/-- Count for SRX: selector and position (Tables 8-11 and 8-12). -/
def srxCount (s : State) (sel pos : Nat) : State := { s with srx := { s.srx with ctr := ctrAdd s.srx.ctr (4 * sel + pos) 1 } }

/-- Word i of RXS entry n under a way of reading the active bank. -/
def rxWord (rd : Nat → Word) (n i : Nat) : Word := rd (SRX.RXSA_W0 n + 4 * i)

/-- What the fields of an entry say, under a way of reading the active bank. -/
def rxPtime (rd : Nat → Word) (n : Nat) : Nat := SRX.RXS_W0_PTIME.get (rxWord rd n 0)
def rxNch (rd : Nat → Word) (n : Nat) : Nat := SRX.RXS_W0_NCH.get (rxWord rd n 0)
def rxFs (s : State) (rd : Nat → Word) (n : Nat) : Nat := rateHz s (SRX.RXS_W0_RATE.get (rxWord rd n 0))
def rxLinkOff (rd : Nat → Word) (n : Nat) : Nat := SRX.RXS_W2_LINK_OFF.get (rxWord rd n 2)
def rxBufLen (rd : Nat → Word) (n : Nat) : Nat := SRX.RXS_W2_BUF_LEN.get (rxWord rd n 2)
def rxPort (rd : Nat → Word) (n p : Nat) : Bool :=
  if p = 0 then SRX.RXS_W0_PORT_A.get (rxWord rd n 0) == 1 else if p = 1 then SRX.RXS_W0_PORT_B.get (rxWord rd n 0) == 1 else false
def rxEnabled (rd : Nat → Word) (n : Nat) : Bool := SRX.RXS_W0_EN.get (rxWord rd n 0) == 1

/-- The addresses listed in the tables as they stood before the last swap. -/
def prevAddrs (s : State) : List Nat := match s.banks with | b :: _ => b.regs.map (fun (e : Nat × Word) => phys b.sel e.1) | [] => []

/-- Enabled entries of the bank that was active before the last swap. -/
def rxActivePrev (s : State) : List Nat :=
  (((prevAddrs s).filter
      (fun a => decide (0x0820000 ≤ a) && decide (a < 0x0830000) && (a - 0x0820000) % 64 == 0)).map
    (fun a => (a - 0x0820000) / 64)).filter (fun n => rxEnabled s.rdPrev n)

/-! ### Policers (R192) -/

/-- A bucket settled up to the index of the latest instant at which it gains a token; full where it has not been used since it was
enabled or written. -/
def settleBucket (b : Option Bucket) (depth idx : Nat) : Bucket :=
  match b with
  | some x => ⟨Nat.min depth (x.tok + (idx - x.idx)), idx⟩
  | none => ⟨depth, idx⟩

/-- A bucket after a frame has asked it for a token. -/
def takeToken (b : Bucket) : Bool × Bucket := if b.tok = 0 then (false, b) else (true, { b with tok := b.tok - 1 })

/-- Instants so far of a policer with a rate in thousands of tokens per second. -/
def rateIdx (s : State) (rateK : Nat) : Nat := s.time.stc * (rateK * 1000) / stcSec 1

/-- The stream policer of an entry on a port, settled. -/
def streamBucket (s : State) (rd : Nat → Word) (n p : Nat) : Bucket :=
  let depth := SRX.RXS_W6_POL_BURST.get (rxWord rd n 6)
  settleBucket (s.srx.pol.find (2 * n + p)) (if depth = 0 then 1 else depth) (pktIdx (rxPtime rd n) s.time.stc)

/-- The management policer of a port, settled. -/
def mgmtBucket (s : State) (p : Nat) : Bucket :=
  let a := SRX.MGMT_POL p
  settleBucket (s.srx.mgmtPol.find p) (s.fld a SRX.MGMT_POL_BURST) (rateIdx s (s.fld a SRX.MGMT_POL_RATE_K))

/-- The unmatched policer of a port, settled. -/
def unmBucket (s : State) (p : Nat) : Bucket :=
  settleBucket (s.srx.unmPol.find p) (s.fld SRX.UNM_CTL SRX.UNM_CTL_BURST) (rateIdx s (s.fld SRX.UNM_CTL SRX.UNM_CTL_RATE_K))

/-- Store a policer. -/
def setPol (s : State) (n p : Nat) (b : Bucket) : State := { s with srx := { s.srx with pol := Tbl.put s.srx.pol (2 * n + p) b } }
def setMgmtPol (s : State) (p : Nat) (b : Bucket) : State := { s with srx := { s.srx with mgmtPol := Tbl.put s.srx.mgmtPol p b } }
def setUnmPol (s : State) (p : Nat) (b : Bucket) : State := { s with srx := { s.srx with unmPol := Tbl.put s.srx.unmPol p b } }

/-- The row POLICER_TOKEN: kind 0 a stream policer (entry, port), 1 the management policer, 2 the unmatched policer of a port. -/
def execPolicerToken (t : Nat) (kind index port : Nat) (s : State) : Host.Outcome State Fault Refusal :=
  .next (
    let s0 := s.at t
    if !s0.blkOn bSRX then s0
    else if kind = 0 then setPol s0 index port (streamBucket s0 s0.use index port)
    else if kind = 1 then setMgmtPol s0 port (mgmtBucket s0 port)
    else setUnmPol s0 port (unmBucket s0 port))

/-! ### Ingress buffers (R176) -/

/-- Shared and reserved ingress buffers of a port that are free. -/
def sharedFree (s : State) (p : Nat) : Nat := 96 - ((s.srx.rings.filter (fun f => f.port == p)).map (fun f => f.shared)).foldl (· + ·) 0
def rsvFree (s : State) (p : Nat) : Nat := 32 - ((s.srx.rings.filter (fun f => f.port == p)).map (fun f => f.rsv)).foldl (· + ·) 0

/-- Length of a received frame, FCS included, and the buffers it takes. -/
def rxLen (f : RxFrame) : Nat := if f.oversize then f.bytes.length else f.bytes.length + 4
def rxBufs (f : RxFrame) : Nat := cdiv (rxLen f) 2048

/-! ### Keys (R182) -/

/-- What a frame shows to the keys: IPv6 or not, its VLAN identifier if tagged, its addresses, and where its UDP header lies. -/
structure UdpView where
  v6 : Bool
  vid : Option Nat
  src : List Byte
  dst : List Byte
  udp : Nat
deriving DecidableEq, Repr

/-- The VLAN identifier of a frame's one tag. -/
def vidOf (f : List Byte) : Option Nat := if beAt f 12 2 = 0x8100 then some (beAt f 14 2 % 4096) else none

/-- The media view of a frame: unfragmented IPv4 with IHL 5 and protocol 17, or IPv6 with next header 17. -/
def udpView (f : List Byte) : Option UdpView :=
  let o := etOff f + 2
  if beAt f (etOff f) 2 = 0x0800 then
    if byteAt f o = 0x45 ∧ beAt f (o + 6) 2 % 16384 = 0 ∧ byteAt f (o + 9) = 17 ∧ o + 28 ≤ f.length then
      some ⟨false, vidOf f, (f.drop (o + 12)).take 4, (f.drop (o + 16)).take 4, o + 20⟩
    else none
  else if beAt f (etOff f) 2 = 0x86DD then
    if byteAt f o / 16 = 6 ∧ byteAt f (o + 6) = 17 ∧ o + 48 ≤ f.length then
      some ⟨true, vidOf f, (f.drop (o + 8)).take 16, (f.drop (o + 24)).take 16, o + 40⟩
    else none
  else none

/-- The destination, and the source, address of an entry for a port, as they stand in frames. -/
def rxRow (rd : Nat → Word) (n p : Nat) : Nat :=
  if p = 0 then SRX.RXS_W11_A_ROW.get (rxWord rd n 11) else SRX.RXS_W11_B_ROW.get (rxWord rd n 11)
def rxDst (rd : Nat → Word) (n p : Nat) : List Byte :=
  if SRX.RXS_W0_IPV6.get (rxWord rd n 0) = 1 then (List.range 4).flatMap (fun j => octets (rd (SRX.ROWA_DST (rxRow rd n p) j)))
  else octets (rxWord rd n (if p = 0 then 7 else 8))
def rxSrc (rd : Nat → Word) (n p : Nat) : List Byte :=
  if SRX.RXS_W0_IPV6.get (rxWord rd n 0) = 1 then (List.range 4).flatMap (fun j => octets (rd (SRX.ROWA_SRC (rxRow rd n p) j)))
  else octets (rxWord rd n (if p = 0 then 9 else 10))

/-- Whether a frame matches the key of an enabled entry on a port. -/
def keyHit (rd : Nat → Word) (n p : Nat) (f : List Byte) (v : UdpView) : Bool :=
  let w0 := rxWord rd n 0
  let w5 := rxWord rd n 5
  rxEnabled rd n && rxPort rd n p && (SRX.RXS_W0_IPV6.get w0 == 1) == v.v6 && v.dst == rxDst rd n p &&
  beAt f (v.udp + 2) 2 == SRX.RXS_W5_UDP_DST.get w5 &&
  (if SRX.RXS_W0_VLAN.get w0 = 1 then v.vid == some (SRX.RXS_W5_VID.get w5) else v.vid.getD 0 == 0) &&
  (SRX.RXS_W0_SIP_EN.get w0 == 0 || v.src == rxSrc rd n p)

/-- Whether one frame can match the keys of entries n and m on port p. -/
def keyClash (rd : Nat → Word) (n m p : Nat) : Bool :=
  let a := rxWord rd n 0
  let b := rxWord rd m 0
  rxPort rd n p && rxPort rd m p && SRX.RXS_W0_IPV6.get a == SRX.RXS_W0_IPV6.get b && rxDst rd n p == rxDst rd m p &&
  SRX.RXS_W5_UDP_DST.get (rxWord rd n 5) == SRX.RXS_W5_UDP_DST.get (rxWord rd m 5) &&
  (let va := if SRX.RXS_W0_VLAN.get a = 1 then SRX.RXS_W5_VID.get (rxWord rd n 5) else 0
   let vb := if SRX.RXS_W0_VLAN.get b = 1 then SRX.RXS_W5_VID.get (rxWord rd m 5) else 0
   va == vb) &&
  (SRX.RXS_W0_SIP_EN.get a == 0 || SRX.RXS_W0_SIP_EN.get b == 0 || rxSrc rd n p == rxSrc rd m p)

/-! ### RTP (R184, Table 8-5 step 3) -/

/-- The sample index of an RTP timestamp: congruent to ts − TS_OFF and within 2³¹ of the current media sample count (R184). -/
def sampleIdx (s : State) (rd : Nat → Word) (n ts : Nat) : Int :=
  let c := mediaNow s (rxFs s rd n)
  (c : Int) + sgn 32 (lowBits 32 ((ts : Int) - ((rxWord rd n 4).toNat : Int) - (c : Int)))

/-- An RTP packet as step 3 accepts it: sequence number, timestamp, SSRC, samples per channel and payload. -/
structure RtpView where
  seq : Nat
  ts : Nat
  ssrc : Nat
  len : Nat
  payload : List Byte
deriving DecidableEq, Repr

/-- The IPv4 header checksum of a frame is right. -/
def ipSumOk (f : List Byte) (v : UdpView) : Bool := v.v6 || ocFold (ocFold (ocSum ((f.drop (v.udp - 20)).take 20))) == 0xFFFF

/-- Step 3 of Table 8-5. -/
def rtpView (s : State) (rd : Nat → Word) (n : Nat) (f : List Byte) (v : UdpView) : Option RtpView :=
  let r := v.udp + 8
  let stop := v.udp + beAt f (v.udp + 4) 2
  let b0 := byteAt f r
  let ext := r + 12 + 4 * (b0 % 16)
  let start := if bit b0 4 then ext + 4 + 4 * beAt f (ext + 2) 2 else ext
  let pad := if bit b0 5 then byteAt f (stop - 1) else 0
  let unit := rxNch rd n * fmtBytes (SRX.RXS_W0_FMT.get (rxWord rd n 0))
  let size := stop - pad - start
  if ipSumOk f v && b0 / 64 == 2 && decide (stop ≤ f.length) && decide (start + pad < stop) && decide (0 < unit) && size % unit == 0 &&
     decide (size / unit ≤ sMax (rxPtime rd n) (rxFs s rd n)) then
    some ⟨beAt f (r + 2) 2, beAt f (r + 4) 4, beAt f (r + 8) 4, size / unit, (f.drop start).take size⟩
  else none

/-! ### Merge and lock (R187 to R189) -/

/-- The entry unlocks: the map is cleared without evaluation. -/
def rxUnlock (s : State) (n : Nat) : State := setRxs s n { rxsOf s n with locked := false, map := [], run := 0 }

/-- Whether port p delivered one of the sequence numbers HSEQ − 15 to HSEQ. -/
def liveOf (r : RxsS) (p : Nat) : Bool := (List.range 16).any (fun j => bit (Tbl.getD r.map ((r.hseq + 65536 - j) % 65536) 0) p)

/-- A_LIVE and B_LIVE take new values; PATH_DOWN sets where one falls on a port that a locked entry names (Table 8-4). -/
def setLive (s : State) (rd : Nat → Word) (n : Nat) (a b : Bool) : State :=
  let r := rxsOf s n
  let fell := (r.aLive && !a && rxPort rd n 0) || (r.bLive && !b && rxPort rd n 1)
  let s1 := setRxs s n { r with aLive := a, bLive := b }
  if fell && r.locked then s1.raise SRX.CAUSE 1 else s1

/-- Evaluate a sequence number that falls more than 1,023 below HSEQ, and clear its bits (R188: every one, also a number below the one the
entry locked at; log entry 25). -/
def evalSeq (s : State) (rd : Nat → Word) (n q : Nat) : State :=
  let b := Tbl.getD (rxsOf s n).map q 0
  let s1 := setRxs s n { rxsOf s n with map := (rxsOf s n).map.del q }
  let s2 := if b = 0 then srxCount s1 n 2 else s1
  let s3 := if !bit b 0 && rxPort rd n 0 then srxCount s2 (0x400 + n) 2 else s2
  if !bit b 1 && rxPort rd n 1 then srxCount s3 (0x400 + n) 3 else s3

/-- HSEQ advances by d to a new sequence number; A_LIVE and B_LIVE are evaluated again (Table 8-4). -/
def rxAdvance (s : State) (rd : Nat → Word) (n d seq : Nat) : State :=
  let r := rxsOf s n
  let s1 := (List.range d).foldl (fun st j => evalSeq st rd n ((r.hseq + 65536 - 1023 + j) % 65536)) s
  let s2 := setRxs s1 n { rxsOf s1 n with hseq := seq }
  setLive s2 rd n (liveOf (rxsOf s2 n) 0) (liveOf (rxsOf s2 n) 1)

/-- Set port p's bit of a sequence number; HSEQ advances where the number lies above it (R187). -/
def rxMark (s : State) (rd : Nat → Word) (n p seq : Nat) : State :=
  let r := rxsOf s n
  let d := sgn 16 (seq + 65536 - r.hseq)
  let s1 := setRxs s n { r with map := Tbl.put r.map seq (setBit (Tbl.getD r.map seq 0) p true) }
  if 0 < d then rxAdvance s1 rd n d.toNat seq else s1

/-- The samples of a packet are written at positions n mod BUF_LEN. -/
def rxWrite (s : State) (rd : Nat → Word) (n : Nat) (first : Int) (r : RtpView) : State :=
  let fmt := SRX.RXS_W0_FMT.get (rxWord rd n 0)
  let nch := rxNch rd n
  let w := fmtBytes fmt
  let cells := (List.range r.len).flatMap (fun (i : Nat) => (List.range nch).map (fun (c : Nat) =>
    (((first + (i : Int)) % (rxBufLen rd n : Int)).toNat * 256 + c, decodeSmp fmt ((r.payload.drop ((i * nch + c) * w)).take w))))
  let e := rxsOf s n
  setRxs s n { e with buf := cells.foldl (fun t x => Tbl.put t x.1 x.2) e.buf }

/-- Steps 6 to 8 of Table 8-5 and the write, for a packet that has passed step 5. -/
def rxAccept (s : State) (rd : Nat → Word) (n p : Nat) (f : RxFrame) (r : RtpView) : State :=
  let e := rxsOf s n
  let fs := rxFs s rd n
  let first := sampleIdx s rd n r.ts
  let ready : Int := (f.stamp : Int) + ((rxLen f * byte25 (portRate s p) * 2 ^ 56 / 25 + 1000 * 2 ^ 56 : Nat) : Int)
  let lo := (rxLinkOff rd n : Int)
  let m := Tbl.getD e.map r.seq 0
  if bit m p then srxCount s (0xC00 + n) 2
  else if (first + lo) * (stcSec 1 : Int) < ready * (fs : Int) then srxCount s (0x400 + n) p
  else if ready * (fs : Int) + (rxBufLen rd n : Int) * (stcSec 1 : Int) ≤ (first + ((r.len - 1 : Nat) : Int) + lo) * (stcSec 1 : Int) then
    srxCount s (0x800 + n) 0
  else if bit m (1 - p) then rxMark s rd n p r.seq
  else
    let s1 := if sgn 16 (r.seq + 65536 - e.hseq) < 0 then srxCount s n 3 else s
    rxMark (rxWrite s1 rd n first r) rd n p r.seq

/-- Step 5 and the lock (R187, R189). The first of the 8 frames of a run stands by itself: of the other 7 each is 1 to 4 above the one before it
(DEDUCED, log entry 93). -/
def rxSequence (s : State) (rd : Nat → Word) (n p : Nat) (f : RxFrame) (r : RtpView) : State :=
  let e0 := rxsOf s n
  let e := if e0.locked then e0 else { e0 with locked := true, hseq := r.seq, run := 0, map := [] }
  let d := sgn 16 (r.seq + 65536 - e.hseq)
  if -1023 ≤ d ∧ d ≤ 1024 then
    rxAccept (setRxs s n { e with run := 0, lastOk := s.now }) rd n p f r
  else
    let up := (r.seq + 65536 - e.runSeq) % 65536
    let run := if e.run ≠ 0 ∧ 1 ≤ up ∧ up ≤ 4 then e.run + 1 else 1
    if run < 8 then setRxs (srxCount s (0xC00 + n) 0) n { e with run := run, runSeq := r.seq }
    else
      let s1 := setRxs s n { e with run := 0, runSeq := r.seq, map := [], hseq := r.seq
                                    relocks := Nat.min 255 (e.relocks + 1), lastOk := s.now }
      rxAccept ((s1.raise SRX.CAUSE 3).emit .stream 0x6002 sevNOTICE 0 []) rd n p f r

/-- A media frame that matches entry n on port p (Table 8-5); a frame of a killed entry is discarded uncounted. -/
def rxMedia (s : State) (rd : Nat → Word) (n p : Nat) (f : RxFrame) (v : UdpView) : State :=
  if rxKilled s n then s
  else
    let tk := takeToken (streamBucket s rd n p)
    let s1 := setPol s n p tk.2
    if !tk.1 then srxCount s1 (0x800 + n) (2 + p)
    else if sharedFree s1 p < rxBufs f then srxCount s1 (0xC00 + n) 3
    else
      match rtpView s1 rd n f.bytes v with
      | none => srxCount s1 (0x800 + n) 1
      | some r =>
        if SRX.RXS_W0_SSRC_EN.get (rxWord rd n 0) = 1 ∧ r.ssrc ≠ (rxWord rd n 3).toNat then srxCount s1 (0xC00 + n) 1
        else rxSequence (srxCount s1 n p) rd n p f r

/-! ### Read-out (R184, R188) -/

/-- One read-out instant of an entry, tick = sample index + LINK_OFF: every channel takes its value, and the position empties. An entry that
is disabled or unlocked first reads out the samples already written (R183, R189), and carries zero samples marked invalid (R181) where none is
left (DESIGN CHOICE, log entry 92). -/
def rxTick (s : State) (n m : Nat) : State :=
  let rd := s.use
  let pos := (((m : Int) - (rxLinkOff rd n : Int)) % (rxBufLen rd n : Int)).toNat
  let e := rxsOf s n
  let base := SRX.RXS_W1_CH_BASE.get (rxWord rd n 1)
  let at_ := mediaAt (rxFs s rd n) m
  let val := fun (c : Nat) =>
    if rxKilled s n then smpBad
    else match entryBad s bSRX (SRX.RXSA_W0 n) 64 with
      | some x => x
      | none => Tbl.getD e.buf (pos * 256 + c) smpBad
  let s1 := (List.range (rxNch rd n)).foldl (fun st c => srcPut st (base + c) at_ (val c)) s
  let s2 := setRxs s1 n { e with buf := e.buf.filter (fun x => x.1 / 256 != pos), tick := m + 1 }
  if e.locked && (e.buf.find (pos * 256)).isNone then s2.raise SRX.CAUSE 2 else s2

/-- Every read-out instant of an entry up to now, in order; after a backward step of the STC only the present one. -/
def rxReadout (s : State) (n : Nat) : State :=
  let m := mediaNow s (rxFs s s.use n)
  let e := rxsOf s n
  if m + 1 = e.tick then s
  else
    let from_ := if e.tick = 0 ∨ m < e.tick ∨ e.tick + rxBufLen s.use n < m then m else e.tick
    (List.range (m + 1 - from_)).foldl (fun st i => rxTick st n (from_ + i)) s

/-- The row RX_SAMPLE_READOUT. -/
def execRxSampleReadout (t : Nat) (entry : Nat) (s : State) : Host.Outcome State Fault Refusal :=
  .next (if (s.at t).blkOn bSRX then rxReadout (s.at t) entry else s.at t)

/-- Whether no frame of the entry has passed step 5 for k packet times. -/
def rxSilent (s : State) (n k : Nat) : Bool := decide (k * ptime3 (rxPtime s.use n) * 65536 ≤ (s.now - (rxsOf s n).lastOk) * 3)

/-- The row RX_LOCK_TIMEOUT (R189). -/
def execRxLockTimeout (t : Nat) (entry : Nat) (s : State) : Host.Outcome State Fault Refusal :=
  .next (if (rxsOf (s.at t) entry).locked && rxSilent (s.at t) entry 1024 then rxUnlock (s.at t) entry else s.at t)

/-- The row PATH_LIVE_TIMEOUT (Table 8-4). -/
def execPathLiveTimeout (t : Nat) (entry : Nat) (s : State) : Host.Outcome State Fault Refusal :=
  .next (if rxSilent (s.at t) entry 16 then setLive (s.at t) (s.at t).use entry false false else s.at t)

/-! ### Kills, commits, counters -/

/-- A kill filter names RXS entry n (R194). -/
def rxKill (s : State) (n : Nat) : State :=
  rxUnlock (((s.raise (SRX.KILLED (n / 32)) (n % 32)).raise SRX.CAUSE 0).emit .stream 0x6003 sevWARNING 0 []) n

/-- RXS_STATUSn (Table 8-4). -/
def rxsStatus (s : State) (n : Nat) : Word :=
  let e := rxsOf s n
  BitVec.ofNat 32 (b2n e.locked + 2 * b2n e.aLive + 4 * b2n e.bLive + e.relocks * 256 + e.hseq * 65536)

/-- An enabled or changed entry at a swap (R183, R189, R192): a change other than one that keeps EN and TS_OFF unlocks it; RELOCKS and the
policers start anew where EN rises, the policers where POL_BURST changed. -/
def rxChange (s : State) (n : Nat) : State :=
  let was := rxEnabled s.rdPrev n
  let is := rxEnabled s.rd n
  let s1 := if was && is && rxWord s.rdPrev n 4 == rxWord s.rd n 4 then s else if was || is then rxUnlock s n else s
  let s2 := if is && !was then setRxs s1 n { rxsOf s1 n with relocks := 0 } else s1
  if (is && !was) || rxWord s.rdPrev n 6 != rxWord s.rd n 6 then
    { s2 with srx := { s2.srx with pol := (s2.srx.pol.del (2 * n)).del (2 * n + 1) } }
  else s2

/-- The pairs of enabled entries that share a key (R182). -/
def clashes (s : State) : List (Nat × Nat) :=
  (rxActive s).flatMap (fun n => ((rxActive s).filter (fun m => decide (n < m) && (keyClash s.use n m 0 || keyClash s.use n m 1))).map (fun m => (n, m)))

/-- An Internet group address. -/
def isGroup (v6 : Bool) (a : List Byte) : Bool := if v6 then byteAt a 0 == 0xFF else byteAt a 0 / 16 == 14

/-- An IGMPv3 report for one group (RFC 3376; log entry 26): CHANGE_TO_INCLUDE with one source, or CHANGE_TO_EXCLUDE with none. -/
def igmpReport (s : State) (p : Nat) (g : List Byte) (src : Option (List Byte)) : List Byte :=
  let body : List Byte := [0x22, 0, 0, 0, 0, 0, 0, 1] ++
    (match src with
     | some a => [3, 0, 0, 1] ++ g ++ a
     | none => [4, 0, 0, 0] ++ g)
  [0x01, 0x00, 0x5E, 0x00, 0x00, 0x16] ++ station s p ++ [0x08, 0x00, 0x46, 0xC0] ++ beBytes 2 (24 + body.length) ++
    [0, 0, 0x40, 0, 1, 2, 0, 0, 0, 0, 0, 0, 224, 0, 0, 22, 0x94, 4, 0, 0] ++ put16 body 2 (inetSum (ocSum body))

/-- An MLDv2 report for one group (RFC 3810; log entry 26). -/
def mldReport (s : State) (p : Nat) (g : List Byte) (src : Option (List Byte)) : List Byte :=
  let body : List Byte := [143, 0, 0, 0, 0, 0, 0, 1] ++
    (match src with
     | some a => [3, 0, 0, 1] ++ g ++ a
     | none => [4, 0, 0, 0] ++ g)
  let zero := List.replicate 16 (0 : Byte)
  let dst : List Byte := [0xFF, 0x02] ++ List.replicate 13 0 ++ [0x16]
  [0x33, 0x33, 0x00, 0x00, 0x00, 0x16] ++ station s p ++ [0x86, 0xDD, 0x60, 0, 0, 0] ++ beBytes 2 (8 + body.length) ++ [0, 1] ++ zero ++ dst ++
    [58, 0, 5, 2, 0, 0, 1, 0] ++ put16 body 2 (inetSum (ocSum dst + 58 + body.length + ocSum body))

/-- The membership reports of an enabled entry on those of some ports that it names (R182). -/
def joinGroups (s : State) (n : Nat) (ports : List Nat) : State :=
  ports.foldl (fun st p =>
    let v6 := SRX.RXS_W0_IPV6.get (rxWord st.use n 0) == 1
    let g := rxDst st.use n p
    let src := if SRX.RXS_W0_SIP_EN.get (rxWord st.use n 0) = 1 then some (rxSrc st.use n p) else none
    if rxPort st.use n p && isGroup v6 g then sendControl st p (if v6 then mldReport st p g src else igmpReport st p g src) else st) s

/-- What the reports of an entry say: its ports, destinations, source filters. -/
def joinKey (rd : Nat → Word) (n : Nat) : List (Bool × List Byte × Option (List Byte)) :=
  ([0, 1] : List Nat).map (fun p => (rxPort rd n p, rxDst rd n p, if SRX.RXS_W0_SIP_EN.get (rxWord rd n 0) = 1 then some (rxSrc rd n p) else none))

/-- What the receive table does at a swap: changed entries, clashes, membership reports of entries that have come up or whose group, source
filter or ports have changed. -/
def srxSwap (s : State) : State :=
  if !s.blkOn bSRX then s
  else
    let s1 := ((rxActivePrev s ++ rxActive s).eraseDups).foldl rxChange s
    let s2 := (clashes s1).foldl (fun st c => (st.raise SRX.CAUSE 5).emit .stream 0x6001 sevWARNING 0 [c.1, c.2]) s1
    ((rxActive s2).filter (fun n => !rxEnabled s2.rdPrev n || joinKey s2.rdPrev n != joinKey s2.use n)).foldl (fun st n => joinGroups st n [0, 1]) s2

/-- The row LINK_UP: the conditions of LINK come to hold (R138). The reports for the groups of the port's entries go out again, since those sent
with LINK at 0 were discarded (R182; log entry 26). -/
def execLinkUp (t : Nat) (port : Nat) (s : State) : Host.Outcome State Fault Refusal :=
  .next (
    let s0 := s.at t
    if s0.blkOn (portBlk port) && !linkUp s0 port then
      let s1 := linkRise s0 port
      if port < 2 && s1.blkOn bSRX then (rxActive s1).foldl (fun st n => joinGroups st n [port]) s1 else s1
    else s0)

/-- What the SRX mailbox captures (R196). -/
def srxCapture (sel : Nat) (s : State) : Option (List Nat × State) :=
  if sel < 0x1003 then
    let r := rcTake s.srx.ctr s.inst.ctrSrx (ctrKeys sel)
    some (r.1.flatMap words64, { s with srx := { s.srx with ctr := r.2.1 }, inst := { s.inst with ctrSrx := r.2.2 } })
  else none

/-- The row SRX_COUNTER_READ. -/
def execSrxCounterRead (t : Nat) (path : Path) (sel tag : Nat) (s : State) : Host.Outcome State Fault Refusal :=
  .next (mbxServe (s.at t) path bSRX sel tag (srxCapture sel))

end Sys2Proof.Machine
end

