-- ==== Sys2Proof/Machine/Ingress.lean ====
section
/-!
DEFINITION. Classification of received frames (R174 to R176, R191 to R195).
-/
namespace Sys2Proof.Machine

/-- The next header of an IPv6 packet at o after its extension headers (R175 counts MLD, which carries one). -/
def ip6Last (f : List Byte) (o nxt : Nat) : Nat → Nat
  | 0 => nxt
  | k + 1 => if nxt = 0 ∨ nxt = 43 ∨ nxt = 60 then ip6Last f (o + 8 * (byteAt f (o + 1) + 1)) (byteAt f o) k else nxt

/-- The UDP destination port of an unfragmented IPv4 datagram, or of IPv6 with UDP directly after the fixed header (R191). The built-in rules
for UDP ports (R175) are taken to look no further than this: a first fragment, or UDP behind IPv6 extension headers, matches none of them
(DESIGN CHOICE, log entry 91). -/
def udpDst (f : List Byte) : Option Nat :=
  let o := etOff f + 2
  if beAt f (etOff f) 2 = 0x0800 then
    if byteAt f o / 16 = 4 ∧ beAt f (o + 6) 2 % 16384 = 0 ∧ byteAt f (o + 9) = 17 then some (beAt f (o + byteAt f o % 16 * 4 + 2) 2) else none
  else if beAt f (etOff f) 2 = 0x86DD then
    if byteAt f o / 16 = 6 ∧ byteAt f (o + 6) = 17 then some (beAt f (o + 42) 2) else none
  else none

/-- Where a management-class frame goes. -/
inductive MgmtDest
  | ptp | cores | ring (r k : Nat)
deriving DecidableEq, Repr

/-- The built-in rules (Table 8-1). -/
def builtIn (f : List Byte) : Option MgmtDest :=
  let et := beAt f (etOff f) 2
  let o := etOff f + 2
  if et = 0x88F7 ∨ udpDst f = some 319 ∨ udpDst f = some 320 then some .ptp
  else if et = 0x0806 then some .cores
  else if et = 0x0800 ∧ (byteAt f (o + 9) = 1 ∨ byteAt f (o + 9) = 2) then some .cores
  else if et = 0x86DD ∧ ip6Last f (o + 40) (byteAt f (o + 6)) 8 = 58 then some .cores
  else if udpDst f = some 9875 then some .cores else none

/-- Whether management rule k matches a frame on a port (Table 8-9). -/
def ruleHit (s : State) (k p : Nat) (f : List Byte) : Bool :=
  let w := s.rd (SRX.MC_RULE0 k)
  let v := SRX.MC_RULE0_VALUE.get w
  bit (SRX.MC_RULE0_PORTS.get w) p &&
  (if SRX.MC_RULE0_TYPE.get w = 1 then beAt f (etOff f) 2 == v
   else if SRX.MC_RULE0_TYPE.get w = 2 then udpDst f == some v
   else if SRX.MC_RULE0_TYPE.get w = 3 then f.take 6 == octets (s.rd (SRX.MC_RULE1 k)) ++ leBytes 2 v
   else false)

/-- The management class of a frame (R174, steps 1 and 2). -/
def mgmtClass (s : State) (p : Nat) (f : List Byte) : Option MgmtDest :=
  match builtIn f with
  | some d => some d
  | none =>
    match (List.range 16).find? (fun k => ruleHit s k p f) with
    | some k =>
      let w := s.rd (SRX.MC_RULE0 k)
      some (if SRX.MC_RULE0_TO_RING.get w = 1 then .ring (SRX.MC_RULE0_RING.get w) k else .cores)
    | none => none

/-- Whether kill filter k matches a management-class frame on a port (R193); the frame counts from its destination address through its
FCS. -/
def killHit (s : State) (k p : Nat) (f : List Byte) : Bool :=
  let w := s.rd (SRX.KILL_CTL k)
  let o := SRX.KILL_CTL_OFF.get w
  SRX.KILL_CTL_EN.get w == 1 && bit (SRX.KILL_CTL_PORTS.get w) p && decide (o + 16 ≤ f.length) &&
  (List.range 4).all (fun i =>
    let m := s.rd (SRX.KILL_MASK k i)
    (BitVec.ofNat 32 (leAt f (o + 4 * i) 4) &&& m) == (s.rd (SRX.KILL_VAL k i) &&& m))

/-- Every kill filter that matches acts (R193). -/
def killFilters (s : State) (p : Nat) (f : List Byte) : State :=
  (List.range 16).foldl (fun st k =>
    if killHit s k p f then
      (let n := SRX.KILL_CTL_SID.get (s.rd (SRX.KILL_CTL k))
       if SRX.KILL_CTL_DIR.get (s.rd (SRX.KILL_CTL k)) = 1 then rxKill st n else txKill st n)
    else st) s

/-- A management-class frame that its policer or the buffers do not admit. -/
def mgmtDrop (s : State) (p : Nat) : State := (srxCount s (0x1000 + p) 1).raise SRX.CAUSE 4

/-- A management-class frame under its policer (R176, R192). -/
def mgmtFrame (s : State) (p : Nat) (d : MgmtDest) (f : RxFrame) : State :=
  let s0 := killFilters s p (f.bytes ++ fcsOf f.bytes)
  let tk := takeToken (mgmtBucket s0 p)
  let s1 := setMgmtPol s0 p tk.2
  let need := rxBufs f
  if !tk.1 || decide (rsvFree s1 p + sharedFree s1 p < need) then mgmtDrop s1 p
  else
    let s2 := srxCount s1 (0x1000 + p) 0
    match d with
    | .ptp => { s2 with srx := { s2.srx with ptp := ⟨p, f.bytes, f.stamp⟩ :: s2.srx.ptp } }
    | .cores => { s2 with srx := { s2.srx with ctrl := ⟨p, f.bytes, f.stamp⟩ :: s2.srx.ctrl } }
    | .ring r k =>
      let rsv := Nat.min need (rsvFree s2 p)
      { s2 with srx := { s2.srx with rings := s2.srx.rings ++ [⟨p, f.bytes, f.stamp, f.oversize, true, rsv, need - rsv, r, k⟩] } }

/-- An unmatched frame (R192). -/
def unmatched (s : State) (p : Nat) (f : RxFrame) : State :=
  if s.flag SRX.UNM_CTL SRX.UNM_CTL_EN then
    let tk := takeToken (unmBucket s p)
    let s1 := setUnmPol s p tk.2
    if !tk.1 || decide (sharedFree s1 p < rxBufs f) then srxCount s1 (0x1000 + p) 3
    else
      let s2 := srxCount s1 (0x1000 + p) 2
      { s2 with srx := { s2.srx with rings := s2.srx.rings ++ [⟨p, f.bytes, f.stamp, f.oversize, false, 0, rxBufs f, s.fld SRX.UNM_CTL SRX.UNM_CTL_RING, 0⟩] } }
  else srxCount s (0x1000 + p) 3

/-- Whether an entry, in a bank, is within the time after the epoch in which R183 tries both banks. -/
def inExchange (s : State) (rd : Nat → Word) (n : Nat) : Bool :=
  decide (s.time.stc * 3 < s.swapStc * 3 + ptime3 (rxPtime rd n) * 2 ^ 56 + 3 * mediaAt (rxFs s rd n) (rxLinkOff rd n))

/-- Whether the first sample of a frame, under an entry of a bank, lies before the epoch of the last swap. -/
def beforeEpoch (s : State) (rd : Nat → Word) (n : Nat) (f : List Byte) (v : UdpView) : Bool :=
  decide (sampleIdx s rd n (beAt f (v.udp + 12) 4) * (stcSec 1 : Int) < (s.swapStc : Int) * (rxFs s rd n : Int))

/-- The entries, of the enabled ones of a bank, that can receive on port p: an entry that shares a key with one of a lower SID receives nothing
from that port (R182). -/
def rxReach (rd : Nat → Word) (l : List Nat) (p : Nat) : List Nat := l.filter (fun m => l.all (fun n => decide (m ≤ n) || !keyClash rd n m p))

/-- The entry a media frame is processed under, in the old bank or the new (R174 step 3, R183). -/
def mediaMatch (s : State) (p : Nat) (f : List Byte) : Option (Bool × Nat × UdpView) :=
  match udpView f with
  | none => none
  | some v =>
    let new := match (rxReach s.use (rxActive s) p).find? (fun n => keyHit s.use n p f v) with
      | some n => if inExchange s s.use n && beforeEpoch s s.use n f v && !s.banks.isEmpty then none else some (false, n, v)
      | none => none
    match (rxReach s.rdPrev (rxActivePrev s) p).find? (fun n => keyHit s.rdPrev n p f v) with
    | some n => if inExchange s s.rdPrev n && beforeEpoch s s.rdPrev n f v then some (true, n, v) else new
    | none => new

/-- A frame that a MAC has passed on is classified (R174). -/
def classify (s : State) (f : RxFrame) : State :=
  if !s.blkOn bSRX then s
  else if f.oversize then unmatched s f.port f
  else
    match mgmtClass s f.port f.bytes with
    | some d => mgmtFrame s f.port d f
    | none =>
      match (if f.port < 2 then mediaMatch s f.port f.bytes else none) with
      | some (old, n, v) => rxMedia s (if old then s.rdPrev else s.use) n f.port f v
      | none => unmatched s f.port f

/-- A frame arrives on a port: the MAC's checks, then classification. -/
def receiveFrame (s : State) (p : Nat) (pcsErr : Bool) (frame : List Byte) : State :=
  match macReceive s p pcsErr frame with
  | (s1, some f) => classify s1 f
  | (s1, none) => s1

/-- The row MAC_FRAME_RECEIVED: with LPBK at 1 the port receives the oldest frame looped back inside its PCS, and nothing from the balls. -/
def execMacFrameReceived (t : Nat) (port : Nat) (pcsErr : Bool) (frame : List Byte) (s : State) : Host.Outcome State Fault Refusal :=
  .next (
    let s0 := s.at t
    if lpbk s0 port then
      match (s0.mac port).loop with
      | f :: r => receiveFrame (s0.setMac port { s0.mac port with loop := r }) port false f
      | [] => s0
    else receiveFrame s0 port pcsErr frame)

end Sys2Proof.Machine
end

