-- ==== Sys2Proof/Machine/Time.lean ====
section
/-!
DEFINITION. The STC, Bellwether's reference slots, lanes and holdover, steps and frame pulses (chapter 9).
-/
namespace Sys2Proof.Machine

/-! ### Slots (R207, Table 9-9) -/

/-- A slot, and replacing it. -/
def slotOf (s : State) (n : Nat) : SlotS := Tbl.getD s.time.slots n .init
def setSlot (s : State) (n : Nat) (x : SlotS) : State := { s with time := { s.time with slots := Tbl.put s.time.slots n x } }

/-- INDEX and RATE of a slot. -/
def slotIdx (s : State) (n : Nat) : Nat := s.fld (TIME.REF_CFG n) TIME.REF_CFG_INDEX
def slotHz (s : State) (n : Nat) : Nat := rateHz s (s.fld (TIME.REF_CFG n) TIME.REF_CFG_RATE)
def slotRank (s : State) (n : Nat) : Nat := s.fld (TIME.REF_CFG n) TIME.REF_CFG_RANK

/-- The port of a PTP instance (Table 9-2): 0 A, 1 B, 2 M, 3 fabric. -/
def ptpPort (i : Nat) : Nat := i / 2
/-- An instance exists: its port is present and on (R202). -/
def ptpHere (s : State) (i : Nat) : Bool := if i < 5 then s.blkOn (portBlk (ptpPort i)) else if i = 5 then s.blkOn bFAB else false

/-- The side that a slot of type 7 names (R256). -/
def levelSide (i : Nat) : Nat := if i < 32 then 2 * i + 1 else if i < 40 then 65 + 2 * (i - 32) else 81 + 2 * (i - 40)

/-- The type a slot acts as: 0 for a type, index or source that does not exist (R207). -/
def slotType (s : State) (n : Nat) : Nat :=
  let t := s.fld (TIME.REF_CFG n) TIME.REF_CFG_TYPE
  let i := slotIdx s n
  if t = 1 then (if ptpHere s i then 1 else 0)
  else if t = 2 then (if i < 2 then 2 else 0)
  else if t = 3 then (if i < s.variant.aes then 3 else 0)
  else if t = 4 ∨ t = 5 then (if i = 0 then t else 0)
  else if t = 6 then (if i = 0 ∧ s.present bFAB = true then 6 else 0)
  else if t = 7 then
    (if (i < 32 ∧ i < s.variant.tdm) ∨ (32 ≤ i ∧ i < 40 ∧ i - 32 < s.variant.aes) ∨ (40 ≤ i ∧ i < 44 ∧ i - 40 < s.variant.madi) then 7 else 0)
  else if t = 8 then (if i = 0 then 8 else 0) else 0

/-- A PTP instance, and replacing it. -/
def ptpOf (s : State) (i : Nat) : PtpS := Tbl.getD s.time.ptp i .init
def setPtp (s : State) (i : Nat) (x : PtpS) : State := { s with time := { s.time with ptp := Tbl.put s.time.ptp i x } }

/-- A port side, and replacing it. -/
def sideOf (s : State) (x : Nat) : SideS := Tbl.getD s.aport.sides x .init
def setSide (s : State) (x : Nat) (v : SideS) : State := { s with aport := { s.aport with sides := Tbl.put s.aport.sides x v } }

/-- 2 to a signed power, in 2⁻¹⁶ ns units: an interval of 2^log seconds. -/
def interval (log : Int) : Nat := if 0 ≤ log then secs 1 * 2 ^ log.toNat else secs 1 / 2 ^ (-log).toNat

/-- The sync interval of an instance. -/
def syncInterval (s : State) (i : Nat) : Nat := interval (sgn 4 (s.fld (TIME.PTP_INTV i) TIME.PTP_INTV_LOG_SYNC))

/-- The side of a slot of type 7 is in RUN with CLKMODE REF. -/
def levelOk (s : State) (n : Nat) : Bool :=
  let x := levelSide (slotIdx s n)
  s.blkOn bAPORT && (sideOf s x).st == .run && s.fld (APORT.SIDE_CTL x) APORT.SIDE_CTL_CLKMODE == 3

/-- The loss condition of Table 9-9, as far as the block's own state shows it. -/
def slotLoss (s : State) (n : Nat) : Bool :=
  let x := slotOf s n
  let t := slotType s n
  let last := x.lastEdge.getD x.since
  if t = 1 then
    let p := ptpOf s (slotIdx s n)
    p.st != .slave || decide (3 * syncInterval s (slotIdx s n) ≤ s.now - (p.lastSync.getD x.since))
  else if t = 2 then decide (2 * secs 1 ≤ (s.now - last) * slotHz s n)
  else if t = 3 then !(s.blkOn bAPORT && (sideOf s (65 + 2 * slotIdx s n)).locked)
  else if t = 4 ∨ t = 5 then decide (ms 1100 ≤ s.now - last)
  else if t = 6 then !s.fab.valid
  else if t = 7 then !levelOk s n
  else false

/-- Consecutive periods that each held an event, once another event comes in: `i` numbers its period from the one that began with the first event of
the run; a period without an event starts the run anew (DEDUCED, log entry 94). -/
def runOn (from_ len i now : Nat) : Nat × Nat := if 0 < len ∧ i ≤ len then (from_, Nat.max len (i + 1)) else (now, 1)

/-- The condition that ends a loss (Table 9-9). -/
def slotBack (s : State) (n : Nat) : Bool :=
  let x := slotOf s n
  let t := slotType s n
  if t = 1 then !slotLoss s n && decide (3 ≤ (ptpOf s (slotIdx s n)).syncRun)
  else if t = 2 then decide (16 ≤ x.edges)
  else if t = 3 then s.blkOn bAPORT && (sideOf s (65 + 2 * slotIdx s n)).locked
  else if t = 4 ∨ t = 5 then decide (2 ≤ x.edges)
  else if t = 6 then s.fab.valid
  else if t = 7 then levelOk s n else true

/-- A slot enters a state. -/
def slotTo (s : State) (n : Nat) (st : SlotSt) : State :=
  let x := slotOf s n
  setSlot s n { x with st := st, since := s.now, beyond := if st = .lost ∨ st = .wait ∨ st = .qualified then 0 else x.beyond
                       waitFrom := if st = .wait then s.now else x.waitFrom, agree := 0, dis := 0
                       ffo := if st = .lost ∨ st = .off then none else x.ffo }

/-- A slot starts as newly configured (R207, R209). -/
def slotRestart (s : State) (n : Nat) : State :=
  setSlot s n { SlotS.init with st := if slotType s n = 0 then .off else .new, since := s.now }

/-- A slot enters LOST: LOST sets and REF_LOST is recorded. -/
def slotLost (s : State) (n : Nat) : State :=
  ((setSlot (slotTo s n .lost) n { slotOf (slotTo s n .lost) n with edges := 0 }).raise TIME.CAUSE 1).emit .time 0x3002 sevWARNING n []

/-- A slot is DISQUALIFIED. -/
def slotDisq (s : State) (n : Nat) : State := ((slotTo s n .disqualified).raise TIME.CAUSE 1).emit .time 0x3003 sevWARNING n []

/-- A slot passes from WAIT to QUALIFIED. -/
def slotRestored (s : State) (n : Nat) : State := ((slotTo s n .qualified).raise TIME.CAUSE 10).emit .time 0x3005 sevNOTICE n []

/-- A slot is usable: QUALIFIED, and in RUN not FAR (R208, R213). -/
def usable (s : State) (n : Nat) : Bool := (slotOf s n).st == .qualified && !(s.cmd.mode == .run && (slotOf s n).far)

/-- The state changes of a slot that do not wait for an FFO value (Table 9-11). -/
def slotSettle (s : State) (n : Nat) : State :=
  let x := slotOf s n
  if slotType s n = 0 then (if x.st = .off then s else slotTo s n .off)
  else if x.st = .off then slotRestart s n
  else if x.st = .lost then (if slotBack s n then slotTo s n .wait else s)
  else if slotLoss s n then slotLost s n
  else if x.st = .judgedOut ∧ usable s x.lostTo = false then slotTo s n .qualified
  else s

/-- The row REF_LOSS_TIMEOUT: the slot's source meets its loss condition. For type 4 the row also tells of 200 ns without an edge of 10MHZ_IN,
whose edges the block does not see; in LOST, that breaks the run of 1PPS edges that would end the loss. -/
def execRefLossTimeout (t : Nat) (slot : Nat) (s : State) : Host.Outcome State Fault Refusal :=
  .next (
    let s0 := s.at t
    let x := slotOf s0 slot
    if !s0.blkOn bTIME ∨ x.st = .off then s0
    else if x.st = .lost then (if slotType s0 slot = 4 then setSlot s0 slot { x with edges := 0 } else s0)
    else if slotLoss s0 slot ∨ slotType s0 slot = 4 then slotLost s0 slot else s0)

/-- The row WAIT_TO_RESTORE_EXPIRY. -/
def execWaitToRestoreExpiry (t : Nat) (slot : Nat) (s : State) : Host.Outcome State Fault Refusal :=
  .next (
    let s0 := s.at t
    let x := slotOf s0 slot
    if s0.blkOn bTIME ∧ x.st = .wait ∧ secs (s0.fld TIME.SEL_CTL TIME.SEL_CTL_WTR_S) ≤ s0.now - x.waitFrom then slotRestored s0 slot else s0)

/-! ### Frequency: learning, FFO and holdover (R208, R219) -/

/-- The limit of y, ±250 ppm, in 2⁻⁴⁰ (R198). -/
def yMax : Int := 250 * 2 ^ 40 / 1000000

/-- The correction that makes the media clock run at a frequency offset (10⁻¹²) against the learned frequency of OSC_M: y in 2⁻⁴⁰, limited
to ±250 ppm (R198). -/
def yFor (s : State) (ffo : Int) : Int :=
  clamp yMax ((ffo * 1000000 - s.time.learned) * 2 ^ 40 / 1000000000000000000)

/-- The media clock's frequency relative to nominal, from a correction, in 10⁻¹² (selector 0x0031). -/
def relNominal (s : State) (y : Int) : Int := y * 1000000000000 / 2 ^ 40 + s.time.learned / 1000000

/-- The history of the media clock's frequency: y and SLEWING as they now stand hold from now on; what lies more than 62 s back is dropped. -/
def noteFreq (s : State) : State :=
  let e := (s.time.y, s.time.pull.isSome)
  if (s.time.hist.head?).map (fun h => h.2) = some e then s
  else
    let new := s.time.hist.takeWhile (fun h => decide (s.now < h.1 + secs 62))
    { s with time := { s.time with hist := (s.now, e) :: (new ++ (s.time.hist.drop new.length).take 1) } }

/-- Time without slewing in the window from a to b, and the sum of y over it, of a history whose newest entry holds up to `till`. -/
def freqSum (a b : Nat) : Nat → List (Nat × Int × Bool) → Nat × Int
  | _, [] => (0, 0)
  | till, (f, y, slew) :: r =>
    let k := if slew then 0 else Nat.min b till - Nat.max a f
    let q := freqSum a b f r
    (q.1 + k, q.2 + (k : Int) * y)

/-- The frequency that HOLDOVER holds: the mean over the 60 s that end 2 s before, slewing left out; the learned frequency of OSC_M where
fewer than 10 s of it exist. -/
def holdFreq (s : State) : Int :=
  let q := freqSum (s.now - secs 62) (s.now - secs 2) s.now s.time.hist
  if q.1 < secs 10 then yFor s 0 else q.2 / (q.1 : Int)

/-- The hard and soft limits in 10⁻¹². -/
def hardLim (s : State) : Nat := s.fld TIME.QUAL_CTL TIME.QUAL_CTL_HARD * 100000
def softLim (s : State) : Nat := Nat.min (s.fld TIME.QUAL_CTL TIME.QUAL_CTL_SOFT * 100000) (hardLim s)
def persist (s : State) : Nat := s.fld TIME.QUAL_CTL TIME.QUAL_CTL_PERSIST
def agreeLim (s : State) : Nat := s.fld TIME.SEL_CTL TIME.SEL_CTL_AGREE * 100000

/-- WARN of a slot (Table 9-8). -/
def slotWarn (s : State) (n : Nat) : Bool := match (slotOf s n).ffo with | some v => decide (softLim s < v.natAbs) | none => false

/-- A slot takes an FFO value (R208, Table 9-11). A NEW slot is QUALIFIED by the first of its values that lies within HARD (DEDUCED, log entry 94). -/
def slotFfo (s : State) (n : Nat) (v : Int) : State :=
  let w0 := slotWarn s n
  let x := slotOf s n
  let out := decide (hardLim s < v.natAbs)
  let s1 := setSlot s n { x with ffo := some v, beyond := if out then x.beyond + 1 else 0 }
  let s2 := if !w0 && slotWarn s1 n then (s1.raise TIME.CAUSE 2).emit .time 0x3004 sevWARNING n [] else s1
  if x.st = .new then (if !out then slotTo s2 n .qualified else if persist s ≤ x.beyond + 1 then slotDisq s2 n else s2)
  else if x.st = .qualified ∨ x.st = .judgedOut then (if out && decide (persist s ≤ x.beyond + 1) then slotDisq s2 n else s2)
  else if x.st = .disqualified then (if out then s2 else slotTo s2 n .wait)
  else if x.st = .wait then (if out then setSlot s2 n { slotOf s2 n with waitFrom := s.now } else s2)
  else s2

/-- The FFO of a slot from the measured offset of its source against OSC_M (10⁻¹²): 0 for type 8. -/
def ffoOf (s : State) (n : Nat) (raw : Int) : Int := if slotType s n = 8 then 0 else raw + s.time.learned / 1000000

/-- Agreement of slot n with the slot in use, second by second (R208, R211). -/
def slotAgree (s : State) (c n : Nat) : State :=
  let x := slotOf s n
  match (slotOf s c).ffo, x.ffo with
  | some a, some b =>
    let far := decide (agreeLim s < (a - b).natAbs)
    if x.st = .judgedOut then
      (let k := if far then 0 else x.agree + 1
       if s.fld TIME.SEL_CTL TIME.SEL_CTL_WTR_S ≤ k then slotTo s n .qualified else setSlot s n { x with agree := k })
    else if usable s n && slotRank s n == slotRank s c then setSlot s n { x with dis := if far then x.dis + 1 else 0 }
    else setSlot s n { x with dis := 0 }
  | _, _ => s

/-- Learning of OSC_M against the slot in use (R219): one step of the exponential average, the time constant's reciprocal a second (log
entry 27). -/
def learn (s : State) (raw : Int) : State :=
  let tau : Int := if s.time.learnAge < 3600 then 1000 else 86400
  { s with time := { s.time with learned := s.time.learned + (-raw * 1000000 - s.time.learned) / tau, learnAge := s.time.learnAge + 1 } }

/-- A whole second of the STC: every slot takes its FFO value, states move, OSC_M is learned. -/
def ffoUpdate (s : State) (ffos : List (Nat × Int)) : State :=
  let raw := fun n => (ffos.find? (fun e => e.1 == n)).map (fun e => e.2)
  let s1 := (List.range 16).foldl (fun st n =>
    if slotType st n = 0 ∨ (slotOf st n).st = .lost ∨ (slotOf st n).st = .off then st
    else match (if slotType st n = 8 then some 0 else raw n) with
      | some v => slotFfo st n (ffoOf st n v)
      | none => setSlot st n { slotOf st n with ffo := none }) s
  let s2 := match s1.time.inUse with
    | some c => (List.range 16).foldl (fun st n => if n = c then st else slotAgree st c n) s1
    | none => s1
  match s2.time.inUse with
    | some c =>
      if s2.time.st = ClkSt.locked ∧ s2.time.pull.isNone = true ∧ slotType s2 c ≠ 7 ∧ slotType s2 c ≠ 8 then
        (match raw c with
         | some v => learn s2 v
         | none => s2)
      else s2
    | none => s2

/-- The row FFO_UPDATE: the measured offsets of the sources against OSC_M, by slot, in 10⁻¹². -/
def execFfoUpdate (t : Nat) (ffos : List (Nat × Int)) (s : State) : Host.Outcome State Fault Refusal :=
  .next (if (s.at t).blkOn bTIME then ffoUpdate (s.at t) ffos else s.at t)

/-! ### Steps, pulls and switching (R212 to R214) -/

/-- 1 s in units of 2⁻⁸ ns. -/
def sec8 : Int := 256000000000

/-- The pull slope in 10⁻¹²: SLOPE in force, in units of 0.01 ppm. -/
def slopeOf (s : State) : Int := (s.time.slope : Int) * 10000

/-- The phase still to be pulled, in 2⁻⁸ ns. -/
def pullLeft (s : State) : Int :=
  match s.time.pull with
  | some (d, from_) =>
    let done : Int := ((s.now - from_ : Nat) : Int) * slopeOf s / (256 * 1000000000000)
    if 0 ≤ d then (if d < done then 0 else d - done) else (if done < -d then d + done else 0)
  | none => 0

/-- A new SLOPE takes effect at an evaluation: what is left of a pull goes on at it (R216). -/
def takeSlope (s : State) : State :=
  let k := s.fld TIME.SERVO_CTL TIME.SERVO_CTL_SLOPE
  if k = s.time.slope then s
  else { s with time := { s.time with slope := k, pull := if s.time.pull.isSome then some (pullLeft s, s.now) else none } }

/-- The correction at which the media clock runs where a rule fixes it: the learned frequency of OSC_M in FREERUN and with a slot of type 8 in use, the
holdover frequency in any other HOLDOVER; none while the servo follows a slot (R212, R219). -/
def baseGoal (s : State) : Option Int :=
  match s.time.st with
  | .freerun => some (yFor s 0)
  | .holdover => some (match s.time.inUse with | some c => if slotType s c = 8 then yFor s 0 else s.time.hoFreq | none => s.time.hoFreq)
  | _ => none

/-- The reference frequency, as a correction: that of the slot in use as its FFO gives it, or what a rule fixes. -/
def yRef (s : State) : Int :=
  match baseGoal s with
  | some g => g
  | none => match s.time.inUse.bind (fun c => (slotOf s c).ffo) with | some v => yFor s v | none => s.time.yBase

/-- The correction y moves to where a rule fixes it, none while the servo decides: during a pull, the reference frequency plus or minus SLOPE (R213). -/
def goalOf (s : State) : Option Int :=
  match s.time.pull with
  | some (d, _) => some (clamp yMax (yRef s + (if 0 < d then 1 else -1) * (slopeOf s * 2 ^ 40 / 1000000000000)))
  | none => baseGoal s

/-- Pull the STC by d (2⁻⁸ ns) (R213). -/
def startPull (s : State) (d : Int) : State :=
  { s with time := { s.time with pull := if d.natAbs ≤ 256 then none else some (d, s.now) } }

/-- The row PULL_COMPLETE: the remainder is within 1 ns, SLEWING falls and the servo takes over. -/
def execPullComplete (t : Nat) (s : State) : Host.Outcome State Fault Refusal :=
  .next (
    let s0 := s.at t
    if s0.time.pull.isSome && decide ((pullLeft s0).natAbs ≤ 256) then noteFreq { s0 with time := { s0.time with pull := none } } else s0)

/-- Saturate OFF at ±1 s. -/
def satOff (x : Int) : Int := clamp sec8 x

/-- PHASE_STEP is recorded with the step. -/
def noteStep (s : State) (d : Int) : State := s.emit .time 0x300D sevNOTICE 0 [pw d]

/-- STEP_PHASE (R214): through the slope limiter, or at the next whole millisecond. Where OFF saturates, the STC is moved by what OFF changes by, so
that nothing is pulled afterwards (DEDUCED, log entry 94). -/
def stepPhase (s : State) (arg0 arg1 : Nat) : State :=
  let d := sgn 32 arg0
  if bit arg1 0 then { s with time := { s.time with steps := s.time.steps ++ [d] } }
  else
    let off := satOff (s.time.off + d)
    noteFreq (noteStep (startPull { s with time := { s.time with off := off } } (pullLeft s + (off - s.time.off))) d)

/-- The steps at once that are due are taken together: each is recorded, those of STEP_PHASE change OFF, and the whole step answers. -/
def takeSteps (s : State) : State × Int :=
  let off := s.time.steps.foldl (fun o d => satOff (o + d)) s.time.off
  let s1 := { s with time := { s.time with step := none, steps := [], off := off } }
  ((s.time.steps ++ s.time.step.toList).foldl noteStep s1, off - s.time.off + s.time.step.getD 0)

/-- The media clock enters HOLDOVER (R212, R213, R219). -/
def enterHoldover (s : State) (viaOsc : Bool) : State :=
  let hf := holdFreq s
  let s1 := { s with time := { s.time with st := .holdover, pull := none, lockFrom := none
                                           hoFreq := if viaOsc then s.time.hoFreq else hf } }
  (s1.raise TIME.CAUSE 4).emit .time 0x300A (if viaOsc then sevWARNING else sevERROR) 0 []

/-- No slot is usable: from ACQUIRING or LOCKED the media clock enters HOLDOVER. -/
def noSlot (s : State) : State :=
  let s1 := if s.time.st = .acquiring ∨ s.time.st = .locked ∨ (s.time.inUse.isSome = true ∧ s.time.st = .holdover) then
      (if s.time.st = .holdover then { s with time := { s.time with hoFreq := holdFreq s } } else enterHoldover s false) else s
  { s1 with time := { s1.time with inUse := none } }

/-- The period to which a slot's phase is taken, as a frequency in Hz; none for time of day (Table 9-9). -/
def phaseHz (s : State) (n : Nat) : Option Nat :=
  let t := slotType s n
  if t = 2 ∨ t = 3 then some (slotHz s n) else if t = 4 ∨ t = 5 then some 1
  else if t = 7 then some (rateHz s (s.fld (APORT.SIDE_CTL (levelSide (slotIdx s n))) APORT.SIDE_CTL_RATE)) else none

/-- The phase minus the STC that a slot reports: for type 7 the side's level, by which its frame starts lie behind the centre of the window (R256). -/
def slotPhase (s : State) (n : Nat) (phase : Int) : Int :=
  if slotType s n = 7 then
    -((sideOf s (levelSide (slotIdx s n))).level * sec8) /
      (4096 * (rateHz s (s.fld (APORT.SIDE_CTL (levelSide (slotIdx s n))) APORT.SIDE_CTL_RATE) : Int))
  else phase

/-- Δ of a slot: its measured phase minus the STC, plus OFF, reduced into (−period ÷ 2, period ÷ 2] (R213). -/
def deltaOf (s : State) (n : Nat) (phase : Int) : Int :=
  if slotType s n = 8 then 0
  else
    let d := slotPhase s n phase + s.time.off
    match phaseHz s n with
    | none => d
    | some hz =>
      let r := (d * (hz : Int)) % sec8
      (if sec8 < 2 * r then r - sec8 else r) / (hz : Int)

/-- Slot n comes into use (R212, R213); `phase` is its phase minus the STC. -/
def takeSlot (s : State) (n : Nat) (phase : Int) : State :=
  if s.time.inUse = some n then s
  else
    let was := s.time.st
    let s1 := { s with time := { s.time with inUse := some n, again := none, yBase := if s.time.pull.isSome then yRef s else s.time.y
                                             fresh := if s.time.named = n then false else s.time.fresh, lockFrom := none
                                             slots := s.time.slots.map (fun (e : Nat × SlotS) => (e.1, { e.2 with dis := 0 })) } }
    let s2 := (s1.raise TIME.CAUSE 0).emit .time 0x3001 sevNOTICE n []
    if slotType s n = 8 then
      if was = .holdover then { s2 with time := { s2.time with pull := none } } else enterHoldover s2 true
    else
      let d := deltaOf s n phase
      let s3 := { s2 with time := { s2.time with st := if was = .locked then .locked else .acquiring } }
      if was = .freerun ∨ s.cmd.mode ≠ .run then { s3 with time := { s3.time with pull := none, step := some d } }
      else startPull s3 d

/-- choose() of R210. -/
def choose (s : State) : Option Nat :=
  if usable s s.time.named then some s.time.named
  else (List.range 16).foldl (fun acc n =>
    if usable s n then
      (match acc with
       | some m => if slotRank s m < slotRank s n then some n else some m
       | none => some n)
    else acc) none

/-- The disagreement check of R211 between the slot in use and slot n. -/
def disagree (s : State) (phases : Nat → Int) (n : Nat) : State :=
  match s.time.inUse with
  | none => s
  | some c =>
    let x := slotOf s n
    if n = c ∨ usable s n = false ∨ slotRank s n ≠ slotRank s c ∨ x.dis < persist s ∨ persist s = 0 then s
    else
      let s1 := setSlot s n { x with dis := 0 }
      let judge : Option Int :=
        if 3600 ≤ s.time.learnAge then some 0
        else ((List.range 16).find? (fun j => j != c && j != n && usable s j && slotType s j != 8)).bind (fun j => (slotOf s j).ffo)
      match judge, (slotOf s c).ffo, x.ffo with
      | some j, some a, some b =>
        if (b - j).natAbs < (a - j).natAbs then
          let s2 := (slotTo s1 c .judgedOut).emit .time 0x3006 sevNOTICE c []
          takeSlot (setSlot s2 c { slotOf s2 c with lostTo := n }) n (phases n)
        else
          let s2 := (slotTo s1 n .judgedOut).emit .time 0x3006 sevNOTICE n []
          setSlot s2 n { slotOf s2 n with lostTo := c }
      | _, _, _ => (s1.raise TIME.CAUSE 3).emit .time 0x3007 sevWARNING n []

/-- FAR of the slots of types 1 and 6 (R213). -/
def farFlags (s : State) (phases : List (Nat × Int)) : State :=
  phases.foldl (fun st e =>
    let t := slotType st e.1
    let far := s.cmd.mode == .run && (t == 1 || t == 6) && st.time.inUse != some e.1 && decide (sec8 ≤ (deltaOf st e.1 e.2).natAbs)
    let x := slotOf st e.1
    let st1 := setSlot st e.1 { x with far := far }
    if far && !x.far then (st1.raise TIME.CAUSE 11).emit .time 0x3008 sevWARNING e.1 [] else st1) s

/-! ### Lanes (R218) -/

/-- The voting window in 2⁻⁸ ns. -/
def voteWin (s : State) : Nat := s.fld TIME.SERVO_CTL TIME.SERVO_CTL_VOTE_NS * 256

/-- A lane, and the voted-in lanes. -/
def laneOf (s : State) (l : Nat) : LaneS := s.time.lanes.getD l .init
def lanesIn (s : State) : List Nat := (List.range 3).filter (fun l => (laneOf s l).inV)
def setLane (s : State) (l : Nat) (x : LaneS) : State := { s with time := { s.time with lanes := setAt s.time.lanes l x } }

/-- Lane l lies more than the window from each of the other two, or within it of both. -/
def laneFar (s : State) (l : Nat) : Bool :=
  (List.range 3).all (fun m => m == l || decide (voteWin s < ((laneOf s l).est - (laneOf s m).est).natAbs))
def laneNear (s : State) (l : Nat) : Bool :=
  (List.range 3).all (fun m => m == l || decide (((laneOf s l).est - (laneOf s m).est).natAbs ≤ voteWin s))

/-- The median of three, and the estimate the media clock follows: the median of three lanes, the mean of two. -/
def median (a b c : Int) : Int := if a ≤ b then (if b ≤ c then b else if a ≤ c then c else a) else (if a ≤ c then a else if b ≤ c then c else b)
def followedOf (s : State) : Int :=
  match (lanesIn s).map (fun l => (laneOf s l).est) with
  | [a, b, c] => median a b c
  | [a, b] => (a + b) / 2
  | [a] => a
  | _ => s.time.followed

/-- The lanes split: HOLDOVER, every lane reset, and the slot in use to be acquired again at the next evaluation (R218). -/
def laneSplit (s : State) : State :=
  let s1 := indicate ((s.raise TIME.CAUSE 7).emit .time 0x300C sevERROR 0 []) 4
  let s2 := if s1.time.st = .acquiring ∨ s1.time.st = .locked then enterHoldover s1 false else s1
  { s2 with time := { s2.time with inUse := none, again := s.time.inUse, splitRun := 0, lanes := [0, 1, 2].map (fun _ => { LaneS.init with est := s.time.followed, rejoined := s.now }) } }

/-- Lane l is voted out and reset to the followed estimate. -/
def laneOut (s : State) (l : Nat) : State :=
  let e := (List.range 3).map (fun k => pw (laneOf s k).est)
  let s1 := setLane s l { laneOf s l with inV := false, far := 0, nearFrom := none }
  let f := followedOf s1
  indicate (((setLane s1 l { laneOf s1 l with est := f }).raise TIME.CAUSE 6).emit .time 0x300B sevWARNING l e) 4

/-- The vote at one evaluation: the three estimates of the target minus the STC, in 2⁻⁸ ns. -/
def vote (s : State) (est : List Int) : State :=
  let s1 := { s with time := { s.time with lanes := (List.range 3).map (fun l => { laneOf s l with est := est.getD l 0 }) } }
  let three := (lanesIn s1).length == 3
  let s2 := { s1 with time := { s1.time with
    lanes := (List.range 3).map (fun l =>
      let x := laneOf s1 l
      { x with far := if three && laneFar s1 l then x.far + 1 else 0
               nearFrom := if !x.inV && laneNear s1 l then some (x.nearFrom.getD s.now) else none })
    splitRun := match lanesIn s1 with
      | [a, b] => if voteWin s1 < ((laneOf s1 a).est - (laneOf s1 b).est).natAbs then s1.time.splitRun + 1 else 0
      | _ => 0 } }
  let outs := (List.range 3).filter (fun l => decide (4 ≤ (laneOf s2 l).far))
  let s3 := match outs with
    | [] => if 4 ≤ s2.time.splitRun then laneSplit s2 else s2
    | [l] => laneOut s2 l
    | _ => laneSplit s2
  let s4 := (List.range 3).foldl (fun st l =>
    let x := laneOf st l
    match x.nearFrom with
    | some f => if !x.inV && decide (f + secs 10 ≤ st.now) then setLane st l { x with inV := true, nearFrom := none, rejoined := st.now } else st
    | none => st) s3
  { s4 with time := { s4.time with followed := followedOf s4 } }

/-! ### The evaluation (R210) -/

/-- Phase error below 1,000 ns for 1 s with SLEWING at 0: ACQUIRING becomes LOCKED (R212). -/
def lockCheck (s : State) : State :=
  if s.time.st = .acquiring ∧ s.time.pull.isNone = true ∧ s.time.step.isNone = true ∧ s.time.steps = [] ∧ s.time.followed.natAbs ≤ 256000 then
    match s.time.lockFrom with
    | some f =>
      if f + secs 1 ≤ s.now then
        ({ s with time := { s.time with st := .locked, lockFrom := none } }.raise TIME.CAUSE 5).emit .time 0x3009 sevNOTICE (s.time.inUse.getD 0) []
      else s
    | none => { s with time := { s.time with lockFrom := some s.now } }
  else { s with time := { s.time with lockFrom := none } }

/-- SELECT_REF commands received since the last evaluation are taken in order; each completes with OK. -/
def takeSelects (s : State) : State :=
  s.time.selQ.foldl (fun st e =>
    let st1 := { st with time := { st.time with named := e.1, fresh := st.time.inUse != some e.1 } }
    match e.2 with
    | some c => finishStarted st1 c cOK 0
    | none => st1) { s with time := { s.time with selQ := [] } }

/-- A usable slot, or none, comes into use. -/
def applyChoice (s : State) (phases : Nat → Int) (c : Option Nat) : State :=
  match c with
  | some n => takeSlot s n (phases n)
  | none => noSlot s

/-- One evaluation: `lanes` are the three estimates of the target minus the STC, `phases` each slot's phase minus the STC, in 2⁻⁸ ns
(log entry 28). -/
def evaluate (s : State) (lanes : List Int) (phases : List (Nat × Int)) : State :=
  let ph := fun n => ((phases.find? (fun e => e.1 == n)).map (fun e => e.2)).getD 0
  let s1 := farFlags ((List.range 16).foldl slotSettle (takeSlope s)) phases
  let s2 := takeSelects s1
  let ok := match s2.time.inUse with | some c => usable s2 c | none => false
  let back := s2.time.again.filter (fun c => s2.time.inUse.isNone && usable s2 c)
  let s3 :=
    if back.isSome then applyChoice s2 ph back
    else if !ok || s2.flag TIME.SEL_CTL TIME.SEL_CTL_REVERT then applyChoice s2 ph (choose s2)
    else if s2.time.fresh && usable s2 s2.time.named then takeSlot s2 s2.time.named (ph s2.time.named) else s2
  let s4 := (List.range 16).foldl (fun st n => disagree st ph n) s3
  let s5 := match s4.time.inUse with
    | some c => if slotType s4 c = 8 ∨ lanes = [] then s4 else vote s4 lanes
    | none => s4
  noteFreq (lockCheck s5)

/-! ### Edges and frame pulses (R200, R220) -/

/-- An edge of pin p (0 1PPS_IN, 1 WCLK_IN0, 2 WCLK_IN1, 3 SYNC_IN) reaches generator k: it aligns where the edge comes at least 1 µs after
the ALIGN write. -/
def fpgEdge (s : State) (p k : Nat) : State :=
  if fpgSrc s k = p + 1 then
    let x := fpgOf s k
    let s1 := setFpg s k { x with edge := some s.time.stc }
    match x.alignAt with
    | some a =>
      if a + 1000 * 2 ^ 56 ≤ s.time.stc then
        (((setFpg s1 k { fpgOf s1 k with t0 := some s.time.stc, alignAt := none, last := none }).hwFld (TIME.FPG_CTL k) TIME.FPG_CTL_ALIGN 0).raise
          TIME.CAUSE 9).emit .time 0x300F sevNOTICE 0 [k]
      else s1
    | none => s1
  else s

/-- Slot n takes an edge of its pin: a word clock's nominal periods with an edge, or 1PPS edges 1 s ± 0.1 s apart, count towards the end of a loss. -/
def slotEdge (s : State) (n : Nat) : State :=
  let x := slotOf s n
  if slotType s n = 2 then
    let r := runOn x.runFrom x.edges ((s.now - x.runFrom) * slotHz s n / secs 1) s.now
    setSlot s n { x with lastEdge := some s.now, runFrom := r.1, edges := r.2 }
  else
    let gap := s.now - x.lastEdge.getD 0
    let good := x.lastEdge.isSome && decide (ms 900 ≤ gap) && decide (gap ≤ ms 1100)
    setSlot s n { x with lastEdge := some s.now, edges := if good then x.edges + 1 else 1 }

/-- A rising edge of an input pin is time-stamped and used (R200). -/
def pinEdge (s : State) (p : Nat) : State :=
  if s.blkOn bTIME then
    let s1 := { s with time := { s.time with edges := Tbl.put s.time.edges p s.time.stc } }
    let s2 := (List.range 16).foldl (fun st n =>
      let t := slotType st n
      if ((t = 4 ∨ t = 5) ∧ p = 0) ∨ (t = 2 ∧ p = slotIdx st n + 1) then slotEdge st n else st) s1
    (List.range 4).foldl (fun st k => fpgEdge st p k) s2
  else s

/-- The row REF_PIN_EDGE: pin 0 1PPS_IN, 1 WCLK_IN0, 2 WCLK_IN1. -/
def execRefPinEdge (t : Nat) (pin : Nat) (s : State) : Host.Outcome State Fault Refusal := .next (pinEdge (s.at t) pin)

/-- The latest pulse instant at or before the STC of a generator that runs: t0 + OFF + j × NUM ÷ DEN seconds, as the first STC value at or
after it, with j. -/
def fpgLast (s : State) (k : Nat) : Option (Int × Int) :=
  match fpgT0 s k with
  | none => none
  | some t0 =>
    let num : Int := (s.fld (TIME.FPG_NUM k) TIME.FPG_NUM_NUM : Int) * (stcSec 1 : Int)
    let den : Int := ((s.rd (TIME.FPG_DEN k)).toNat : Int)
    let base : Int := (t0 : Int) + sgn 30 (s.fld (TIME.FPG_OFF k) TIME.FPG_OFF_OFF) * (2 : Int) ^ 56
    let j := ((s.time.stc : Int) - base) * den / num
    some (base - (-(j * num)) / den, j)

/-- A software write of FPG_CTLk, FPG_OFFk, FPG_NUMk or FPG_DENk has been stored over the word `old` (R220). -/
def fpgWritten (s : State) (k reg : Nat) (old : Word) : State :=
  let x := fpgOf s k
  let new := s.rd (TIME.FPG_CTL k + 4 * reg)
  if reg = 0 then
    let moved := TIME.FPG_CTL_SRC.get old != TIME.FPG_CTL_SRC.get new
    let y := if moved then { x with t0 := none, alignAt := none, last := none } else x
    if TIME.FPG_CTL_ALIGN.get new = 1 then
      if fpgSrc s k = 0 then setFpg (s.setFld (TIME.FPG_CTL k) TIME.FPG_CTL_ALIGN 0) k y
      else setFpg s k { y with t0 := none, alignAt := some s.time.stc, last := none }
    else setFpg s k { y with alignAt := none }
  else if reg = 1 then s
  else if old ≠ new then setFpg s k { x with t0 := none, last := none } else s

/-- FPG_CTLk.ALIGNED. -/
def fpgAligned (s : State) (k : Nat) : Bool := (fpgT0 s k).isSome

/-! ### Seconds load (R201) -/

/-- A slot of type 1 or 6 is in use. -/
def todInUse (s : State) : Bool := match s.time.inUse with | some c => slotType s c == 1 || slotType s c == 6 | none => false

/-- GO of SEC_LOAD_HI has been written at 1: refused while a time-of-day reference is in use. -/
def secLoadGo (s : State) : State :=
  if todInUse s then (s.setFld TIME.SEC_LOAD_HI TIME.SEC_LOAD_HI_GO 0).setFld TIME.SEC_LOAD_HI TIME.SEC_LOAD_HI_REFUSED 1
  else s.setFld TIME.SEC_LOAD_HI TIME.SEC_LOAD_HI_REFUSED 0

/-- The seconds to load. -/
def secLoadValue (s : State) : Nat := (s.rd TIME.SEC_LOAD_LO).toNat + s.fld TIME.SEC_LOAD_HI TIME.SEC_LOAD_HI_SEC_HI * 2 ^ 32

/-! ### Steps of the STC (R215) -/

/-- The receive streams after a step: read-out instants stepped over are discarded; those that recur find empty positions. -/
def srxStep (s : State) (forward : Bool) : State :=
  { s with srx := { s.srx with rxs := s.srx.rxs.map (fun e =>
      let fs := rxFs s s.use e.1
      let m := cdiv (s.time.stc * fs) (stcSec 1)
      let lo := (rxLinkOff s.use e.1 : Int)
      let len := (rxBufLen s.use e.1 : Int)
      let r := e.2
      if forward && decide (r.tick < m) && decide (0 < r.tick) then
        (e.1, { r with tick := m
                       buf := r.buf.filter (fun x => !(List.range (Nat.min (m - r.tick) (rxBufLen s.use e.1))).any
                         (fun i => (((m - 1 - i : Nat) : Int) - lo) % len == ((x.1 / 256 : Nat) : Int))) })
      else (e.1, if !forward && decide (m < r.tick) then { r with tick := m } else r)) } }

/-- The STC moves at once by d (2⁻⁸ ns): streams react as R165 and R215 lay down. After a backward step the instants that recur fall under the banks
and outputs as they now stand: an epoch that has been taken is not taken again. The commit epochs are the sequencer's. -/
def stcStep (s : State) (d : Int) : State :=
  let stc := ((s.time.stc : Int) + d * (2 : Int) ^ 48).toNat
  let s0 := if d < 0 then { s with banks := [], cmd := { s.cmd with outs := [] } } else s
  let s1 := { s0 with time := { s0.time with stc := stc, jump := s0.time.jump + ((stc : Int) - (s.time.stc : Int)) } }
  srxStep (stxStep s1 d) (decide (0 < d))

/-! ### The TIME registers and mailbox -/

/-- State codes of REF_STATUS and CLK_STATE. -/
def SlotSt.code : SlotSt → Nat
  | .off => 0 | .lost => 1 | .disqualified => 2 | .wait => 3 | .qualified => 4 | .judgedOut => 5 | .new => 6
def ClkSt.code : ClkSt → Nat
  | .freerun => 0 | .acquiring => 1 | .locked => 2 | .holdover => 3

/-- The update rate of a slot in mHz (Table 9-9). -/
def updateMilliHz (s : State) (n : Nat) : Nat :=
  let t := slotType s n
  if t = 1 then 1000 * secs 1 / syncInterval s (slotIdx s n) else if t = 2 ∨ t = 3 then 1000 * slotHz s n
  else if t = 4 ∨ t = 6 then 1000000 else if t = 5 then 1000
  else if t = 7 then 1000 * rateHz s (s.fld (APORT.SIDE_CTL (levelSide (slotIdx s n))) APORT.SIDE_CTL_RATE) /
    Nat.max 1 (s.fld (APORT.SIDE_BLOCK (levelSide (slotIdx s n))) APORT.SIDE_BLOCK_FRAMES)
  else 0

/-- Table 9-10 in mHz, and the step in force (R217). -/
def bwTable : List Nat := [1, 2, 5, 10, 20, 50, 100, 500, 1000, 5000, 10000, 50000, 100000, 500000, 1000000, 4000000]
def bwEff (s : State) : Nat :=
  match s.time.inUse with
  | some c =>
    ((List.range (s.fld TIME.SERVO_CTL TIME.SERVO_CTL_BW + 1)).filter (fun b => decide (bwTable.getD b 0 * 20 ≤ updateMilliHz s c))).foldl Nat.max 0
  | none => 0

/-- CLK_STATE as read. -/
def clkStateWord (s : State) : Word :=
  BitVec.ofNat 32 (s.time.st.code + 4 * b2n s.time.pull.isSome + 8 * b2n (match s.time.inUse with | some c => slotType s c == 8 | none => false) +
    16 * b2n (decide (3600 ≤ s.time.learnAge)) + 32 * b2n s.time.fresh + 2 ^ 8 * s.time.inUse.getD 0 + 2 ^ 12 * (s.time.named % 16) +
    2 ^ 16 * ofBits (lanesIn s) + 2 ^ 20 * bwEff s)

/-- REF_STATUSn as read. -/
def refStatusWord (s : State) (n : Nat) : Word :=
  let x := slotOf s n
  BitVec.ofNat 32 (x.st.code + 8 * b2n (s.time.inUse == some n) + 16 * b2n (slotWarn s n) + 32 * b2n x.far +
    2 ^ 12 * lowBits 20 (clamp 524287 (x.ffo.getD 0 / 1000)))

/-- A 64-bit signed value as two words, least significant first. -/
def wordsS64 (x : Int) : List Nat := words64 (lowBits 64 x)

/-- What a TIME mailbox selector below 0x0100 captures (Table 9-1). -/
def timeCapture (sel : Nat) (s : State) : Option (List Nat × State) :=
  if sel = 0 then some (stampWords s.time.stc, s)
  else if 1 ≤ sel ∧ sel ≤ 4 then
    some (match s.time.edges.find (sel - 1) with
      | some e => stampWords e ++ [1]
      | none => [0, 0, 0, 0], s)
  else if 0x10 ≤ sel ∧ sel < 0x20 then
    let x := slotOf s (sel - 0x10)
    let w := s.fld TIME.SEL_CTL TIME.SEL_CTL_WTR_S
    let gone := (s.now - x.waitFrom) / secs 1
    some ([pw (satS 32 (x.ffo.getD 0)), (if x.st = .wait then w - gone else 0) + Nat.min x.beyond 65535 * 65536,
           Nat.min ((s.now - x.since) / secs 1) (2 ^ 32 - 1)], s)
  else if 0x20 ≤ sel ∧ sel < 0x23 then
    let x := laneOf s (sel - 0x20)
    some ([pw (satS 32 (x.est - s.time.followed)), b2n x.inV + 2 * Nat.min ((s.now - x.rejoined) / secs 1) (2 ^ 31 - 1)], s)
  else if sel = 0x28 then some (wordsS64 s.time.off ++ wordsS64 (pullLeft s), s)
  else if sel = 0x30 then some ([pw (satS 32 (s.time.learned / 1000000)), Nat.min s.time.learnAge (2 ^ 32 - 1)], s)
  else if sel = 0x31 then some ([pw (satS 32 (relNominal s s.time.y)), pw (satS 32 (relNominal s s.time.hoFreq))], s)
  else if 0x40 ≤ sel ∧ sel < 0x44 then
    let k := sel - 0x40
    some ([if fpgSrc s k = 0 then 0
           else match (fpgOf s k).edge, (fpgOf s k).t0 with
             | some e, some t0 =>
               let num : Int := (s.fld (TIME.FPG_NUM k) TIME.FPG_NUM_NUM : Int) * (stcSec 1 : Int)
               let den : Int := ((s.rd (TIME.FPG_DEN k)).toNat : Int)
               let r := (((e : Int) - (t0 : Int)) * den) % num
               pw ((if num < 2 * r then r - num else r) / den / (2 : Int) ^ 56)
             | _, _ => 0], s)
  else none

end Sys2Proof.Machine
end

