-- ==== Sys2Proof/Machine/FabNet.lean ====
section
/-!
DEFINITION. The network of the Ubley fabric: lanes, link-state records and the topology they show (R367, R369), IDs (R370) and routing entries (R373).
-/
namespace Sys2Proof.Machine

/-- CONFIG_ID of the bitstream in force. -/
def configId (s : State) : Nat := match s.place.now with | some p => p.configId | none => 0

/-! ### Lanes (R367, R368, R374) -/

/-- A lane's state, and replacing it. -/
def fabLane (s : State) (k : Nat) : UbLaneS := Tbl.getD s.fab.lanes k .init
def setFabLane (s : State) (k : Nat) (x : UbLaneS) : State := { s with fab := { s.fab with lanes := Tbl.put s.fab.lanes k x } }

/-- A lane is present and its domain on; TWIN_FORCE.EN at 1 keeps the unit out of any fabric (R388). -/
def fabHere (s : State) (k : Nat) : Bool := s.blkOn bFAB && decide (k < s.variant.ubley)
def fabTwin (s : State) : Bool := s.present bTWIN && s.flag TWIN.TWIN_FORCE TWIN.TWIN_FORCE_EN

/-- Count on the fabric, by selector × 4 + position (Table 15-8). -/
def fabCount (s : State) (k n : Nat) : State := { s with fab := { s.fab with ctr := ctrAdd s.fab.ctr k n } }

/-- A frame leaves on a lane. -/
def fabSend (s : State) (lane : Nat) (m : FabMsg) : State :=
  fabCount { s with fab := { s.fab with out := m :: s.fab.out } } (4 * (0x100 + lane)) 1

/-- The lanes that are up. -/
def fabUp (s : State) : List Nat := (List.range 8).filter (fun k => (fabLane s k).up)

/-- The serial of this device. -/
def ownSerial (s : State) : Nat := s.chip.fuses.serial

/-! ### Topology (R369, R370) -/

/-- The slot in use is of type 6. -/
def followsFabric (s : State) : Bool := match s.time.inUse with | some c => slotType s c == 6 | none => false

/-- This member's own link-state record. -/
def ownRecord (s : State) (form : Bool) : LinkState :=
  ⟨ownSerial s, s.fab.ver, s.chip.fuses.code, configId s, s.flag FAB.CTL FAB.CTL_TM_ELIG, s.time.st == .freerun, followsFabric s, form,
   (fabUp s).filterMap (fun k => (fabLane s k).neigh.map (fun n => ⟨k, n.1, n.2⟩))⟩

/-- The records from which the member knows the topology. -/
def fabRecs (s : State) : List LinkState := ownRecord s false :: s.fab.recs

/-- The links that both ends show: serial, lane, serial of the far end. -/
def fabLinks (s : State) : List (Nat × Nat × Nat) :=
  let rs := fabRecs s
  rs.flatMap (fun r => r.links.filterMap (fun l =>
    if rs.any (fun q => q.serial == l.serial && q.links.any (fun m => m.lane == l.far && m.serial == r.serial && m.far == l.lane))
    then some (r.serial, l.lane, l.serial) else none))

/-- The nodes reached from a list of nodes over edges, in at most n hops. -/
def reachFrom (edges : List (Nat × Nat × Nat)) : Nat → List Nat → List Nat
  | 0, l => l
  | n + 1, l => reachFrom edges n (sortNat (l ++ (edges.filter (fun e => l.contains e.1)).map (fun e => e.2.2)))

/-- The serials of the reachable devices, this one included, ascending. -/
def fabReach (s : State) : List Nat := reachFrom (fabLinks s) 64 [ownSerial s]

/-- The ID of a serial, and the member's own. -/
def fabId (s : State) (serial : Nat) : Option Nat :=
  if s.fab.formed.contains serial then some (s.fab.formed.idxOf serial) else none
def myId (s : State) : Nat := (fabId s (ownSerial s)).getD 0

/-- The member takes part. -/
def fabPart (s : State) : Bool := s.blkOn bFAB && s.flag FAB.CTL FAB.CTL_EN && !fabTwin s

/-- The fabric is formed and the member takes part in it. -/
def fabFormed (s : State) : Bool := fabPart s && s.fab.st == .formed

/-- IDs of the present members, and the coordinator. -/
def fabPresent (s : State) : List Nat := bitsOf 64 s.fab.present
def fabCoord (s : State) : Nat := (fabPresent s).head?.getD 0

/-! ### Routing (R373) -/

/-- The lanes between present members: ID, lane, ID. Strangers carry nothing. -/
def fabEdges (s : State) : List (Nat × Nat × Nat) :=
  (fabLinks s).filterMap (fun e => match fabId s e.1, fabId s e.2.2 with
    | some a, some b => some (a, e.2.1, b)
    | _, _ => none)

/-- Distances to node t over edges: (node, hops), within n hops. -/
def distTo (edges : List (Nat × Nat × Nat)) : Nat → Nat → List (Nat × Nat) → List (Nat × Nat)
  | 0, _, l => l
  | n + 1, k, l =>
    let new := sortNat ((edges.filter (fun e => l.any (fun x => x.1 == e.2.2 && x.2 == k) && !l.any (fun x => x.1 == e.1))).map (fun e => e.1))
    if new.isEmpty then l else distTo edges n (k + 1) (l ++ new.map (fun m => (m, k + 1)))
def fabDist (edges : List (Nat × Nat × Nat)) (t : Nat) : List (Nat × Nat) := distTo edges 64 0 [(t, 0)]
def hopsOf (d : List (Nat × Nat)) (n : Nat) : Option Nat := (d.find? (fun x => x.1 == n)).map (fun x => x.2)

/-- The routing entry of node n for destination t: the lane with the lowest index that begins a path of the fewest hops, with the hops. -/
def routeOf (edges : List (Nat × Nat × Nat)) (n t : Nat) : Option (Nat × Nat) :=
  let d := fabDist edges t
  match hopsOf d n with
  | none => none
  | some 0 => some (0, 0)
  | some (h + 1) =>
    let ls := (edges.filter (fun e => e.1 == n && hopsOf d e.2.2 == some h)).map (fun e => e.2.1)
    some (ls.foldl Nat.min (ls.headD 0), h + 1)

/-- The nodes and lanes that a message from n to t passes by the routing entries. -/
def routePath (edges : List (Nat × Nat × Nat)) (t : Nat) : Nat → Nat → List (Nat × Nat)
  | 0, _ => []
  | k + 1, n =>
    if n = t then []
    else match routeOf edges n t with
      | none => []
      | some (l, _) =>
        match edges.find? (fun e => e.1 == n && e.2.1 == l) with
        | some e => (n, l) :: routePath edges t k e.2.2
        | none => []

/-- The routing entries of this member. -/
def fabRoutes (s : State) : Tbl (Nat × Nat) :=
  let e := fabEdges s
  (fabPresent s).foldl (fun t d => match routeOf e (myId s) d with | some r => Tbl.put t d r | none => t) []

/-- The lanes on which this member passes on what member `from_` sends to every member, along its routing entries. -/
def treeLanes (s : State) (from_ : Nat) : List Nat :=
  let e := fabEdges s
  sortNat ((fabPresent s).flatMap (fun d => (routePath e d 64 from_).filterMap (fun x =>
    if x.1 = myId s then (s.fab.routes.find d).map (fun r => r.1) else none)))

end Sys2Proof.Machine
end

