-- ==== Sys2Proof/Machine/Ptp.lean ====
section
/-!
DEFINITION. The PTP engine (R202 to R205): message formats, data-set comparison, port states and the mailbox items of Table 9-5. What IEEE
1588-2019 decides and the spec does not repeat is taken from that standard (log entry 29).
-/
namespace Sys2Proof.Machine

/-! ### Identities and datasets -/

/-- The EUI-64 of STATION_ADDR of MACA (R203); in a pair both units use the identity of the pair (R344). -/
def clockIdentity (s : State) : Nat :=
  if s.twin.clockId ≠ 0 then s.twin.clockId
  else ofBe ((station s 0).take 3 ++ [0xFF, 0xFE] ++ (station s 0).drop 3)

/-- portNumber of an instance (Table 9-2). -/
def ptpNumber (i : Nat) : Nat := ptpPort i % 4 + (if i = 5 then 2 else 1)

/-- A field of an instance's control, interval or quality word. -/
def ptpCtl (s : State) (i : Nat) (f : Fld) : Nat := s.fld (TIME.PTP_CTL i) f
def ptpIntv (s : State) (i : Nat) (f : Fld) : Nat := s.fld (TIME.PTP_INTV i) f

/-- An instance runs: enabled, with its port present and on. -/
def ptpRuns (s : State) (i : Nat) : Bool := s.blkOn bTIME && ptpHere s i && ptpCtl s i TIME.PTP_CTL_EN == 1

/-- The instances of the boundary clock of instance i, or i alone (R203). -/
def ptpClock (s : State) (i : Nat) : List Nat :=
  if ptpCtl s i TIME.PTP_CTL_BC = 1 then
    (List.range 6).filter (fun j => ptpRuns s j && ptpCtl s j TIME.PTP_CTL_BC == 1 && ptpCtl s j TIME.PTP_CTL_DOMAIN == ptpCtl s i TIME.PTP_CTL_DOMAIN)
  else [i]

/-- The instance's own dataset, as it announces it when it is grandmaster. -/
def ownDs (s : State) (i : Nat) : PtpAnnounce :=
  { gm := clockIdentity s, prio1 := ptpIntv s i TIME.PTP_INTV_PRIO1, cls := s.fld (TIME.PTP_QUAL i) TIME.PTP_QUAL_CLASS
    accuracy := s.fld (TIME.PTP_QUAL i) TIME.PTP_QUAL_ACCURACY, variance := s.fld (TIME.PTP_QUAL i) TIME.PTP_QUAL_VARIANCE
    prio2 := ptpIntv s i TIME.PTP_INTV_PRIO2, steps := 0, utcOffset := 0, flags := if todInUse s then 8 else 0, timeSource := 0xA0
    srcClock := clockIdentity s, srcPort := ptpNumber i }

/-- Whether the first of two number lists comes first in lexicographic order. -/
def lexLt : List Nat → List Nat → Bool
  | [], _ => false
  | _, [] => false
  | a :: r, b :: q => if a = b then lexLt r q else decide (a < b)

/-- How a dataset stands to another in the data-set comparison of IEEE 1588-2019: better, better by topology, or neither. -/
inductive DsOrder
  | better | byTopology | neither
deriving DecidableEq, Repr

/-- Data-set comparison of a, received on port pa of this clock (identity `me`), with b, received on port pb. Datasets of one grandmaster compare by
the steps they took, then by the identities of their senders and receivers. -/
def dsOrder (me : Nat) (a : PtpAnnounce) (pa : Nat) (b : PtpAnnounce) (pb : Nat) : DsOrder :=
  if a.gm ≠ b.gm then
    (if lexLt [a.prio1, a.cls, a.accuracy, a.variance, a.prio2, a.gm] [b.prio1, b.cls, b.accuracy, b.variance, b.prio2, b.gm] then .better else .neither)
  else if a.steps + 1 < b.steps then .better
  else if a.steps < b.steps then
    (if lexLt [me, pb] [b.srcClock, b.srcPort] then .better else if lexLt [b.srcClock, b.srcPort] [me, pb] then .byTopology else .neither)
  else if b.steps < a.steps then .neither
  else if lexLt [a.srcClock, a.srcPort] [b.srcClock, b.srcPort] then .byTopology
  else if a.srcClock = b.srcClock ∧ a.srcPort = b.srcPort ∧ pa < pb then .byTopology else .neither

/-- a is better than b, by topology or otherwise. -/
def dsBetter (me : Nat) (a : PtpAnnounce) (pa : Nat) (b : PtpAnnounce) (pb : Nat) : Bool := dsOrder me a pa b pb != .neither

/-- The best dataset received in a clock, with its instance. -/
def ptpBest (s : State) (l : List Nat) : Option (Nat × PtpAnnounce) :=
  l.foldl (fun acc i =>
    match (ptpOf s i).best, acc with
    | some a, some b => if dsBetter (clockIdentity s) a (ptpNumber i) b.2 (ptpNumber b.1) then some (i, a) else acc
    | some a, none => some (i, a)
    | none, _ => acc) none

/-! ### Port states -/

/-- portState as IEEE 1588-2019 enumerates it; 0 while EN is 0. -/
def PtpSt.code : PtpSt → Nat
  | .disabled0 => 0 | .initializing => 1 | .faulty => 2 | .disabled => 3 | .listening => 4 | .preMaster => 5 | .master => 6
  | .passive => 7 | .uncalibrated => 8 | .slave => 9

/-- The portState changes: PTP_STATE sets and is recorded. -/
def ptpTo (s : State) (i : Nat) (st : PtpSt) : State :=
  let x := ptpOf s i
  if x.st = st then s
  else
    let y := if st = .uncalibrated then { x with st := st, syncT1 := none, waitFollow := false, dreqT3 := none, syncRun := 0 }
      else { x with st := st, preAt := if st = .preMaster then s.now else x.preAt }
    ((setPtp s i y).raise TIME.CAUSE 8).emit .time 0x300E sevNOTICE i []

/-- The state an instance goes to by the best master clock algorithm; `late` is true once its announce receipt timeout has expired. -/
def ptpDecide (s : State) (i : Nat) (late : Bool) : PtpSt :=
  let x := ptpOf s i
  let own := ownDs s i
  let me := clockIdentity s
  let num := ptpNumber i
  let slaveSt : PtpSt := if x.st = .slave then .slave else .uncalibrated
  if ptpCtl s i TIME.PTP_CTL_SLAVE_ONLY = 1 then (match x.best with | some _ => slaveSt | none => .listening)
  else if x.st = .listening ∧ x.best = none ∧ late = false then .listening
  else if own.cls < 128 then
    (match x.best with
     | some b => if dsBetter me own num b num then .master else .passive
     | none => .master)
  else
    match ptpBest s (ptpClock s i) with
    | none => .master
    | some (j, e) =>
      if dsBetter me own num e (ptpNumber j) then .master
      else if j = i then slaveSt
      else if (match x.best with | some b => dsOrder me e (ptpNumber j) b num == DsOrder.byTopology | none => false) then .passive
      else if x.st = PtpSt.master then .master else .preMaster

/-- Every instance of a clock decides again. -/
def ptpElect (s : State) (i : Nat) (late : Bool) : State :=
  (ptpClock s i).foldl (fun st j => if ptpRuns st j then ptpTo st j (ptpDecide st j (late && j == i)) else st) s

/-- A running instance leaves INITIALIZING for LISTENING. -/
def ptpWake (s : State) (i : Nat) : State :=
  if ptpRuns s i && ((ptpOf s i).st == .initializing || (ptpOf s i).st == .disabled0) then ptpTo s i .listening else s

/-- A write has changed PTP_CTLi or PTP_INTVi (R204). -/
def ptpRestart (s : State) (i : Nat) : State :=
  if ptpCtl s i TIME.PTP_CTL_EN = 0 then ptpTo (setPtp s i { PtpS.init with st := (ptpOf s i).st }) i .disabled0
  else ptpTo (setPtp s i { PtpS.init with st := (ptpOf s i).st }) i .initializing

/-! ### Messages -/

/-- The present STC in 2⁻¹⁶ ns. -/
def stc16 (s : State) : Int := ((s.time.stc / 2 ^ 40 : Nat) : Int)

/-- Message type and control field of a message kind. -/
def ptpCode : PtpKind → Nat × Nat
  | .sync => (0, 0) | .delayReq => (1, 1) | .pdelayReq => (2, 5) | .pdelayResp => (3, 5) | .followUp => (8, 2) | .delayResp => (9, 3)
  | .pdelayRespFollowUp => (10, 5) | .announce => (11, 5) | .signaling => (12, 5) | .get => (13, 4) | .set => (13, 4)

/-- A timestamp of 10 octets from 2⁻¹⁶ ns. -/
def ptpStamp (t : Int) : List Byte :=
  let n := (t / 65536).toNat
  beBytes 6 (n / 1000000000) ++ beBytes 4 (n % 1000000000)

/-- The common header and a body. -/
def ptpBytes (s : State) (i : Nat) (k : PtpKind) (flags seq : Nat) (corr log : Int) (body : List Byte) : List Byte :=
  [BitVec.ofNat 8 (ptpCode k).1, 0x12] ++ beBytes 2 (34 + body.length) ++ [BitVec.ofNat 8 (ptpCtl s i TIME.PTP_CTL_DOMAIN), 0] ++ beBytes 2 flags ++
    beBytes 8 (lowBits 64 corr) ++ [0, 0, 0, 0] ++ beBytes 8 (clockIdentity s) ++ beBytes 2 (ptpNumber i) ++ beBytes 2 seq ++
    [BitVec.ofNat 8 (ptpCode k).2, BitVec.ofNat 8 (lowBits 8 log)] ++ body

/-- Whether a kind uses the event port, and whether it uses the peer-delay address. -/
def ptpEvent : PtpKind → Bool
  | .sync => true | .delayReq => true | .pdelayReq => true | .pdelayResp => true | _ => false
def ptpPeer : PtpKind → Bool
  | .pdelayReq => true | .pdelayResp => true | .pdelayRespFollowUp => true | _ => false

/-- A PTP message in its transport: IEEE 802.3, UDP over IPv4 (and TRANSPORT 3), UDP over IPv6. `uni` gives a unicast link address, IPv4 and
IPv6 destination. -/
def ptpFrame (s : State) (i : Nat) (k : PtpKind) (uni : Option (List Byte × List Byte)) (m : List Byte) : List Byte :=
  let tr := ptpCtl s i TIME.PTP_CTL_TRANSPORT
  let port : Nat := if ptpEvent k then 319 else 320
  let udp := beBytes 2 port ++ beBytes 2 port ++ beBytes 2 (8 + m.length) ++ [0, 0] ++ m
  let st := station s (ptpPort i)
  if tr = 0 then
    (match uni with
     | some u => u.1
     | none => if ptpPeer k then [0x01, 0x80, 0xC2, 0, 0, 0x0E] else [0x01, 0x1B, 0x19, 0, 0, 0]) ++ st ++ [0x88, 0xF7] ++ m
  else if tr = 2 then
    let dst := match uni with
      | some u => u.2
      | none => if ptpPeer k then [0xFF, 0x02] ++ List.replicate 13 0 ++ [0x6B] else [0xFF, 0x0E] ++ List.replicate 12 0 ++ [0x01, 0x81]
    (match uni with
     | some u => u.1
     | none => if ptpPeer k then [0x33, 0x33, 0, 0, 0, 0x6B] else [0x33, 0x33, 0, 0, 0x01, 0x81]) ++ st ++ [0x86, 0xDD, 0x60, 0, 0, 0] ++
      beBytes 2 udp.length ++ [17, 1] ++ List.replicate 16 0 ++ dst ++ udp
  else
    let dst := match uni with
      | some u => u.2
      | none => if ptpPeer k then [224, 0, 0, 107] else [224, 0, 1, 129]
    (match uni with
     | some u => u.1
     | none => if ptpPeer k then [0x01, 0x00, 0x5E, 0, 0, 0x6B] else [0x01, 0x00, 0x5E, 0, 0x01, 0x81]) ++ st ++ [0x08, 0x00, 0x45, 0] ++
      beBytes 2 (20 + udp.length) ++ [0, 0, 0x40, 0, 1, 17, 0, 0, 0, 0, 0, 0] ++ dst ++ udp

/-- An instance may send: an instance of a boundary clock that is MASTER or PRE_MASTER does so only with the solo roles (R203, R356). -/
def ptpSpeaks (s : State) (i : Nat) : Bool :=
  ptpCtl s i TIME.PTP_CTL_BC == 0 || soloRole s || !((ptpOf s i).st == .master || (ptpOf s i).st == .preMaster)

/-- A message of instance 5 leaves as a fabric control frame, which goes to every present member (R377). -/
def fabPtp (s : State) (m : List Byte) : State :=
  if fabFormed s then (treeLanes s (myId s)).foldl (fun st k => fabSend st k (.ptp k m)) s else s

/-- An instance sends a general message, on the control lane of its port. -/
def ptpSend (s : State) (i : Nat) (k : PtpKind) (flags seq : Nat) (corr log : Int) (body : List Byte) : State :=
  if !ptpSpeaks s i then s
  else if i < 5 then sendControl s (ptpPort i) (ptpFrame s i k none (ptpBytes s i k flags seq corr log body))
  else fabPtp s (ptpBytes s i k flags seq corr log body)

/-- An instance sends an event message, whose timestamp is taken as it starts (`kind` as at TxSrc.event), with the bytes of the message that carries it
(R150). On the fabric it starts at once. -/
def ptpSendEvent (s : State) (i : Nat) (k : PtpKind) (uni : Option (List Byte × List Byte)) (m : List Byte) (kind seq : Nat) (follow : List Byte) : State :=
  if !ptpSpeaks s i then s
  else if i < 5 then
    sendEvent s (ptpPort i) (ptpFrame s i k uni m) i kind seq
      (if follow.isEmpty then [] else ptpFrame s i (if kind = 1 then .followUp else .pdelayRespFollowUp) none follow)
  else
    let t := s.time.stc / 2 ^ 40
    let f : TxFrame := ⟨.event i kind seq [], m, 0, false⟩
    let s1 := fabPtp s (f.stamped t).bytes
    if kind = 2 then setPtp s1 i { ptpOf s1 i with dreqT3 := some (t : Int) }
    else if follow.isEmpty then s1 else fabPtp s1 (eventStamp follow (if kind = 1 then 44 else 54) true t)

/-- Where PTP starts in a received frame of an instance's transport. -/
def ptpOff (s : State) (i : Nat) (f : List Byte) : Nat :=
  let tr := ptpCtl s i TIME.PTP_CTL_TRANSPORT
  etOff f + 2 + (if tr = 0 then 0 else if tr = 2 then 48 else 28)

/-- The unicast addresses of the parent, from the newest PTP frame received from it. -/
def parentAddr (s : State) (i : Nat) (b : PtpAnnounce) : Option (List Byte × List Byte) :=
  match s.srx.ptp.find? (fun f => f.port == ptpPort i && beAt f.bytes (ptpOff s i f.bytes + 20) 8 == b.srcClock) with
  | some f =>
    some ((f.bytes.drop 6).take 6,
      if ptpCtl s i TIME.PTP_CTL_TRANSPORT = 2 then (f.bytes.drop (etOff f.bytes + 10)).take 16 else (f.bytes.drop (etOff f.bytes + 14)).take 4)
  | none => none

/-- The next sequence number of an instance. -/
def ptpNext (s : State) (i : Nat) : Nat × State :=
  ((ptpOf s i).seqOut % 65536, setPtp s i { ptpOf s i with seqOut := ((ptpOf s i).seqOut + 1) % 65536 })

/-- The instance of a clock that is its slave, with the dataset of its parent: the datasets of the whole clock come from it. -/
def ptpUp (s : State) (i : Nat) : Option (Nat × PtpAnnounce) :=
  ((ptpClock s i).find? (fun j => (ptpOf s j).st == .slave || (ptpOf s j).st == .uncalibrated)).bind
    (fun j => (ptpOf s j).best.map (fun b => (j, b)))

/-- The dataset an instance announces: the parent's grandmaster one step further, or its own. -/
def announceDs (s : State) (i : Nat) : PtpAnnounce :=
  match ptpUp s i with | some (_, b) => { b with steps := b.steps + 1 } | none => ownDs s i

/-- The delay mechanism of an instance: peer-to-peer, but for instance 5 (R377). -/
def ptpP2p (s : State) (i : Nat) : Bool := decide (i < 5) && ptpCtl s i TIME.PTP_CTL_P2P == 1

/-- The announce interval of an instance. -/
def announceInterval (s : State) (i : Nat) : Nat := interval (sgn 4 (ptpIntv s i TIME.PTP_INTV_LOG_ANN))

/-- A PRE_MASTER instance becomes MASTER once it has qualified for one announce interval more than currentDS.stepsRemoved. -/
def ptpQualify (s : State) (i : Nat) : State :=
  let n := match ptpUp s i with | some (_, b) => b.steps + 2 | none => 1
  if (ptpOf s i).st = .preMaster ∧ (ptpOf s i).preAt + n * announceInterval s i ≤ s.now then ptpTo s i .master else s

/-- ST 2059-2 synchronisation metadata, sent with the Announce of a boundary-clock port that is master (Table 9-3): the 42 octets of its data are
not in the spec and are a free value (log entry 29). -/
def ptpMetadata (s : State) (i seq : Nat) : State :=
  if ptpCtl s i TIME.PTP_CTL_PROFILE = 1 ∧ ptpCtl s i TIME.PTP_CTL_BC = 1 then
    (let f := s.takeFree 336
     ptpSend f.2 i .get 0 seq 0 127 (List.replicate 10 0xFF ++ [0, 0, 3, 0, 0, 3, 0, 48, 0x68, 0x97, 0xE8, 0, 0, 1] ++ beBytes 42 f.1))
  else s

/-- The body of Announce. As grandmaster, currentUtcOffset is not given by the spec: a free value. -/
def announceBody (s : State) (i : Nat) : List Byte × State :=
  let d := announceDs s i
  let u := if d.gm = clockIdentity s then s.takeFree 16 else (d.utcOffset, s)
  (ptpStamp (stc16 s) ++ beBytes 2 u.1 ++ [0, BitVec.ofNat 8 d.prio1, BitVec.ofNat 8 d.cls, BitVec.ofNat 8 d.accuracy] ++ beBytes 2 d.variance ++
    [BitVec.ofNat 8 d.prio2] ++ beBytes 8 d.gm ++ beBytes 2 d.steps ++ [BitVec.ofNat 8 d.timeSource], u.2)

/-- A message of an interval: kind 0 Sync (with Follow_Up when two-step), 1 Announce, 2 Delay_Req or Pdelay_Req. -/
def ptpInterval (s : State) (i kind : Nat) : State :=
  let x := ptpOf s i
  let log := fun f => sgn 4 (ptpIntv s i f)
  if kind = 0 then
    if x.st = .master then
      let n := ptpNext s i
      let two := ptpCtl s i TIME.PTP_CTL_TWO_STEP = 1
      let lg := log TIME.PTP_INTV_LOG_SYNC
      ptpSendEvent n.2 i .sync none (ptpBytes n.2 i .sync (if two then 0x0200 else 0) n.1 0 lg (List.replicate 10 0)) (if two then 1 else 0) n.1
        (if two then ptpBytes n.2 i .followUp 0 n.1 0 lg (List.replicate 10 0) else [])
    else s
  else if kind = 1 then
    let s0 := ptpQualify s i
    if (ptpOf s0 i).st = .master then
      let b := announceBody s0 i
      let n := ptpNext b.2 i
      ptpMetadata (ptpSend n.2 i .announce ((announceDs s0 i).flags % 64) n.1 0 (log TIME.PTP_INTV_LOG_ANN) b.1) i n.1
    else s0
  else
    let ask := fun (k : PtpKind) (uni : Option (List Byte × List Byte)) (len : Nat) =>
      let n := ptpNext s i
      let s1 := setPtp n.2 i { ptpOf n.2 i with dreqT3 := none, dreqSeq := n.1 }
      ptpSendEvent s1 i k uni (ptpBytes s1 i k (if uni.isSome then 0x0400 else 0) n.1 0 127 (List.replicate len 0)) 2 n.1 []
    if ptpP2p s i then ask .pdelayReq none 20
    else if x.st = .slave ∨ x.st = .uncalibrated then
      ask .delayReq (if ptpCtl s i TIME.PTP_CTL_UNICAST_DREQ = 1 then x.best.bind (parentAddr s i) else none) 10
    else s

/-- The row PTP_MESSAGE_INTERVAL. -/
def execPtpMessageInterval (t : Nat) (inst kind : Nat) (s : State) : Host.Outcome State Fault Refusal :=
  .next (if ptpRuns (s.at t) inst then ptpInterval (ptpWake (s.at t) inst) inst kind else s.at t)

/-- The row PTP_ANNOUNCE_TIMEOUT. -/
def execPtpAnnounceTimeout (t : Nat) (inst : Nat) (s : State) : Host.Outcome State Fault Refusal :=
  .next (
    let s0 := ptpWake (s.at t) inst
    if ptpRuns s0 inst then ptpElect (setPtp s0 inst { ptpOf s0 inst with best := none, foreign := [] }) inst true else s0)

/-! ### Reception -/

/-- A Sync is accepted with its origin time: the offset, and slots of type 1, follow. -/
def ptpSynced (s : State) (i : Nat) (t1 t2 : Int) : State :=
  let x := ptpOf s i
  let r := runOn x.syncFrom x.syncRun ((s.now - x.syncFrom) / syncInterval s i) s.now
  let s1 := setPtp s i { x with offset := t2 - t1 - x.delay, syncT1 := some t1, syncT2 := t2, waitFollow := false, lastSync := some s.now
                                syncFrom := r.1, syncRun := r.2, cSync := x.cSync + 1 }
  if x.st = .uncalibrated then ptpTo s1 i .slave else s1

/-- A request is within the master load of Table 9-3; the second's count moves on. -/
def ptpLoad (s : State) (i : Nat) : Bool × State :=
  let x := ptpOf s i
  let n := if x.reqSec = s.stcSecs then x.reqN else 0
  if n < 4096 then (true, setPtp s i { x with reqSec := s.stcSecs, reqN := n + 1, cReq := x.cReq + 1 })
  else (false, setPtp s i { x with reqSec := s.stcSecs, reqN := n, cDrop := x.cDrop + 1 })

/-- The members of a dataset in transmission order (Table 9-5). -/
def ptpDataset (s : State) (i d : Nat) : List Byte :=
  let x := ptpOf s i
  let own := ownDs s i
  let u := ptpUp s i
  let up := u.isSome
  let b := (u.map (fun e => e.2)).getD own
  let y := ptpOf s ((u.map (fun e => e.1)).getD i)
  let log := fun f => BitVec.ofNat 8 (lowBits 8 (sgn 4 (ptpIntv s i f)))
  if d = 0 then
    beBytes 8 (clockIdentity s) ++ beBytes 2 (ptpClock s i).length ++ [BitVec.ofNat 8 own.cls, BitVec.ofNat 8 own.accuracy] ++ beBytes 2 own.variance ++
      [BitVec.ofNat 8 own.prio1, BitVec.ofNat 8 own.prio2, BitVec.ofNat 8 (ptpCtl s i TIME.PTP_CTL_DOMAIN),
       BitVec.ofNat 8 (ptpCtl s i TIME.PTP_CTL_SLAVE_ONLY)]
  else if d = 1 then
    beBytes 2 (if up then b.steps + 1 else 0) ++ beBytes 8 (lowBits 64 (if up then y.offset else 0)) ++ beBytes 8 (lowBits 64 (if up then y.delay else 0))
  else if d = 2 then
    (let g := if up then b else own
     beBytes 8 g.srcClock ++ beBytes 2 (if up then g.srcPort else 0) ++ beBytes 8 g.gm ++ [BitVec.ofNat 8 g.cls, BitVec.ofNat 8 g.accuracy] ++
       beBytes 2 g.variance ++ [BitVec.ofNat 8 g.prio1, BitVec.ofNat 8 g.prio2])
  else if d = 3 then
    (let g := if up then b else own
     beBytes 2 (if up then g.utcOffset else Config.freeValue s.free % 65536) ++ [BitVec.ofNat 8 g.flags, BitVec.ofNat 8 g.timeSource])
  else
    beBytes 8 (clockIdentity s) ++ beBytes 2 (ptpNumber i) ++ [BitVec.ofNat 8 x.st.code, log TIME.PTP_INTV_LOG_DREQ] ++
      beBytes 8 (lowBits 64 (if ptpP2p s i then x.delay else 0)) ++
      [log TIME.PTP_INTV_LOG_ANN, BitVec.ofNat 8 (ptpIntv s i TIME.PTP_INTV_ANN_TIMEOUT), log TIME.PTP_INTV_LOG_SYNC,
       if ptpP2p s i then 2 else 1]

/-- The answer of the control cores to a management message: the dataset, or an error status. Answering GET is a solo role (R356). -/
def ptpManage (s : State) (i : Nat) (m : PtpMsg) : State :=
  let head := beBytes 8 m.srcClock ++ beBytes 2 m.srcPort ++ [0, 0, 2, 0]
  let err := fun (e : Nat) => beBytes 2 2 ++ beBytes 2 8 ++ beBytes 2 e ++ beBytes 2 m.mgmt ++ [0, 0, 0, 0]
  let tlv := match m.kind with
    | .get => if 0x2000 ≤ m.mgmt ∧ m.mgmt < 0x2005 then
        (let d := ptpDataset s i (m.mgmt - 0x2000)
         beBytes 2 1 ++ beBytes 2 (2 + d.length) ++ beBytes 2 m.mgmt ++ d)
      else err 2
    | _ => err 6
  if m.kind = .get ∧ soloRole s = false then s else ptpSend (s.takeFree 16).2 i .get 0 m.seq 0 127 (head ++ tlv)

/-- A message is from the parent of a slave. -/
def fromParent (x : PtpS) (m : PtpMsg) : Bool :=
  (x.st == .slave || x.st == .uncalibrated) && (match x.best with | some b => b.srcClock == m.srcClock && b.srcPort == m.srcPort | none => false)

/-- The receive timestamp of an event message whose frame of `len` bytes, FCS included, has just ended (R150), in 2⁻¹⁶ ns; on the fabric, the present
STC. -/
def ptpStampIn (s : State) (i len : Nat) : Int := if i < 5 then ((rxStampAt s (ptpPort i) len / 2 ^ 40 : Nat) : Int) else stc16 s

/-- Announce a has arrived: it qualifies if it comes from the parent, or if it is the second of its sender within the foreign-master window of 4
announce intervals (IEEE 1588-2019; log entry 29). -/
def ptpAnnounced (s : State) (i : Nat) (a : PtpAnnounce) : State :=
  let x := ptpOf s i
  let mine := fun (b : PtpAnnounce) => b.srcClock == a.srcClock && b.srcPort == a.srcPort
  let window := x.foreign.filter (fun e => decide (s.now ≤ e.2 + 4 * announceInterval s i))
  let same := match x.best with | some b => mine b | none => false
  let use := same || (window.any (fun e => mine e.1) && decide (a.steps < 255) &&
    (match x.best with | some b => dsBetter (clockIdentity s) a (ptpNumber i) b (ptpNumber i) | none => true))
  let s1 := setPtp s i { x with cAnn := x.cAnn + 1, best := if use then some a else x.best, foreign := (a, s.now) :: window }
  ptpElect (if use && !same && (x.st == .slave) then ptpTo s1 i .uncalibrated else s1) i false

/-- The engine takes a message for a running instance, whose frame had `len` bytes. -/
def ptpReceive (s : State) (i len : Nat) (m : PtpMsg) : State :=
  let x := ptpOf s i
  let t := ptpStampIn s i len
  if m.domain ≠ ptpCtl s i TIME.PTP_CTL_DOMAIN then s
  else match m.kind with
    | .announce =>
      if m.srcClock = clockIdentity s then s else ptpAnnounced s i { m.ann with srcClock := m.srcClock, srcPort := m.srcPort }
    | .sync =>
      if fromParent x m then
        if m.twoStep then setPtp s i { x with waitFollow := true, syncSeq := m.seq, syncT2 := t, syncT1 := some m.corr }
        else ptpSynced s i (m.ts + m.corr) t
      else s
    | .followUp =>
      if fromParent x m && x.waitFollow && x.syncSeq == m.seq then ptpSynced s i (m.ts + m.corr + x.syncT1.getD 0) x.syncT2 else s
    | .delayReq =>
      if x.st = .master ∧ ptpP2p s i = false ∧ ptpSpeaks s i = true then
        let l := ptpLoad s i
        if l.1 then
          ptpSend l.2 i .delayResp 0 m.seq (m.corr - t % 65536) (sgn 4 (ptpIntv s i TIME.PTP_INTV_LOG_DREQ))
            (ptpStamp t ++ beBytes 8 m.srcClock ++ beBytes 2 m.srcPort)
        else l.2
      else s
    | .delayResp =>
      if fromParent x m && m.reqClock == clockIdentity s && m.reqPort == ptpNumber i && x.dreqSeq == m.seq then
        match x.dreqT3 with
        | some t3 => setPtp s i { x with delay := (x.offset + x.delay + (m.ts - m.corr - t3)) / 2, dreqT3 := none }
        | none => s
      else s
    | .pdelayReq =>
      if ptpP2p s i ∧ ptpSpeaks s i = true then
        let l := ptpLoad s i
        let who := beBytes 8 m.srcClock ++ beBytes 2 m.srcPort
        if l.1 then
          (if ptpCtl s i TIME.PTP_CTL_TWO_STEP = 1 then
             ptpSendEvent l.2 i .pdelayResp none (ptpBytes l.2 i .pdelayResp 0x0200 m.seq (-(t % 65536)) 127 (ptpStamp t ++ who)) 4 m.seq
               (ptpBytes l.2 i .pdelayRespFollowUp 0 m.seq m.corr 127 (List.replicate 10 0 ++ who))
           else ptpSendEvent l.2 i .pdelayResp none (ptpBytes l.2 i .pdelayResp 0 m.seq (m.corr - t) 127 (List.replicate 10 0 ++ who)) 3 m.seq [])
        else l.2
      else s
    | .pdelayResp =>
      if ptpP2p s i ∧ m.reqClock = clockIdentity s ∧ m.reqPort = ptpNumber i ∧ x.dreqSeq = m.seq then
        match x.dreqT3 with
        | some t1 =>
          if m.twoStep then setPtp s i { x with dreqT3 := some (t - t1 + m.ts - m.corr) }
          else setPtp s i { x with delay := (t - t1 - m.corr) / 2, dreqT3 := none }
        | none => s
      else s
    | .pdelayRespFollowUp =>
      if ptpP2p s i ∧ m.reqClock = clockIdentity s ∧ m.reqPort = ptpNumber i ∧ x.dreqSeq = m.seq then
        match x.dreqT3 with
        | some v => setPtp s i { x with delay := (v - m.ts - m.corr) / 2, dreqT3 := none }
        | none => s
      else s
    | .signaling => s
    | .get => ptpManage s i m
    | .set => ptpManage s i m

/-! ### Mailbox -/

/-- Octets packed into words from bits [7:0] upwards, to a number of words. -/
def packWords (l : List Byte) (n : Nat) : List Nat := wordsOfBytes l n

/-- What the TIME mailbox captures, the PTP items included (Tables 9-1 and 9-5). An instance that is absent, or acts so, answers no selector: ERRCODE 1
(DESIGN CHOICE, log entry 95). -/
def timeMailbox (sel : Nat) (s : State) : Option (List Nat × State) :=
  if 0x100 ≤ sel ∧ sel < 0x160 then
    let i := (sel - 0x100) / 16
    let d := sel % 16
    let x := ptpOf s i
    if !ptpHere s i then none
    else if d = 5 then
      let o := Tbl.getD s.inst.ptp i .init
      let v := [Nat.min o.cSync x.cSync, Nat.min o.cAnn x.cAnn, Nat.min o.cReq x.cReq, Nat.min o.cDrop x.cDrop]
      let s1 := setPtp s i { x with cSync := x.cSync - o.cSync, cAnn := x.cAnn - o.cAnn, cReq := x.cReq - o.cReq, cDrop := x.cDrop - o.cDrop }
      some (v.map (· % 2 ^ 32), { s1 with inst := { s1.inst with ptp := Tbl.put s1.inst.ptp i { o with cSync := 0, cAnn := 0, cReq := 0, cDrop := 0 } } })
    else if d = 3 then some (packWords (ptpDataset s i 3) 1, (s.takeFree 16).2)
    else if d < 5 then some (packWords (ptpDataset s i d) (([5, 5, 6, 1, 7] : List Nat).getD d 0), s)
    else none
  else timeCapture sel s

/-- The rows TIME_MAILBOX_READ and PTP_DATASET_READ. -/
def execTimeMailboxRead (t : Nat) (path : Path) (sel tag : Nat) (s : State) : Host.Outcome State Fault Refusal :=
  .next (mbxServe (s.at t) path bTIME sel tag (timeMailbox sel))
def execPtpDatasetRead (t : Nat) (path : Path) (sel tag : Nat) (s : State) : Host.Outcome State Fault Refusal :=
  .next (mbxServe (s.at t) path bTIME sel tag (timeMailbox sel))

end Sys2Proof.Machine
end

