-- ==== Sys2Proof/Machine/Clk.lean ====
section
/-!
DEFINITION. Clock synthesis and clock outputs (chapter 10).
-/
namespace Sys2Proof.Machine

/-! ### Media synthesisers (R223 to R227) -/

/-- The check of UPD (R223, R225). -/
def msyLegal (fam post mult : Nat) : Bool :=
  let f := famHz fam * mult
  decide (100000000 ≤ f) && decide (f ≤ 400000000) && decide (2800000000 ≤ f * post) && decide (f * post ≤ 3300000000) &&
  decide (8 ≤ post) && decide (post ≤ 32) && post % 2 == 0

/-- 1 ppm in units of 2⁻⁴⁰. -/
def ppm : Int := 1099511

/-- The row FREQUENCY_CORRECTION_UPDATE: y moves by at most 1 ppm towards the correction that a rule fixes, or else towards the servo's
(`target`, in 2⁻⁴⁰), within ±250 ppm, and every following synthesiser takes it (R198, R224); one whose VCO is held does not (R235). -/
def execFrequencyCorrectionUpdate (t : Nat) (target : Int) (s : State) : Host.Outcome State Fault Refusal :=
  .next (
    let s0 := s.at t
    if !s0.blkOn bTIME then s0
    else
      let goal := clamp yMax ((goalOf s0).getD target)
      let y := s0.time.y + clamp ppm (goal - s0.time.y)
      let s1 := noteFreq { s0 with time := { s0.time with y := y } }
      (List.range 4).foldl (fun st m => if msyFollow st m && (msyOf st m).run && !(msyOf st m).held then setMsy st m { msyOf st m with y := y } else st) s1)

/-- The dither register of MSY m loads SEED (R226). -/
def loadSeed (s : State) (m : Nat) : State := setMsy s m { msyOf s m with dither := (s.rd (CLK.MSY_SEED m)).toNat, ditherFrom := s.now }

/-- One shift of the Galois register x³² + x²² + x² + x + 1, and n of them. -/
def ditherStep (r : Nat) : Nat := if 2 ^ 31 ≤ r then (r * 2 % 2 ^ 32) ^^^ 0x00400007 else r * 2
def ditherRun : Nat → Nat → Nat
  | 0, r => r
  | n + 1, r => ditherRun n (ditherStep r)

/-- The dither register of MSY m now; 0, which it never leaves, is no dither. It shifts towards its high end once in every cycle of OSC_M since SEED
was loaded (DESIGN CHOICE, log entry 96). -/
def ditherNow (s : State) (m : Nat) : Nat :=
  ditherRun ((s.now - (msyOf s m).ditherFrom) * 49152000 / secs 1) (msyOf s m).dither

/-- MSY m starts or relocks: LOCK falls, SEED is loaded (R226). Its outputs have no edges that a rule gives until it has locked. -/
def msyRelock (s : State) (m : Nat) : State :=
  let s1 := loadSeed (setMsy s m { msyOf s m with run := true, lock := false, relock := true, held := false, good := 0, bad := 0 }) m
  { s1 with clk := { s1.clk with outs := (List.range 16).foldl (fun o n =>
      let x := outNow s n
      if x.cur.map Wave.src = some m then Tbl.put o n { x with cur := some (.unknown m), stop := none, next := none, wait := false } else o) s1.clk.outs } }

/-- MSY m takes the rate that FOLLOW gives it, at the phase it has (R224). -/
def msyTake (s : State) (m : Nat) : State :=
  if (msyOf s m).held then s else msyRetime s m (msyTau s m) (if msyFollow s m then none else some (0, s.now))

/-- A software write of MSY_CTLm (m = 1 to 3) has been stored over the word `old` (R225). -/
def msyCtlWritten (s : State) (m : Nat) (old : Word) : State :=
  let w := s.rd (msyCtlA m)
  let fam := Nat.min 2 (CLK.MSY_CTL_FAM.get w)
  let post := CLK.MSY_CTL_POST.get w
  let mult := s.fld (msyFreqA m) CLK.MSY_FREQ_MULT
  let s1 :=
    if CLK.MSY_CTL_UPD.get w = 1 then
      let s0 := s.setFld (msyCtlA m) CLK.MSY_CTL_UPD 0
      if msyLegal fam post mult then
        let x := msyOf s0 m
        let sA := s0.setFld (msyCtlA m) CLK.MSY_CTL_ERR 0
        if x.fam = fam ∧ x.post = post ∧ x.mult = mult then sA
        else
          let sB := setMsy sA m { x with fam := fam, post := post, mult := mult }
          if x.run then msyRelock sB m else sB
      else (s0.setFld (msyCtlA m) CLK.MSY_CTL_ERR 1).raise CLK.CAUSE 6
    else s
  let s2 := if CLK.MSY_CTL_FOLLOW.get w = CLK.MSY_CTL_FOLLOW.get old then s1 else outsOf (msyTake s1 m) m true
  if CLK.MSY_CTL_EN.get w = CLK.MSY_CTL_EN.get old then s2
  else if CLK.MSY_CTL_EN.get w = 1 then msyRelock s2 m
  else outsOf (setMsy s2 m { msyOf s2 m with run := false, lock := false, relock := false, held := false }) m false

/-- MSY0 takes the base that DEVICE.FAMILY gives it (R225). -/
def msyFamily (s : State) (fam : Nat) : State :=
  if (msyOf s 0).fam = fam then s else msyRelock (setMsy s 0 { msyOf s 0 with fam := fam }) 0

/-- The STC has just reached a whole second: it is within the cycle of the time island's clock that follows. -/
def wholeSecond (s : State) : Bool := decide (s.time.stc % stcSec 1 < 2 ^ 56)

/-- The row DITHER_SEED_LOAD: at each instant at which the STC reaches a whole second every running modulator loads SEED (R226), and a following
synthesiser whose phase origin this is has its edges counted from it (R227). -/
def execDitherSeedLoad (t : Nat) (s : State) : Host.Outcome State Fault Refusal :=
  .next (
    let s0 := s.at t
    if s0.blkOn bCLK && wholeSecond s0 then
      (List.range 4).foldl (fun st m =>
        let x := msyOf st m
        if x.run then
          loadSeed (if x.lock ∧ x.rate = none ∧ x.origin = st.stcSecs then msyRetime st m (st.time.stc : Int) none else st) m
        else st) s0
    else s0)

/-- Comparisons in a row within ±1 ns, and beyond ±5 ns, after `n` more with a phase error of `e` ps (R233). -/
def countCmp (gb : Nat × Nat) (c : Int × Nat) : Nat × Nat :=
  if c.1.natAbs ≤ 1000 then (gb.1 + c.2, 0) else if 5000 < c.1.natAbs then (0, gb.2 + c.2) else (0, 0)

/-- A synthesiser makes comparisons: runs of a phase error, in ps against the ratio in force, y included, and how many had it; oldest first. -/
def comparisons (s : State) (m : Nat) (cmp : List (Int × Nat)) : State :=
  if m = 4 then
    (let c := cmp.foldl countCmp (s.clk.ssyGood, s.clk.ssyBad)
     { s with clk := { s.clk with ssyGood := c.1, ssyBad := c.2 } })
  else
    let c := cmp.foldl countCmp ((msyOf s m).good, (msyOf s m).bad)
    setMsy s m { msyOf s m with good := c.1, bad := c.2 }

/-- LOCK of synthesiser 0 to 3 (MSY), or 4 (SSY), sets after 1,000 good comparisons: an MSY takes its phase origin, rounded up to the next whole second
(R227), at an arbitrary phase until then, and its outputs are placed, ANCHOR outputs re-phased (R235, R238). -/
def synthLock (s : State) (m : Nat) : State :=
  if m = 4 then (if 1000 ≤ s.clk.ssyGood then { s with clk := { s.clk with ssyLock := true } } else s)
  else
    let x := msyOf s m
    if x.run && !x.lock && decide (1000 ≤ x.good) then
      let f := s.takeFree 56
      let s1 := setMsy f.2 m { x with lock := true, relock := false, held := false, origin := cdiv s.time.stc (stcSec 1) }
      let s2 := loadSeed (msyRetime s1 m (msyTau s1 m + (f.1 : Int)) (if msyFollow s1 m then none else some (0, s1.now))) m
      if x.held then rephase s2 (some m) else rephase (outsOf s2 m false) (some m)
    else s

/-- The row SYNTH_LOCK, with the comparisons since the last such row or SYNTH_LOSS_OF_LOCK. -/
def execSynthLock (t : Nat) (synth : Nat) (cmp : List (Int × Nat)) (s : State) : Host.Outcome State Fault Refusal :=
  .next (if (s.at t).blkOn bCLK then synthLock (comparisons (s.at t) synth cmp) synth else s.at t)

/-- A synthesiser in lock has made 4 bad comparisons in a row (R233). -/
def synthBad (s : State) (m : Nat) : Bool :=
  if m = 4 then s.clk.ssyLock && decide (4 ≤ s.clk.ssyBad) else (msyOf s m).lock && decide (4 ≤ (msyOf s m).bad)

/-- 20 ppm in units of 2⁻⁴⁰. -/
def ppm20 : Nat := 21990232

/-- A loss of lock that neither a write nor a relock caused (R235). SSY ends its spread at once. An MSY holds its VCO: its outputs toggle on at the last
frequency, to within ±20 ppm, a free value. What an MSY0 loss does to the audio ports is theirs. -/
def synthLoss (s : State) (m : Nat) : State :=
  if m = 4 then
    indicate (({ s with clk := { s.clk with ssyLock := false, spread := ⟨false, false, 0⟩, spreadPend := none } }.raise CLK.CAUSE 0).emit .time 0x2003
      sevCRITICAL 0 []) 5
  else
    let f := s.takeFree 32
    let e : Int := (f.1 % (2 * ppm20 + 1) : Nat) - (ppm20 : Int)
    let s1 := msyRetime f.2 m (msyTau s m) (some ((if msyFollow s m then (msyOf s m).y else 0) + e, s.now))
    indicate (((setMsy s1 m { msyOf s1 m with lock := false, held := true }).raise CLK.CAUSE (1 + m)).emit .time 0x2002 sevERROR 0 []) 6

/-! ### Spread (R229 to R231) -/

/-- The deepest spread setting that MAX_SPREAD permits: down-spread d, centre spread d ÷ 2 downwards. -/
def spreadOk (mx : Nat) (centre : Bool) (d : Nat) : Bool := if centre then decide (d ≤ 2 * mx) else decide (d ≤ mx)

/-- SSY_CTL as a write leaves it: DEPTH within 1 to 20. -/
def ssyCtlValue (v : Word) : Word :=
  let d := CLK.SSY_CTL_DEPTH.get v
  CLK.SSY_CTL_DEPTH.put v (if d = 0 then 1 else if 20 < d then 20 else d)

/-- A software write of SSY_CTL has been stored (R230, R231). -/
def ssyCtlWritten (s : State) : State :=
  let w := s.rd CLK.SSY_CTL
  let c := CLK.SSY_CTL_CENTRE.get w == 1
  let d := CLK.SSY_CTL_DEPTH.get w
  if CLK.SSY_CTL_SSC_EN.get w = 0 then { s with clk := { s.clk with spreadPend := some ⟨false, false, 0⟩ } }
  else if spreadOk s.clk.maxSpread c d then { s with clk := { s.clk with spreadPend := some ⟨true, c, d⟩ } }
  else (s.raise CLK.CAUSE 5).emit .time 0x2001 sevNOTICE 0 [w.toNat]

/-- The modulation period: 1,536 cycles of OSC_M, which are 31.25 µs (R229). -/
def spreadPeriod : Nat := ns 31250

/-- The triangle of the modulation at elapsed time x of its period, as a fraction of the depth in units of 1 ÷ period: down-spread goes from nominal
to full depth and back; centre spread first rises, then falls (DESIGN CHOICE, log entry 96), half the depth each way. -/
def triangle (centre : Bool) (x : Nat) : Int :=
  let p : Int := spreadPeriod
  let v : Int := x
  if centre then (if 4 * v < p then 2 * v else if 4 * v < 3 * p then p - 2 * v else 2 * v - 2 * p)
  else (if 2 * v < p then -2 * v else 2 * v - 2 * p)

/-- By how much every SSY clock now differs from nominal (R229), as a fraction of 1,000 × the modulation period. -/
def spreadNow (s : State) : Int :=
  if s.clk.spread.en then (s.clk.spread.depth : Int) * triangle s.clk.spread.centre ((s.now - s.clk.spreadFrom) % spreadPeriod) else 0

/-- A new MAX_SPREAD at step 9 of APPLY: a spread in force that it does not permit ends at the end of its period (R231). -/
def setMaxSpread (s : State) (mx : Nat) : State :=
  let p := s.clk.spread
  let s1 := { s with clk := { s.clk with maxSpread := mx } }
  if p.en && !spreadOk mx p.centre p.depth then
    { s1 with clk := { s1.clk with spreadPend := some ⟨false, false, 0⟩ } }.emit .time 0x2001 sevNOTICE 0
      [1 + 2 * b2n p.centre + 4 * p.depth]
  else s1

/-- A modulation period begins, from nominal frequency: a setting that waits takes effect, unless MAX_SPREAD no longer permits it or SSY is not locked
(R230, R231, R235). -/
def spreadStart (s : State) : State :=
  let s1 := { s with clk := { s.clk with spreadFrom := s.now, spreadPend := none } }
  match s.clk.spreadPend with
  | some p =>
    if p.en && !spreadOk s.clk.maxSpread p.centre p.depth then
      (s1.raise CLK.CAUSE 5).emit .time 0x2001 sevNOTICE 0 [1 + 2 * b2n p.centre + 4 * p.depth]
    else if p.en && !s.clk.ssyLock then s
    else { s1 with clk := { s1.clk with spread := p } }
  | none => s1

/-- The row SPREAD_PERIOD_START, which comes no sooner than a period after the last one. -/
def execSpreadPeriodStart (t : Nat) (s : State) : Host.Outcome State Fault Refusal :=
  .next (if (s.at t).blkOn bCLK && decide ((s.at t).clk.spreadFrom + spreadPeriod ≤ (s.at t).now) then spreadStart (s.at t) else s.at t)

/-! ### Clock outputs (R236 to R241) -/

/-- A write of CLKOUT_DIVn as it is stored (R236). -/
def clkoutDivValue (s : State) (n : Nat) (v : Word) : Word :=
  let d := Nat.max 1 (CLK.CLKOUT_DIV_DIV.get v)
  CLK.CLKOUT_DIV_DIV.put v (if outSrc s n < 5 then Nat.max d (cdiv (srcHz s (outSrc s n)) 200000000) else d)

/-- A software write of CLKOUT_CTLn has been stored over `old` (R237): a change of SRC or PHASE forgets the placement by SYNC_IN. A change of PHASE alone
takes effect as one of SRC does (DESIGN CHOICE, log entry 97). -/
def clkoutCtlWritten (s : State) (n : Nat) (old : Word) : State :=
  let w := s.rd (CLK.CLKOUT_CTL n)
  let moved := CLK.CLKOUT_CTL_SRC.get w != CLK.CLKOUT_CTL_SRC.get old || CLK.CLKOUT_CTL_PHASE.get w != CLK.CLKOUT_CTL_PHASE.get old
  let s1 := if moved then setOut s n { outOf s n with placed := none } else s
  if CLK.CLKOUT_CTL_EN.get w ≠ CLK.CLKOUT_CTL_EN.get old then outPlan s1 n false (1000 * 2 ^ 56)
  else if moved then outPlan s1 n true 0 else s1

/-- A write of CLKOUT_DIVn or CLKOUT_DLYn has been stored over `old` (R237). -/
def clkoutSetWritten (s : State) (n a : Nat) (old : Word) : State := if s.rd a = old then s else outPlan s n true 0

/-- SOLO_MAP has been written over `old`: the outputs whose bit changed (R241). -/
def soloMapWritten (s : State) (old : Word) : State :=
  (List.range 16).foldl (fun st n => if outSolo st n != bit (CLK.SOLO_MAP_SOLO.get old) n then outPlan st n false 0 else st) s

/-- The instant t_s + 40 ns + D of an acting SYNC_IN edge in the time of the output's source, realised in whole source cycles and 25 ps steps (R240). -/
def syncTarget (s : State) (n : Nat) : Int :=
  let p := srcTau s (outSrc s n) + ((40 * 2 ^ 56 + outDelay s n : Nat) : Int)
  let c := riseAt 0 1 (srcHz s (outSrc s n)) (lastRise 0 1 (srcHz s (outSrc s n)) p)
  c + (p - c) * 40 / (2 : Int) ^ 56 * (2 : Int) ^ 56 / 40

/-- SYNC_IN places output n (R240): what it carries runs to its last falling edge before the new rising edge; an edge that would come less than a
half-period after it is skipped. -/
def syncPlace (s : State) (n : Nat) : State :=
  let p := syncTarget s n
  let s1 := setOut s n { outNow s n with placed := some p, rephased := (outOf s n).rephased + 1 }
  match (outNow s n).cur with
  | some (.clock src r d _) =>
    if src = outSrc s n then
      (let hz := srcHz s src
       let x := srcTau s src
       let j := nextRise r d hz p - 1
       let stop := if p ≤ r ∨ fallAt r d hz j < x then x else fallAt r d hz j
       setOut s1 n { outOf s1 n with stop := some stop, next := startWave s1 n false (if p ≤ stop + halfOf s n then stop + halfOf s n else p) })
    else outPlan s1 n false 0
  | _ => outPlan s1 n false 0

/-- SYNC_IN rises: masked SYNC outputs are placed (R239, R240). With MODE 1 an output that already has the phase is left unchanged. -/
def syncEdge (s : State) : State :=
  let w := s.rd CLK.SYNC_CTL
  let every := CLK.SYNC_CTL_MODE.get w == 1
  if !(every || CLK.SYNC_CTL_ARM.get w == 1) then s
  else
    let s1 := if every then s else s.hwFld CLK.SYNC_CTL CLK.SYNC_CTL_ARM 0
    let hit := (List.range 16).filter (fun n =>
      bit (CLK.SYNC_CTL_MASK.get w) n && decide (outSrc s n < 5) && srcRuns s (outSrc s n) && outPhase s n == 2 &&
      !(every && (match (outOf s n).placed with | some a => samePhase s n a (syncTarget s n) | none => false)))
    let s2 := hit.foldl syncPlace s1
    if hit = [] then s2 else s2.raise CLK.CAUSE 7

/-- The row FRAME_PULSE: a pulse instant has been reached, and the pulse outputs of the generator rise after their delay. -/
def execFramePulse (t : Nat) (k : Nat) (s : State) : Host.Outcome State Fault Refusal :=
  .next (
    let s0 := s.at t
    if !s0.blkOn bTIME then s0
    else match fpgLast s0 k with
      | some (p, _) =>
        let x := fpgOf s0 k
        if 0 ≤ p ∧ x.last ≠ some p.toNat then pulseOuts (setFpg s0 k { x with pulses := x.pulses + 1, last := some p.toNat }) k p else s0
      | none => s0)

/-- The row SYNC_IN_EDGE: the edge is time-stamped (R200), then acts on the outputs. -/
def execSyncInEdge (t : Nat) (s : State) : Host.Outcome State Fault Refusal :=
  .next (let s1 := pinEdge (s.at t) 3
         if s1.blkOn bCLK then syncEdge s1 else s1)

/-- CLK.STATUS as read. -/
def clkStatusWord (s : State) : Word :=
  let p := s.clk.spread
  BitVec.ofNat 32 (b2n s.clk.ssyLock + 2 * ofBits ((List.range 4).filter (fun m => (msyOf s m).lock)) + 32 * b2n p.en + 64 * b2n (p.en && p.centre) +
    256 * (if p.en then p.depth else 0) + 65536 * ofBits ((List.range 16).filter (fun n => outRunning s n)))

end Sys2Proof.Machine
end

