-- ==== Sys2Proof/Machine/Aport.lean ====
section
/-!
DEFINITION. Audio ports (chapter 11): configuration checks, blocks, clocking modes, faults and re-anchoring, channel status, gains and zero
crossings.
-/
namespace Sys2Proof.Machine

/-! ### Sides (R242, R243) -/

/-- The kind of a side: TDM, AES3 or MADI; and whether it transmits. -/
def isTdm (x : Nat) : Bool := decide (x < 64)
def isAes (x : Nat) : Bool := decide (64 ≤ x) && decide (x < 80)
def isMadi (x : Nat) : Bool := decide (80 ≤ x) && decide (x < 88)
def isTx (x : Nat) : Bool := x % 2 == 0

/-- A side's port is present (R39). -/
def sideHere (s : State) (x : Nat) : Bool :=
  if x < 64 then decide (x / 2 < s.variant.tdm) else if x < 80 then decide ((x - 64) / 2 < s.variant.aes)
  else decide (x < 88) && decide ((x - 80) / 2 < s.variant.madi)

/-- MASTER of a side: on AES3 and MADI sides it is 1 on transmit and 0 on receive. -/
def sideMaster (s : State) (x : Nat) : Bool := if x < 64 then s.flag (APORT.SIDE_CTL x) APORT.SIDE_CTL_MASTER else isTx x

/-- Fields of a side. -/
def sideCtl (s : State) (x : Nat) (f : Fld) : Nat := s.fld (APORT.SIDE_CTL x) f
def sideFmt (s : State) (x : Nat) (f : Fld) : Nat := s.fld (APORT.SIDE_FMT x) f
def sideMode (s : State) (x : Nat) : Nat := sideCtl s x APORT.SIDE_CTL_CLKMODE
def sideB (s : State) (x : Nat) : Nat := s.fld (APORT.SIDE_BLOCK x) APORT.SIDE_BLOCK_FRAMES

/-- The base rate of a side's family. -/
def sideBase (s : State) (x : Nat) : Nat :=
  if sideCtl s x APORT.SIDE_CTL_FAM_ALT = 1 then (if s.family = 0 then 44100 else 48000) else baseRate s

/-- The rate code in force of a side, RATE or the one it has relocked to (R262), and the rate in Hz. -/
def sideRate (s : State) (x : Nat) : Nat := (sideOf s x).took.getD (sideCtl s x APORT.SIDE_CTL_RATE)
def sideHz (s : State) (x : Nat) : Nat := sideBase s x * 2 ^ sideRate s x

/-- Slots of a TDM frame: I2S and left-justified use 2. Slot and data bits. -/
def sideSlots (s : State) (x : Nat) : Nat := if sideFmt s x APORT.SIDE_FMT_FORMAT = 0 then sideFmt s x APORT.SIDE_FMT_SLOTS else 2
def bitsCode (c : Nat) : Nat := if c = 0 then 16 else if c = 1 then 24 else 32
def slotBits (s : State) (x : Nat) : Nat := bitsCode (sideFmt s x APORT.SIDE_FMT_SLOT_BITS)
def dataBits (s : State) (x : Nat) : Nat := bitsCode (sideFmt s x APORT.SIDE_FMT_DATA_BITS)

/-- Channels of a MADI FORMAT, and the rate code it needs (Table 11-12). -/
def madiCh (fmt : Nat) : Nat := if fmt = 0 then 64 else if fmt = 1 then 56 else 32
def madiRate (fmt : Nat) : Nat := if fmt = 2 then 1 else 0

/-- The first channel number of a side (source or destination), and how many numbers it has. -/
def sideChan (x : Nat) : Nat := if x < 64 then 4096 + 32 * (x / 2) else if x < 80 then 5120 + 2 * ((x - 64) / 2) else 5136 + 64 * ((x - 80) / 2)
def sideWidth (x : Nat) : Nat := if x < 64 then 32 else if x < 80 then 2 else 64

/-! ### The configuration check (R245 to R247) -/

/-- The CLKMODE is allowed for the side (Table 11-10). -/
def modeAllowed (s : State) (x : Nat) : Bool :=
  let m := sideMode s x
  if m = 0 ∨ m = 4 then true else if m = 1 then sideMaster s x else if m = 2 ∨ m = 3 then !sideMaster s x else false

/-- The master clock: what CLKSRC (MEDIA, SRC) or the port DCO gives, divided by BDIV, must equal the needed rate exactly; in MEDIA mode the
MSY runs with FOLLOW at 1 in the side's family. -/
def masterClock (s : State) (x need : Nat) : Bool :=
  let d := s.fld (APORT.SIDE_CLK x) APORT.SIDE_CLK_BDIV
  let m := sideCtl s x APORT.SIDE_CTL_CLKSRC
  let f := if sideMode s x = 1 then 4096 * sideBase s x else msyHz s m
  decide (2 ≤ d) && decide (d ≤ 256) && d % 2 == 0 && f == need * d &&
  (sideMode s x != 0 || ((msyOf s m).run && msyFollow s m && (msyOf s m).fam == s.family))

/-- The check of R245, with the modes and formats that the ports support (R246, R247, R270, R272). -/
def sideCfgOk (s : State) (x : Nat) : Bool :=
  let rate := sideCtl s x APORT.SIDE_CTL_RATE
  let fmt := sideFmt s x APORT.SIDE_FMT_FORMAT
  let fs := sideBase s x * 2 ^ rate
  rate != 3 && modeAllowed s x && (sideCtl s x APORT.SIDE_CTL_FAM_ALT == 0 || sideMode s x == 4) &&
  (sideMode s x != 2 || (s.flag APORT.VC_CTL APORT.VC_CTL_EN && s.fld APORT.VC_CTL APORT.VC_CTL_SIDE == x)) &&
  (if isTdm x then
     fmt != 3 && sideFmt s x APORT.SIDE_FMT_SLOT_BITS != 3 && sideFmt s x APORT.SIDE_FMT_DATA_BITS != 3 &&
     decide (dataBits s x ≤ slotBits s x) && decide (sideSlots s x * 2 ^ rate ≤ 32) &&
     decide (fs * sideSlots s x * slotBits s x ≤ 1024 * sideBase s x) &&
     (!sideMaster s x || masterClock s x (fs * sideSlots s x * slotBits s x))
   else if isAes x then !isTx x || masterClock s x (128 * fs)
   else fmt != 3 && rate == madiRate fmt)

/-! ### Masks (R248, R249) -/

/-- The mask bits that count, and the number of active slots. -/
def maskEff (s : State) (x : Nat) (m : Nat) : Nat := m % 2 ^ Nat.min (sideSlots s x) (32 / 2 ^ sideCtl s x APORT.SIDE_CTL_RATE)
def popcount (n v : Nat) : Nat := (bitsOf n v).length

/-- Channels for which the placement sized the side's buffer; a side without a buffer carries none (R120, R122). -/
def sideCap (s : State) (x : Nat) : Nat := s.fld (APORT.SIDE_BLOCK x) APORT.SIDE_BLOCK_CH_CAP

/-- Active channels under a mask: no more than the buffer holds. -/
def sideActive (s : State) (x : Nat) (mask : Nat) : Nat :=
  Nat.min (sideCap s x)
    (if isTdm x then popcount 32 (maskEff s x mask) else if isAes x then 2 else madiCh (sideFmt s x APORT.SIDE_FMT_FORMAT))

/-- MASK as a block that starts now takes it: a write of the same cluster cycle governs the next block (R249). -/
def maskNow (s : State) (x : Nat) : Word :=
  match (sideOf s x).maskOld with
  | some (t, w) => if t = s.now then w else s.rd (APORT.MASK x)
  | none => s.rd (APORT.MASK x)

/-- A MASK write over `old` (R248): refused where it would activate more slots than CH_CAP. -/
def maskWritten (s : State) (x : Nat) (old : Word) : State :=
  let n := popcount 32 (maskEff s x (s.rd (APORT.MASK x)).toNat)
  if sideCap s x < n then
    ((s.wr (APORT.MASK x) old).raise (APORT.SIDE_FAULT x) 7).emit .aport 0x800A sevNOTICE x []
  else
    let v := sideOf s x
    if v.maskOld.map (fun e => e.1) = some s.now then s else setSide s x { v with maskOld := some (s.now, old) }

/-! ### Gains (R257, R258) -/

/-- An output channel's gain. -/
def gainOf (s : State) (x : Nat) : GainS := Tbl.getD s.aport.gains x .init
def setGain (s : State) (x : Nat) (g : GainS) : State := { s with aport := { s.aport with gains := Tbl.put s.aport.gains x g } }

/-- The output group of an output channel (Table 4-10): TDM 1, AES3 and MADI 2. -/
def gainGroup (x : Nat) : Nat := if x < 1024 then 1 else 2

/-- The transmit side of an output channel. -/
def outSide (x : Nat) : Nat := if x < 1024 then 2 * (x / 32) else if x < 1040 then 64 + 2 * ((x - 1024) / 2) else 80 + 2 * ((x - 1040) / 64)

/-- The side exchanges blocks: it is in RUN, and a block has started since its valid FS (R261). -/
def sideLive (s : State) (x : Nat) : Bool := (sideOf s x).st == .run && decide (0 < (sideOf s x).blocks)

/-- The effective gain that channel x is to have for a media instant (R257); a side outside RUN mutes it (R258). -/
def gainWanted (s : State) (x stc : Nat) : Nat :=
  if s.flag (APORT.OUT_GAIN x) APORT.OUT_GAIN_MUTE || groupMuted s (gainGroup x) stc || !outLive s bAPORT stc || !sideLive s (outSide x) then 0
  else s.fld (APORT.OUT_GAIN x) APORT.OUT_GAIN_GAIN

/-- Muted at once: device-wide SAFE under a muting policy, or the block under MUTE (R258, R72). -/
def mutedAtOnce (s : State) : Bool :=
  bit s.host.polMute bAPORT || (s.cmd.mode == .safe && !s.cmd.flowScoped && parityPolicy s bAPORT != 0)

/-- The wanted gain becomes the target: a change back to the value in force ends the pending change; a new change keeps the timer. -/
def gainTarget (s : State) (x want : Nat) : State :=
  let g := gainOf s x
  if want = g.eff then (if g.target.isNone then s else setGain s x { g with target := none })
  else setGain s x { g with target := some want, since := if g.target.isNone then s.now else g.since }

/-- A software write of OUT_GAINx has been stored: the change becomes pending in that cycle. -/
def gainWritten (s : State) (x : Nat) : State := gainTarget s x (gainWanted s x s.time.stc)

/-- A channel is muted at once. -/
def gainZero (s : State) (x : Nat) : State := setGain s x { gainOf s x with eff := 0, target := none }

/-- A signed 32-bit sample times a gain in 2⁻¹⁴, saturated. -/
def applyGain (eff v : Nat) : Nat := lowBits 32 (satS 32 (sgn 32 v * (eff : Int) / 16384))

/-- One sample of an output channel, before gain: a pending change applies at a zero, at a change of sign, or at an invalid sample. -/
def gainCross (s : State) (x : Nat) (p : Smp) : State :=
  let g := gainOf s x
  let neg := decide (2 ^ 31 ≤ p.v % 2 ^ 32)
  let zero := p.v % 2 ^ 32 == 0
  let cross := !p.ok || zero || (g.started && neg != g.prevNeg)
  let g1 := { g with prevNeg := neg, started := true }
  setGain s x (match g.target with
    | some t => if cross then { g1 with eff := t, target := none } else g1
    | none => g1)

/-- One sample of an output channel for a media instant: the gain settles, and the product goes to the formatter. The zero samples of R130 and R132
mute at once, so that what follows them unmutes under R257 (R258). -/
def gainSample (s : State) (x stc : Nat) (p : Smp) : State × Smp :=
  let s1 := if mutedAtOnce s || destDead s (4096 + x) stc then gainZero s x else gainTarget s x (gainWanted s x stc)
  let s2 := gainCross s1 x p
  (s2, { p with v := if p.ok then applyGain (gainOf s2 x).eff p.v else 0 })

/-- The row ZERO_CROSSING_APPLY: sample `smp` of channel x reaches its output. -/
def execZeroCrossingApply (t : Nat) (x : Nat) (smp : Smp) (s : State) : Host.Outcome State Fault Refusal :=
  .next (if (s.at t).blkOn bAPORT then gainCross (s.at t) x smp else s.at t)

/-- The row ZERO_CROSSING_TIMEOUT: TIMEOUT + 1 ms after the change first became pending it applies. -/
def execZeroCrossingTimeout (t : Nat) (x : Nat) (s : State) : Host.Outcome State Fault Refusal :=
  .next (
    let s0 := s.at t
    let g := gainOf s0 x
    match g.target with
    | some v => if g.since + ms (s0.fld APORT.ZC_CTL APORT.ZC_CTL_TIMEOUT + 1) ≤ s0.now then setGain s0 x { g with eff := v, target := none } else s0
    | none => s0)

/-! ### Leaving and entering RUN (R260 to R265) -/

/-- The STC instant from which the sources of a receive side carry frame i of its present block: B + 1 frames after its media time, or on an SRC side
after its start (log entry 31). -/
def rxAt (s : State) (x i : Nat) : Nat :=
  let v := sideOf s x
  let b := Nat.max 1 (sideB s x)
  if sideMode s x = 4 then v.blockAt + mediaAt (sideHz s x) (i + b + 1) else mediaAt (sideHz s x) (v.blockN + i + b + 1)

/-- The sources of a receive side carry zero samples marked invalid from an STC instant on. -/
def sideMuteFrom (s : State) (x stc : Nat) : State :=
  (List.range (sideWidth x)).foldl (fun st c => if (st.way.src.find (sideChan x + c)).isSome then srcPut st (sideChan x + c) stc smpBad else st) s

/-- A transmit side is muted at once (R258, R260). -/
def sideMute (s : State) (x : Nat) : State :=
  (List.range (sideWidth x)).foldl (fun st c => gainZero st (sideChan x - 4096 + c)) (setSide s x { sideOf s x with out := [] })

/-- The channels of a side that stops (R243): its outputs are muted, its sources carry zero samples marked invalid. -/
def sideQuiet (s : State) (x : Nat) : State :=
  let s1 := setSide s x { sideOf s x with blocks := 0, cut := none }
  if isTx x then sideMute s1 x else sideMuteFrom s1 x s1.time.stc

/-- The channels of a side that leaves RUN to re-anchor (R260): transmit data is muted at once; the receive block is filled with zero samples marked
invalid from the present frame on, and the frames before it are delivered at the block's end. -/
def sideBreak (s : State) (x : Nat) : State :=
  if isTx x then sideMute (setSide s x { sideOf s x with blocks := 0 }) x
  else if sideLive s x then
    let v := sideOf s x
    let i := Nat.min (Nat.max 1 (sideB s x)) ((s.now - v.blockFrom) * sideHz s x / secs 1)
    sideMuteFrom (setSide s x { v with blocks := 0, cut := some i }) x (rxAt s x i)
  else setSide s x { sideOf s x with blocks := 0 }

/-- A side changes state. -/
def sideTo (s : State) (x : Nat) (st : SideSt) : State := setSide s x { sideOf s x with st := st }

/-- A saturating half of SIDE_COUNT counts. -/
def sideCount (s : State) (x : Nat) (f : Fld) : State :=
  let n := s.fld (APORT.SIDE_COUNT x) f
  s.setFld (APORT.SIDE_COUNT x) f (if n < 65535 then n + 1 else n)

/-- The steps of R260 for a fault bit, an event and the state that follows. -/
def sideDrop (s : State) (x : Nat) (bitNo : Option Nat) (code sev : Nat) (st : SideSt) : State :=
  let s1 := sideCount (sideBreak s x) x APORT.SIDE_COUNT_SLIPS
  let s2 := match bitNo with | some b => s1.raise (APORT.SIDE_FAULT x) b | none => s1
  sideTo (s2.emit .aport code sev x []) x st

/-- An input loses lock. -/
def inputUnlock (s : State) (x code : Nat) : State :=
  let v := sideOf s x
  if v.locked then (setSide s x { v with locked := false }).emit .aport code sevWARNING x [] else s

/-- An AES3 or MADI input whose clock has stopped or changed its rate must lock again (R262; log entry 30). -/
def sideUnlock (s : State) (x : Nat) : State := if isTx x || isTdm x then s else inputUnlock s x (if isAes x then 0x800C else 0x800E)

/-- The faults of Table 11-11 by number: 0 UNDERRUN, 1 OVERRUN, 2 GLITCH, 3 STOPPED, 4 RATE_CHG. -/
def sideFault (s : State) (x k : Nat) : State :=
  if k < 2 then
    (if sideMode s x = 4 ∨ (sideMode s x = 0 ∧ sideMaster s x = true) then s else sideDrop s x (some k) 0x8001 sevWARNING .anchoring)
  else if k = 2 then sideDrop s x (some 2) 0x8002 sevWARNING .anchoring
  else if k = 3 then (let s1 := sideUnlock (sideDrop s x (some 3) 0x8003 sevWARNING .wait) x
                      setSide s1 x { sideOf s1 x with rateDet := 0 })
  else if k = 4 then sideUnlock (sideDrop s x (some 4) 0x8004 sevNOTICE .locking) x else s

/-- The row PORT_FAULT: kind % 8 is the fault, kind ÷ 8 the rate class measured (as in RATE_DET) where the rate has changed; a rate measured
in LOCKING only shows in RATE_DET, and a clock that stops in LOCKING takes the side back to WAIT. -/
def execPortFault (t : Nat) (side kind : Nat) (s : State) : Host.Outcome State Fault Refusal :=
  .next (
    let s0 := s.at t
    if !(s0.blkOn bAPORT && sideHere s0 side) then s0
    else if (sideOf s0 side).st = .run then
      let s1 := sideFault s0 side (kind % 8)
      if kind % 8 = 4 then setSide s1 side { sideOf s1 side with rateDet := kind / 8 } else s1
    else if (sideOf s0 side).st = .locking ∧ kind % 8 = 4 then setSide s0 side { sideOf s0 side with rateDet := kind / 8 }
    else s0)

/-- A rate class that a side may take (R262). -/
def rateTaken (s : State) (x r : Nat) : Bool :=
  r == sideRate s x + 1 ||
  (sideMode s x == 4 && s.flag (APORT.SIDE_CTL x) APORT.SIDE_CTL_AUTO_RELOCK && decide (1 ≤ r) && decide (r ≤ 3) &&
   bit (sideCtl s x APORT.SIDE_CTL_ALLOWED) (r - 1))

/-- The side is anchored: it returns to RUN, RELOCKED sets and PORT_RELOCKED is recorded (R261). -/
def sideRun (s : State) (x : Nat) : State :=
  ((setSide s x { sideOf s x with st := .run, blocks := 0 }).raise (APORT.SIDE_FAULT x) 5).emit .aport 0x8005 sevNOTICE x []

/-- A valid FS, the last of `run` consecutive frames with one that showed rate class `rate` (coded as in RATE_DET): it anchors a side in ANCHORING, a
master side that holds its clocks only once its hold is over, and the sixteenth one decides about a side in LOCKING (R261, R262, R264). -/
def sideAnchor (s : State) (x run rate : Nat) : State :=
  let v := sideOf s x
  if v.st = .anchoring then (if s.time.stc < v.holdTo then s else sideRun (setSide s x { v with holdTo := 0 }) x)
  else if v.st = .locking ∧ 16 ≤ run ∧ (isTdm x ∨ v.locked = true) then
    let s1 := setSide s x { v with rateDet := rate }
    if rateTaken s x rate then
      sideRun (setSide s1 x { sideOf s1 x with took := if rate = sideCtl s x APORT.SIDE_CTL_RATE + 1 then none else some (rate - 1) }) x
    else (sideTo s1 x .restart).emit .aport 0x8007 sevWARNING x []
  else s

/-- The row PORT_ANCHOR. -/
def execPortAnchor (t : Nat) (side run rate : Nat) (s : State) : Host.Outcome State Fault Refusal :=
  .next (if (s.at t).blkOn bAPORT && sideHere (s.at t) side then sideAnchor (s.at t) side run rate else s.at t)

/-- The row PORT_CLOCK_RETURNS: a side in WAIT enters LOCKING. -/
def execPortClockReturns (t : Nat) (side : Nat) (s : State) : Host.Outcome State Fault Refusal :=
  .next (
    let s0 := s.at t
    if s0.blkOn bAPORT && sideHere s0 side && (sideOf s0 side).st == .wait then
      setSide s0 side { sideOf s0 side with st := .locking, rateDet := 0 }
    else s0)

/-- EN rises, or CFG_ERR is left: ANCHORING for a master side, WAIT for a slave side (R263). -/
def sideStart (s : State) (x : Nat) : State :=
  setSide s x { sideOf s x with st := if sideMaster s x then .anchoring else .wait, rateDet := 0, took := none, holdTo := 0 }

/-- A check that fails (R245). -/
def sideBad (s : State) (x : Nat) : State :=
  (((sideTo (sideQuiet s x) x .cfgErr).raise (APORT.SIDE_FAULT x) 8).emit .aport 0x8008 sevERROR x [])

/-- Re-anchoring under R265, silently where image records change the registers. -/
def sideReconfig (s : State) (x : Nat) (runTime rate : Bool) : State :=
  let s0 := if rate then setSide s x { sideOf s x with took := none } else s
  if !runTime then (if (sideOf s x).st = .run then sideTo (sideBreak s0 x) x .anchoring else s0)
  else if (sideOf s x).st = .run then sideDrop s0 x none 0x8009 sevWARNING .anchoring
  else s0.emit .aport 0x8009 sevWARNING x []

/-- Register `reg` (word offset) of a side has been written over `old`, by software where `runTime` holds (R245, R263, R265). -/
def sideWritten (runTime : Bool) (s : State) (x reg : Nat) (old : Word) : State :=
  let v := sideOf s x
  let en := s.flag (APORT.SIDE_CTL x) APORT.SIDE_CTL_EN
  let rose := reg == 0 && APORT.SIDE_CTL_EN.get old == 0
  let new := s.rd (APORT.SIDE_CTL x + 4 * reg)
  if !en then (if v.st = .off then s else setSide (sideQuiet s x) x { sideOf (sideQuiet s x) x with st := .off })
  else if !sideCfgOk s x then sideBad s x
  else if rose ∨ v.st = .cfgErr ∨ v.st = .off then sideStart s x
  else if ((reg = 0 ∧ APORT.SIDE_CTL_RATE.get old ≠ APORT.SIDE_CTL_RATE.get new) ∨ (reg = 3 ∧ APORT.SIDE_BLOCK_FRAMES.get old ≠ APORT.SIDE_BLOCK_FRAMES.get new) ∨
       (reg = 1 ∧ (APORT.SIDE_FMT_SLOTS.get old ≠ APORT.SIDE_FMT_SLOTS.get new ∨ APORT.SIDE_FMT_SLOT_BITS.get old ≠ APORT.SIDE_FMT_SLOT_BITS.get new ∨
                   APORT.SIDE_FMT_FORMAT.get old ≠ APORT.SIDE_FMT_FORMAT.get new))) then
    sideReconfig s x runTime (reg == 0)
  else s

/-- Side registers as a write leaves them: SLOTS and FRAMES within their ranges, FORMAT of an AES3 side 0 (Tables 11-4, 11-5). -/
def sideValue (x reg : Nat) (v0 : Word) : Word :=
  let v := if reg = 1 ∧ isAes x = true then APORT.SIDE_FMT_FORMAT.put v0 0 else v0
  if reg = 1 then
    (let n := APORT.SIDE_FMT_SLOTS.get v
     APORT.SIDE_FMT_SLOTS.put v (if n = 0 then 1 else if 32 < n then 32 else n))
  else if reg = 3 then
    (let n := APORT.SIDE_BLOCK_FRAMES.get v
     APORT.SIDE_BLOCK_FRAMES.put v (if n = 0 then 1 else if 64 < n then 64 else n))
  else v

/-- A cause outside the port re-anchors a side in RUN (R264). A master side completes its present frame, holds BCLK and FS idle, and restarts at the
first frame start that lies at least one frame later. -/
def sideExt (s : State) (x : Nat) : State :=
  if (sideOf s x).st = .run then
    let s1 := sideDrop s x (some 6) 0x8006 sevWARNING .anchoring
    if sideMaster s x then
      let fs := sideHz s x
      setSide s1 x { sideOf s1 x with holdTo := mediaAt fs (cdiv ((s.time.stc + mediaAt fs 1) * fs) (stcSec 1)) }
    else s1
  else s

/-- A step at once re-anchors every side in RUN that R250 governs. -/
def sidesStep (s : State) : State := s.aport.sides.foldl (fun st e => if sideMode st e.1 = 4 then st else sideExt st e.1) s

/-- A loss of lock of MSY m re-anchors the sides it clocks; MSY0 clocks the cluster, so its loss is a fault of every side (R235). -/
def sidesMsyLoss (s : State) (m : Nat) : State :=
  s.aport.sides.foldl (fun st e =>
    if m = 0 ∨ (sideMaster st e.1 = true ∧ (sideMode st e.1 = 0 ∨ sideMode st e.1 = 4) ∧ isMadi e.1 = false ∧ sideCtl st e.1 APORT.SIDE_CTL_CLKSRC = m) then
      sideExt st e.1 else st) s

/-- The row SYNTH_LOSS_OF_LOCK: synthesiser 0 to 3 is an MSY, 4 is SSY, with the comparisons since the last such row or SYNTH_LOCK (R233, R235). -/
def execSynthLossOfLock (t : Nat) (synth : Nat) (cmp : List (Int × Nat)) (s : State) : Host.Outcome State Fault Refusal :=
  .next (
    let s0 := s.at t
    if !s0.blkOn bCLK then s0
    else
      let s1 := comparisons s0 synth cmp
      if !synthBad s1 synth then s1
      else if synth < 4 then sidesMsyLoss (synthLoss s1 synth) synth else synthLoss s1 synth)

/-- Every present side judged against its registers, after image records or a domain's return set them (R107). -/
def sidesRefresh (s : State) : State :=
  (List.range 88).foldl (fun st x =>
    if sideHere st x && st.flag (APORT.SIDE_CTL x) APORT.SIDE_CTL_EN && (sideOf st x).st == .off then
      (if sideCfgOk st x then sideStart st x else sideBad st x) else st) s

/-! ### Blocks (R249 to R255) -/

/-- A sample cut to the data bits of a slot (R246). -/
def cutBits (n v : Nat) : Nat := v % 2 ^ 32 / 2 ^ (32 - n) * 2 ^ (32 - n)

/-- The family of a side, and the channel-status block in force on AES3 output p for CS_SRC 0, 2 and 3 (R266, R272). -/
def sideFamily (s : State) (x : Nat) : Nat := if sideBase s x = 48000 then 0 else 1
def aesBlock (s : State) (p : Nat) : List Byte :=
  if s.fld (APORT.AES_CS_CTL p) APORT.AES_CS_CTL_CS_SRC = 2 then
    withCrcc ((List.range 6).flatMap (fun i => leBytes 4 (s.rd (APORT.AES_CS_OUT p i)).toNat))
  else csBlock (sideFamily s (64 + 2 * p)) (sideRate s (64 + 2 * p))

/-- The label with which sample n leaves on an AES3 or MADI side (R266, R269). -/
def outLabel (s : State) (x n : Nat) (p : Smp) : Nat :=
  let gen := if isAes x then genLabel (aesBlock s ((x - 64) / 2)) n else genLabel (csBlock (sideFamily s x) (madiRate (sideFmt s x APORT.SIDE_FMT_FORMAT))) n
  let fromSrc := isMadi x || s.fld (APORT.AES_CS_CTL ((x - 64) / 2)) APORT.AES_CS_CTL_CS_SRC == 1
  let lab := if fromSrc then p.lab.getD gen else gen
  let v := !p.ok || (match p.lab with | some l => bit l 0 | none => false)
  setBit lab 0 v

/-- One channel of one transmit frame: the routed sample of index n, through its gain. -/
def outSample (s : State) (x c n : Nat) : State × Smp :=
  let at_ := mediaAt (sideHz s x) n
  gainSample s (sideChan x - 4096 + c) at_ (destAt s (sideChan x + c) at_)

/-- The active channels of one transmit frame after gain. -/
def outFrame (s : State) (x n : Nat) : State × List Smp :=
  (List.range (sideOf s x).actCh).foldl (fun (a : State × List Smp) c =>
    let r := outSample a.1 x c n
    (r.1, a.2 ++ [r.2])) (s, [])

/-- Consecutive transmit frames from sample n. -/
def outFrames (s : State) (x n : Nat) : Nat → State × List (List Smp)
  | 0 => (s, [])
  | k + 1 =>
    let r := outFrame s x n
    let q := outFrames r.1 x (n + 1) k
    (q.1, r.2 :: q.2)

/-- The frame of sample n as the line carries its channels: active slots carry their compacted channels, other slots are driven 0 (R246, R248); AES3
and MADI carry their channels with their labels. -/
def lineFrame (s : State) (x n : Nat) (l : List Smp) : List Smp :=
  let m := maskEff s x (sideOf s x).maskAct
  if isTdm x then
    (List.range (sideSlots s x)).map (fun j =>
      let p := if bit m j then l.getD (popcount j m) smpSilence else smpSilence
      { p with v := cutBits (dataBits s x) p.v, lab := none })
  else l.map (fun p => { p with v := cutBits 24 p.v, lab := some (outLabel s x n p) })

/-- Channel c of a received frame: the slot of compacted channel c in TDM. A frame holds none for an inactive MADI channel, and a sample marked invalid
for an AES3 or MADI subframe that failed its parity check (R267, R269). -/
def inSample (s : State) (x : Nat) (mask : Nat) (f : List (Option Smp)) (c : Nat) : Smp :=
  if isTdm x then
    match (bitsOf 32 (maskEff s x mask))[c]? with
    | some j => let p := (f.getD j none).getD smpSilence
                { p with v := cutBits (dataBits s x) p.v, ok := true, lab := none }
    | none => smpBad
  else
    let p := (f.getD c none).getD smpBad
    if p.ok then { p with v := cutBits 24 p.v } else smpBad

/-- The frames of the present receive block become source values, and its timestamp goes with them (R251); parity failures of AES3 and MADI count. -/
def inBlock (s : State) (x : Nat) (frames : List (List (Option Smp))) : State :=
  let v := sideOf s x
  let s1 := (List.range v.actCh).foldl (fun st c => putStamp st (sideChan x + c) (rxAt s x 0) v.blockAt) s
  (List.range frames.length).foldl (fun st i =>
    let f := frames.getD i []
    let st1 := (List.range v.actCh).foldl (fun st2 c => srcInsert st2 (sideChan x + c) (rxAt s x i) (inSample s x v.maskAct f c)) st
    let bad := (f.take v.actCh).filter (fun q => match q with | some p => !p.ok | none => false)
    if !isTdm x && !bad.isEmpty then
      (bad.foldl (fun st3 _ => sideCount st3 x APORT.SIDE_COUNT_DIG_ERR) st1).raise (APORT.SIDE_FAULT x) 10
    else st1) s1

/-- The frames of a receive block as its end brings them: whole, or up to the frame in which the side left RUN (R260); none of a block that began
before the side was anchored (R261). -/
def rxBlockEnd (s : State) (x : Nat) (frames : List (List (Option Smp))) : State :=
  let v := sideOf s x
  match v.cut with
  | some i => let s1 := inBlock s x (frames.take i)
              setSide s1 x { sideOf s1 x with cut := none }
  | none => if 0 < v.blocks then inBlock s x (frames.take (Nat.max 1 (sideB s x))) else s

/-- MASK_ACT and the active count at a block start (R249); sources that are no longer active carry zero samples marked invalid. -/
def takeMask (s : State) (x : Nat) : State :=
  let v := sideOf s x
  let w := if isTdm x then (maskNow s x).toNat else 0
  let n := sideActive s x w
  let s1 := setSide s x { v with maskAct := w, actCh := n }
  if isTx x then s1
  else ((List.range v.actCh).filter (fun c => decide (n ≤ c))).foldl (fun st c => srcPut st (sideChan x + c) (rxAt s1 x 0) smpBad) s1

/-- The correction of a side: that of its port's DCO in DCO mode, which both sides of the port share (R247), else its own. -/
def corrOf (s : State) (x : Nat) : Int := if sideMode s x = 1 then Tbl.getD s.aport.dco (x / 2) 0 else (sideOf s x).corr
def setCorr (s : State) (x : Nat) (c : Int) : State :=
  if sideMode s x = 1 then { s with aport := { s.aport with dco := Tbl.put s.aport.dco (x / 2) c } } else setSide s x { sideOf s x with corr := c }

/-- The bandwidth step of a side's level loop (R254): LBW, or the largest step of Table 9-10 below it within one twentieth of the block rate. -/
def lbwEff (s : State) (x : Nat) : Nat :=
  ((List.range (s.fld (APORT.LEVEL x) APORT.LEVEL_LBW + 1)).filter (fun b =>
    decide (bwTable.getD b 0 * 20 * Nat.max 1 (sideB s x) ≤ 1000 * sideHz s x))).foldl Nat.max 0

/-- The level loop of a DCO or VCXO side (R254, R255): its arithmetic is not stated, so the step it takes is a free function of the bandwidth, the
level and the correction, held within ±1 ppm; a VCXO side that VC_CTL.SIDE names writes VC_CODE, the correction scaled by KV to half the code range. -/
def levelLoop (s : State) (x : Nat) : State :=
  let m := sideMode s x
  if m = 1 ∨ m = 2 then
    let f := s.takeFree 1
    let corr := clamp 25000 (corrOf s x + clamp 100 (Config.levelStep (lbwEff s x) (sideOf s x).level (corrOf s x) s.free))
    let s1 := setCorr f.2 x corr
    if m = 2 ∧ s.fld APORT.VC_CTL APORT.VC_CTL_SIDE = x then
      let kv : Int := Nat.max 1 (s.fld APORT.VC_CTL APORT.VC_CTL_KV)
      let d := corr * 32768 / (kv * 100)
      let code := 32768 + (if s.flag APORT.VC_CTL APORT.VC_CTL_POL then -d else d)
      s1.hwFld APORT.VC_CODE APORT.VC_CODE_CODE (if code < 0 then 0 else if 65535 < code then 65535 else code.toNat)
    else s1
  else s

/-- The instant whose window gives a frame its sample: its start, less 500 ns on a transmit side (R250). -/
def frameInstant (s : State) (x : Nat) : Nat := if isTx x then s.time.stc - 500 * 2 ^ 56 else s.time.stc

/-- The number n of the window ((n − 1) ÷ fs, n ÷ fs] in which a frame starts now: its sample on a receive side, B more than its sample on a transmit
side (R250). -/
def frameWindow (s : State) (x : Nat) : Nat := cdiv (frameInstant s x * sideHz s x) (stcSec 1)

/-- The level of a frame that starts now: its place in the window from the centre, in 2⁻¹² frame (R252), rounded down. -/
def frameLevel (s : State) (x : Nat) : Int :=
  (2 * (frameInstant s x : Int) * (sideHz s x : Int) - (2 * (frameWindow s x : Int) - 1) * (stcSec 1 : Int)) * 2048 / (stcSec 1 : Int)

/-- A block start of a side in RUN: `frames` are the frames of the receive block that has just ended. -/
def blockBoundary (s : State) (x : Nat) (frames : List (List (Option Smp))) : State :=
  let b := Nat.max 1 (sideB s x)
  let src := sideMode s x == 4
  let n := frameWindow s x
  if !src && n % b != 0 then s
  else
    let s1 := if isTx x then s else rxBlockEnd s x frames
    let s2 := setSide s1 x { sideOf s1 x with blockAt := s.time.stc, blockFrom := s.now, blockN := n, blocks := (sideOf s1 x).blocks + 1
                                              level := if src then (sideOf s1 x).level else frameLevel s x }
    let s4 := levelLoop (takeMask s2 x) x
    if isTx x then
      let r := outFrames s4 x (n - b) b
      let lines := (List.range b).map (fun i => lineFrame r.1 x (n - b + i) (r.2.getD i []))
      digestBuilt (setSide r.1 x { sideOf r.1 x with out := lines })
        ⟨true, x, (n - b) / b, crc32 (bytesOfWords (r.2.flatMap (fun fr => fr.map (fun y => y.v))))⟩
    else s4

/-- The row PORT_BLOCK_BOUNDARY. For a side that has left RUN it brings the frames of the block that this cut short. -/
def execPortBlockBoundary (t : Nat) (side : Nat) (frames : List (List (Option Smp))) (s : State) : Host.Outcome State Fault Refusal :=
  .next (
    let s0 := s.at t
    if !(s0.blkOn bAPORT && sideHere s0 side) then s0
    else if (sideOf s0 side).st = .run then blockBoundary s0 side frames
    else if (sideOf s0 side).cut.isSome then rxBlockEnd s0 side frames else s0)

/-! ### AES3 and MADI inputs (R267, R270) -/

/-- An input locks: a side in WAIT whose clock has thereby returned enters LOCKING. -/
def inputLock (s : State) (x code : Nat) : State :=
  let v := sideOf s x
  if v.locked then s
  else (setSide s x { v with locked := true, st := if v.st = .wait then .locking else v.st }).emit .aport code sevNOTICE x []

/-- The rows AES_LOCK, AES_UNLOCK, MADI_LOCK and MADI_UNLOCK. An AES3 input locks with a frame rate in a rate class of its family (`rate` as in
RATE_DET), a MADI input on frames of its FORMAT. -/
def execAesLock (t : Nat) (p rate : Nat) (s : State) : Host.Outcome State Fault Refusal :=
  .next (
    let s0 := s.at t
    if s0.blkOn bAPORT && decide (p < s0.variant.aes) && decide (1 ≤ rate) && decide (rate ≤ 3) then
      inputLock { s0 with aport := { s0.aport with csValid := setBit s0.aport.csValid p false } } (65 + 2 * p) 0x800B
    else s0)
def execAesUnlock (t : Nat) (p : Nat) (s : State) : Host.Outcome State Fault Refusal :=
  .next (if (s.at t).blkOn bAPORT && decide (p < (s.at t).variant.aes) then inputUnlock (s.at t) (65 + 2 * p) 0x800C else s.at t)
def execMadiLock (t : Nat) (p format : Nat) (s : State) : Host.Outcome State Fault Refusal :=
  .next (if (s.at t).blkOn bAPORT && decide (p < (s.at t).variant.madi) && sideFmt (s.at t) (81 + 2 * p) APORT.SIDE_FMT_FORMAT == format then
      inputLock (s.at t) (81 + 2 * p) 0x800D else s.at t)
def execMadiUnlock (t : Nat) (p : Nat) (s : State) : Host.Outcome State Fault Refusal :=
  .next (if (s.at t).blkOn bAPORT && decide (p < (s.at t).variant.madi) then inputUnlock (s.at t) (81 + 2 * p) 0x800E else s.at t)

/-- The row AES_CS_BLOCK_END: `cs` holds the 24 bytes of subframe 0's block, then those of subframe 1's; consumer formats are accepted (R267, R272). -/
def execAesCsBlockEnd (t : Nat) (p : Nat) (cs : List Byte) (s : State) : Host.Outcome State Fault Refusal :=
  .next (
    let s0 := s.at t
    let x := 65 + 2 * p
    let b0 := cs.take 24
    if !(s0.blkOn bAPORT && decide (p < s0.variant.aes) && (sideOf s0 x).locked) then s0
    else
      let a := s0.aport
      let s1 := { s0 with aport := { a with csDiff := setBit a.csDiff p (b0 != (cs.drop 24).take 24) } }
      if byteAt b0 0 % 2 = 0 ∨ withCrcc b0 = b0 then
        { s1 with aport := { s1.aport with csIn := Tbl.put s1.aport.csIn p b0, csValid := setBit s1.aport.csValid p true
                                           csConsumer := setBit s1.aport.csConsumer p (byteAt b0 0 % 2 == 0) } }
      else (sideCount s1 x APORT.SIDE_COUNT_DIG_ERR).raise (APORT.SIDE_FAULT x) 9)

/-! ### Registers as read -/

/-- State codes of SIDE_STATUS. -/
def sideCode : SideSt → Nat
  | .off => 0 | .cfgErr => 1 | .wait => 2 | .locking => 3 | .anchoring => 4 | .run => 5 | .restart => 6

/-- SIDE_STATUSs, LEVEL_STATs and MASK_ACTs as read. -/
def sideStatusWord (s : State) (x : Nat) : Word :=
  let v := sideOf s x
  BitVec.ofNat 32 (sideCode v.st + 8 * v.rateDet + 64 * b2n v.locked + 256 * v.actCh)
def levelStatWord (s : State) (x : Nat) : Word :=
  BitVec.ofNat 32 (lowBits 16 (satS 16 (sideOf s x).level) + 65536 * lowBits 16 (satS 16 (corrOf s x)))

end Sys2Proof.Machine
end

