-- ==== Sys2Proof/Machine/Operands.lean ====
section
/-!
DEFINITION. The operand forms of a tile bundle (R286 to R290): the four slots, the immediate form, and which registers each
operation writes.
-/
namespace Sys2Proof.Machine

/-- A MAC slot (R287): operation code, SAT, accumulator pair and register pairs. -/
structure MacOp where
  op : Nat
  sat : Bool
  k : Nat
  i : Nat
  j : Nat
deriving DecidableEq, Repr

/-- The LS slot (Table 12-5). -/
inductive LsOp
  | nop
  | ld2 (a b i j : Nat) (mi mj : Bool)
  | st2 (a b i j : Nat) (mi mj : Bool)
  | ldst (a b i j : Nat) (mi mj : Bool)
  | ldd (a i : Nat) (mi : Bool)
  | std (a i : Nat) (mi : Bool)
  | lds (r i : Nat) (inc : Bool)
  | sts (r i : Nat) (inc : Bool)
deriving DecidableEq, Repr

/-- The three-register operations of the CA slot (Table 12-6). -/
inductive Alu
  | add | sub | and | or | xor | min | max | adds | subs | shl | asr | lsr
deriving DecidableEq, Repr

/-- The CA slot (Table 12-6). Offsets and immediates are signed. -/
inductive CaOp
  | nop
  | alu (f : Alu) (d s t : Nat)
  | shli (d s n : Nat)
  | asri (d s n : Nat)
  | addi (d : Nat) (imm : Int)
  | movr (rd rs : Nat)
  | xchg (rd rs : Nat)
  | rnd (d k : Nat) (r sat : Bool) (sh : Nat)
  | accr (d k part : Nat)
  | accw (s k part : Nat)
  | clra (mask : Nat)
  | addp (n : Nat) (imm : Int)
  | br (off : Int)
  | bcond (c s : Nat) (off : Int)
  | call (off : Int)
  | ret
  | rti
  | loop (s len : Nat)
  | loopi (cnt len : Nat)
  | lpop
  | swi
  | done
  | waitx (mask : Nat)
  | ei
  | di
deriving DecidableEq, Repr

/-- A bundle: up to two MAC operations, one LS and one CA operation, or an immediate load beside a CA operation (R286, R290). -/
structure Bundle where
  mac0 : MacOp
  mac1 : MacOp
  ls : LsOp
  ldi : Option (Nat × Nat)      -- register code and value
  ca : CaOp
deriving DecidableEq, Repr

/-- Bits [hi:lo] of a number. -/
def bitsAt (v hi lo : Nat) : Nat := (v >>> lo) % 2 ^ (hi + 1 - lo)

/-- A MAC slot of 13 bits; codes 0x7 to 0xF are illegal (Table 12-4). -/
def macOf (v : Nat) : Option MacOp :=
  if bitsAt v 12 9 ≤ 6 then some ⟨bitsAt v 12 9, bit v 8, bitsAt v 7 6, bitsAt v 5 3, bitsAt v 2 0⟩ else none

/-- The LS slot of 18 bits: illegal codes, a doubleword register that is odd, and fields marked 0 (Table 12-5). -/
def lsOf (v : Nat) : Option LsOp :=
  let a := bitsAt v 13 10
  let b := bitsAt v 9 6
  let op := bitsAt v 17 14
  if op = 0 then some .nop
  else if op = 1 then some (.ld2 a b (bitsAt v 5 4) (bitsAt v 3 2) (bit v 1) (bit v 0))
  else if op = 2 then some (.st2 a b (bitsAt v 5 4) (bitsAt v 3 2) (bit v 1) (bit v 0))
  else if op = 3 then some (.ldst a b (bitsAt v 5 4) (bitsAt v 3 2) (bit v 1) (bit v 0))
  else if op = 4 ∨ op = 5 then
    if a % 2 = 1 ∨ bitsAt v 5 0 ≠ 0 then none
    else if op = 4 then some (.ldd a (bitsAt v 9 7) (bit v 6)) else some (.std a (bitsAt v 9 7) (bit v 6))
  else if op = 6 ∨ op = 7 then
    if bitsAt v 3 0 ≠ 0 then none
    else if op = 6 then some (.lds (bitsAt v 13 8) (bitsAt v 7 5) (bit v 4)) else some (.sts (bitsAt v 13 8) (bitsAt v 7 5) (bit v 4))
  else none

/-- The three-register operation of a code. -/
def aluOf (op : Nat) : Alu :=
  if op = 1 then .add else if op = 2 then .sub else if op = 3 then .and else if op = 4 then .or else if op = 5 then .xor
  else if op = 6 then .min else if op = 7 then .max else if op = 8 then .adds else if op = 9 then .subs else if op = 10 then .shl
  else if op = 11 then .asr else .lsr

/-- The operations without operands, whose field is marked 0. -/
def caPlain (op : Nat) : Option CaOp :=
  if op = 0x00 then some .nop else if op = 0x26 then some .ret else if op = 0x27 then some .rti else if op = 0x2A then some .lpop
  else if op = 0x2B then some .swi else if op = 0x2C then some .done else if op = 0x2E then some .ei else if op = 0x2F then some .di
  else none

/-- The CA slot of 18 bits (Table 12-6). A LOOP of length 0 lies outside the 1 to 255 of the table and is illegal (log entry 34). -/
def caOf (v : Nat) : Option CaOp :=
  let op := bitsAt v 17 12
  let d := bitsAt v 11 8
  let m := bitsAt v 7 4
  let n := bitsAt v 3 0
  if 1 ≤ op ∧ op ≤ 0xC then some (.alu (aluOf op) d m n)
  else if op = 0xD then some (.shli d m n)
  else if op = 0xE then some (.asri d m n)
  else if op = 0xF then some (.addi d (sgn 8 v))
  else if op = 0x10 then some (.movr (bitsAt v 11 6) (bitsAt v 5 0))
  else if op = 0x11 then some (.xchg (bitsAt v 11 6) (bitsAt v 5 0))
  else if op = 0x12 then some (.rnd d (bitsAt v 7 5) (bit v 4) (bit v 3) (bitsAt v 2 0))
  else if op = 0x13 then some (.accr d (bitsAt v 7 5) (bitsAt v 1 0))
  else if op = 0x14 then some (.accw d (bitsAt v 7 5) (bitsAt v 1 0))
  else if op = 0x15 then some (.clra (bitsAt v 7 0))
  else if op = 0x16 then (if bit v 8 then none else some (.addp (bitsAt v 11 9) (sgn 8 v)))
  else if op = 0x20 then some (.br (sgn 12 v))
  else if 0x21 ≤ op ∧ op ≤ 0x24 then some (.bcond (op - 0x21) d (sgn 8 v))
  else if op = 0x25 then some (.call (sgn 12 v))
  else if op = 0x28 then (if bitsAt v 7 0 = 0 then none else some (.loop d (bitsAt v 7 0)))
  else if op = 0x29 then
    some (.loopi (if bitsAt v 11 6 = 0 then 64 else bitsAt v 11 6) (if bitsAt v 5 0 = 0 then 64 else bitsAt v 5 0))
  else if op = 0x2D then some (.waitx n)
  else if bitsAt v 11 0 = 0 then caPlain op
  else none

/-- A bundle of 64 bits; none where its encoding is illegal (R286, R290, R291). -/
def bundleOf (w : Nat) : Option Bundle :=
  let f := bitsAt w 63 62
  if f = 0 then
    match macOf (bitsAt w 61 49), macOf (bitsAt w 48 36), lsOf (bitsAt w 35 18), caOf (bitsAt w 17 0) with
    | some a, some b, some l, some c => some ⟨a, b, l, none, c⟩
    | _, _, _, _ => none
  else if f = 1 ∧ bitsAt w 61 56 = 0 then
    match caOf (bitsAt w 17 0) with
    | some c => some ⟨⟨0, false, 0, 0, 0⟩, ⟨0, false, 0, 0, 0⟩, .nop, some (bitsAt w 55 50, bitsAt w 49 18), c⟩
    | none => none
  else none

/-! ### Registers written (R291) -/

/-- The number under which accumulator k counts among the registers a bundle writes, beside the codes of Table 12-2. -/
def accCode (k : Nat) : Nat := 64 + k

/-- Accumulators a MAC slot writes. -/
def MacOp.writes (m : MacOp) : List Nat := if m.op = 0 then [] else [accCode (2 * m.k), accCode (2 * m.k + 1)]

/-- Registers the LS slot writes: loaded registers and post-modified pointers. -/
def LsOp.writes : LsOp → List Nat
  | .nop => []
  | .ld2 a b i j mi mj => [a, b] ++ (if mi then [16 + i] else []) ++ (if mj then [20 + j] else [])
  | .st2 _ _ i j mi mj => (if mi then [16 + i] else []) ++ (if mj then [20 + j] else [])
  | .ldst a _ i j mi mj => [a] ++ (if mi then [16 + i] else []) ++ (if mj then [20 + j] else [])
  | .ldd a i mi => [a, a + 1] ++ (if mi then [16 + i] else [])
  | .std _ i mi => if mi then [16 + i] else []
  | .lds r i inc => [r] ++ (if inc then [16 + i] else [])
  | .sts _ i inc => if inc then [16 + i] else []

/-- Registers the CA slot writes, at loop depth `dep`. -/
def CaOp.writes (dep : Nat) : CaOp → List Nat
  | .alu _ d _ _ => [d]
  | .shli d _ _ => [d]
  | .asri d _ _ => [d]
  | .addi d _ => [d]
  | .movr rd _ => [rd]
  | .xchg rd rs => if rd = rs then [rd] else [rd, rs]
  | .rnd d _ _ _ _ => [d]
  | .accr d _ _ => [d]
  | .accw _ k _ => [accCode k]
  | .clra m => (bitsOf 8 m).map accCode
  | .addp n _ => [16 + n]
  | .call _ => [60]
  | .loop _ _ => [41, 42 + dep, 46 + dep, 50 + dep]
  | .loopi _ _ => [41, 42 + dep, 46 + dep, 50 + dep]
  | .lpop => [41]
  | .swi => [58]
  | .rti => [40]
  | .ei => [40]
  | .di => [40]
  | _ => []

/-- Whether no number stands twice in a list. -/
def noRepeat : List Nat → Bool
  | [] => true
  | a :: r => !r.contains a && noRepeat r

/-- Two operations of a bundle write one register, or both MAC slots name one accumulator pair. An LDS whose r names its pointer
with INC counts as two writes. -/
def Bundle.clash (b : Bundle) (dep : Nat) : Bool :=
  !noRepeat (b.mac0.writes ++ b.mac1.writes ++ b.ls.writes ++ (match b.ldi with | some x => [x.1] | none => []) ++ b.ca.writes dep)

/-- Operations with two delay slots that may be taken, and those R291 keeps out of delay slots and loop ends. -/
def CaOp.isBranch : CaOp → Bool
  | .br _ => true
  | .bcond _ _ _ => true
  | _ => false
def CaOp.isFlow : CaOp → Bool
  | .br _ => true
  | .bcond _ _ _ => true
  | .call _ => true
  | .ret => true
  | .rti => true
  | .done => true
  | .loop _ _ => true
  | .loopi _ _ => true
  | _ => false

end Sys2Proof.Machine
end

