-- ==== Sys2Proof/Machine/Flags.lean ====
section
/-!
DEFINITION. The arithmetic of a tile and the flags it sets: accumulators with their wrap counts and overflow bits (R293 to R296),
the CA operations on 32-bit words (Table 12-6), and circular addressing (R292).
-/
namespace Sys2Proof.Machine

/-- An accumulator with its wrap count, and whether the operation set AOV and AXOV. -/
structure AccR where
  a : Int
  ax : Int
  aov : Bool
  axov : Bool
deriving DecidableEq, Repr

/-- The extremes of 72 bits. -/
def accMax : Int := (2 : Int) ^ 71 - 1
def accMin : Int := -((2 : Int) ^ 71)

/-- The wrap count after one more wrap in a direction: a wrap that would take it to ±8 leaves it at ±7 and sets AXOV (R294). -/
def axStep (ax d : Int) : Int × Bool :=
  if ax + d ≥ 8 then (7, true) else if ax + d ≤ -8 then (-7, true) else (ax + d, false)

/-- Add to an accumulator with SAT at 0: the sum wraps and AXk counts (R294). -/
def accWrap (a ax x : Int) : AccR :=
  if a + x > accMax then ⟨a + x - (2 : Int) ^ 72, (axStep ax 1).1, true, (axStep ax 1).2⟩
  else if a + x < accMin then ⟨a + x + (2 : Int) ^ 72, (axStep ax (-1)).1, true, (axStep ax (-1)).2⟩
  else ⟨a + x, ax, false, false⟩

/-- Add with SAT at 1: a non-zero AXk first turns Ak into the extreme of its sign, then the result is clamped (R295). -/
def accSat (a ax x : Int) : AccR :=
  let b := if ax > 0 then accMax else if ax < 0 then accMin else a
  if b + x > accMax then ⟨accMax, 0, true, false⟩ else if b + x < accMin then ⟨accMin, 0, true, false⟩ else ⟨b + x, 0, false, false⟩

/-- One half of a MAC operation with product x (Table 12-4): replacing operations set AX to 0. -/
def accOp (op : Nat) (sat : Bool) (a ax x : Int) : AccR :=
  if op = 3 ∨ op = 6 then ⟨x, 0, false, false⟩
  else
    let y := if op = 2 ∨ op = 5 then -x else x
    if sat then accSat a ax y else accWrap a ax y

/-- The value of RND (R296): `even` is TSW.RND. -/
def rndVal (a ax : Int) (r sat even : Bool) (sh : Nat) : Nat :=
  let u : Int := (2 : Int) ^ (31 + sh)
  let h : Int := (2 : Int) ^ (30 + sh)
  let v := if r then (if even && a % u == h && a / u % 2 == 0 then a / u else (a + h) / u) else a / u
  if sat then lowBits 32 (if ax > 0 then (2 : Int) ^ 31 - 1 else if ax < 0 then -((2 : Int) ^ 31) else satS 32 v) else lowBits 32 v

/-- A part of an accumulator as ACCR reads it (R296). -/
def accPart (a ax : Int) (part : Nat) : Nat :=
  let u := lowBits 72 a
  if part = 0 then u % 2 ^ 32 else if part = 1 then u / 2 ^ 32 % 2 ^ 32
  else if part = 2 then lowBits 32 (sgn 8 (u / 2 ^ 64)) else lowBits 32 ax

/-- An accumulator with one part written by ACCW. -/
def accPut (a ax : Int) (part v : Nat) : Int × Int :=
  let u := lowBits 72 a
  if part = 0 then (sgn 72 (u / 2 ^ 32 * 2 ^ 32 + v % 2 ^ 32), ax)
  else if part = 1 then (sgn 72 (u / 2 ^ 64 * 2 ^ 64 + v % 2 ^ 32 * 2 ^ 32 + u % 2 ^ 32), ax)
  else if part = 2 then (sgn 72 (v % 256 * 2 ^ 64 + u % 2 ^ 64), ax)
  else (a, sgn 4 v)

/-- The three-register operations of the CA slot. -/
def aluVal (f : Alu) (x y : Nat) : Nat :=
  match f with
  | .add => (x + y) % 2 ^ 32
  | .sub => lowBits 32 ((x : Int) - (y : Int))
  | .and => x &&& y
  | .or => x ||| y
  | .xor => x ^^^ y
  | .min => if sgn 32 x ≤ sgn 32 y then x else y
  | .max => if sgn 32 x ≤ sgn 32 y then y else x
  | .adds => lowBits 32 (satS 32 (sgn 32 x + sgn 32 y))
  | .subs => lowBits 32 (satS 32 (sgn 32 x - sgn 32 y))
  | .shl => (x <<< (y % 32)) % 2 ^ 32
  | .asr => lowBits 32 (sgn 32 x / (2 : Int) ^ (y % 32))
  | .lsr => x >>> (y % 32)

/-- A branch condition: Ds = 0, ≠ 0, < 0, ≥ 0. -/
def condHolds (c v : Nat) : Bool :=
  if c = 0 then v == 0 else if c = 1 then v != 0 else if c = 2 then decide (sgn 32 v < 0) else decide (0 ≤ sgn 32 v)

/-- The least q with n ≤ 2^q, for n up to 2¹⁸. -/
def ceilLog (n : Nat) : Nat := ((List.range 19).find? (fun q => decide (n ≤ 2 ^ q))).getD 18

/-- Post-modify of a pointer (R292): linear with length 0, otherwise circular. -/
def postMod (p m l : Nat) : Nat :=
  if l = 0 then (p + m) % 2 ^ 18
  else
    let b := p / 2 ^ ceilLog l * 2 ^ ceilLog l
    (b + ((((p - b : Nat) : Int) + sgn 32 m) % (l : Int)).toNat) % 2 ^ 18

end Sys2Proof.Machine
end

