-- ==== Sys2Proof/Machine/Dsp.lean ====
section
/-!
DEFINITION. Tiles and nodes: memory regions (R276, R312), tile faults and what the placement engine does with them (R130 to R132,
R307), release and dispatch (R277 to R280, R310), transfers (R306), and what DSPC shows (R309).
-/
namespace Sys2Proof.Machine

/-! ### Tiles, nodes and regions -/

/-- A tile and a node at run time, and the node's record in the placement in force. -/
def tileOf (s : State) (t : Nat) : TileS := Tbl.getD s.dsp.tiles t .init
def setTile (s : State) (t : Nat) (x : TileS) : State := { s with dsp := { s.dsp with tiles := Tbl.put s.dsp.tiles t x } }
def nodeOf (s : State) (n : Nat) : NodeS := Tbl.getD s.dsp.nodes n .init
def setNode (s : State) (n : Nat) (x : NodeS) : State := { s with dsp := { s.dsp with nodes := Tbl.put s.dsp.nodes n x } }
def nodeP (s : State) (n : Nat) : Option NodeP :=
  match s.place.now with
  | some p => p.nodes.find? (fun q => q.id == n)
  | none => none

/-- The nodes, and the flows, of the placement in force. -/
def placedNodes (s : State) : List NodeP := match s.place.now with | some p => p.nodes | none => []
def placedFlows (s : State) : List FlowP := match s.place.now with | some p => p.flows | none => []

/-- Where a tile's memory lies in the memory window (Table 3-3), and its clock in Hz (R273). -/
def tileBase (t : Nat) : Nat := 0x3000000 + t * 0x40000
def tileHz (m : MemMode) : Nat := match m with | .split => 1000000000 | .unified => 800000000

/-- Where the shared memory of a node lies in the media store (Tables 1-8 and 3-3). -/
def sharedBase (p : NodeP) : Nat := 0x2000000 + p.sharedOff

/-- Round up to 16. -/
def up16 (n : Nat) : Nat := (n + 15) / 16 * 16

/-- Word w of a library kernel's parameter block after byte 64 (Table 12-10). -/
def kernelWord (p : NodeP) (w : Nat) : Nat := leAt p.params (64 + 4 * w) 4

/-- The rate in Hz and the frames per block of an end of a node, and the side whose instants it follows (R314). -/
structure NodeEnd where
  fs : Nat
  frames : Nat
  side : Option Nat
deriving DecidableEq, Repr

/-- The input end (`inp`) or the output end of a node (R314). -/
def nodeEnd (s : State) (p : NodeP) (inp : Bool) : NodeEnd :=
  if p.kernel = 0x0030 ∧ (kernelWord p 1 == 0) = inp then
    ⟨sideHz s (kernelWord p 0), sideB s (kernelWord p 0), some (kernelWord p 0)⟩
  else if p.kernel = 0x0031 ∧ inp = true then ⟨rateHz s (kernelWord p 0 % 4), p.block * 2 ^ (kernelWord p 0 % 4) / p.rate, none⟩
  else ⟨baseRate s * p.rate, p.block, none⟩

/-- Bytes of an input bank and of an output bank (R276). -/
def inBytes (s : State) (p : NodeP) : Nat := 4 * p.nin * (nodeEnd s p true).frames
def outBytes (s : State) (p : NodeP) : Nat := 4 * p.nout * (nodeEnd s p false).frames

/-- The tile addresses of a node's parameter block, X state and Y state (R276). -/
def paramAt (s : State) (p : NodeP) : Nat := (nodeOf s p.id).xbase + 2 * inBytes s p
def xStateAt (s : State) (p : NodeP) : Nat := paramAt s p + up16 p.params.length + 512
def yStateAt (s : State) (p : NodeP) : Nat := (nodeOf s p.id).ybase + 2 * outBytes s p

/-- A range of a tile lies in one region of a node. -/
def inRegions (s : State) (p : NodeP) (a len : Nat) : Bool :=
  let r := nodeOf s p.id
  (decide (r.xbase ≤ a) && decide (a + len ≤ r.xbase + 16 * p.xmem)) || (decide (r.ybase ≤ a) && decide (a + len ≤ r.ybase + 16 * p.ymem)) ||
  (decide (r.pbase ≤ a) && decide (a + len ≤ r.pbase + 16 * p.pmem))

/-- Program memory in bytes of a library kernel's code (Table 12-10). -/
def kernelCode (k : Nat) : Nat :=
  if k = 1 then 6144 else if k = 0x10 ∨ k = 0x11 then 4096 else if k = 0x20 ∨ k = 0x40 then 2048 else 8192

/-- The media sample at the rate of its output end for which invocation k of a node gives its first output (R277). -/
def firstOutput (s : State) (p : NodeP) (k : Nat) : Nat :=
  match (nodeEnd s p false).side with
  | some _ => mediaAt (baseRate s * p.rate) ((k + 2) * p.block) * (nodeEnd s p false).fs / stcSec 1
  | none => (k + 2) * (nodeEnd s p false).frames

/-- n bytes the spec does not state: the code of a library kernel, which comes from the FIRMWARE section (R312; log entry 35). -/
def freeBytes (s : State) : Nat → List Byte × State
  | 0 => ([], s)
  | n + 1 =>
    let r := freeBytes { s with free := s.free + 1 } n
    (BitVec.ofNat 8 (Config.freeValue s.free) :: r.1, r.2)

/-- Clear a range of the memory window. -/
def clearMem (s : State) (a n : Nat) : State := { s with mem := s.mem.filter (fun e => decide (e.1 < a ∨ a + n ≤ e.1)) }

/-- Load a node onto a tile at its bases (R276, R312): program, images and parameter block; the rest of its regions and its shared
memory at zero. -/
def loadNode (s : State) (p : NodeP) (t : Nat) : State :=
  let r := nodeOf s p.id
  let s1 := clearMem (clearMem (clearMem (clearMem s (tileBase t + r.xbase) (16 * p.xmem)) (tileBase t + r.ybase) (16 * p.ymem))
              (tileBase t + r.pbase) (16 * p.pmem)) (sharedBase p) (1024 * p.shared)
  let s2 := s1.setMem (tileBase t + paramAt s p) p.params
  if 0x8000 ≤ p.kernel then
    match (match s.place.now with | some q => q.progs.find? (fun (g : ProgP) => g.prog == p.kernel - 0x8000) | none => none) with
    | some g => ((s2.setMem (tileBase t + r.pbase) g.p).setMem (tileBase t + xStateAt s p) g.x).setMem (tileBase t + yStateAt s p) g.y
    | none => s2
  else
    let f := freeBytes s2 (kernelCode p.kernel)
    f.2.setMem (tileBase t + r.pbase) f.1

/-! ### Load (Table 12-9) -/

/-- Bring the counts of executed cycles up to now: BUSY at the end of a whole second, PEAK at the end of a whole millisecond. -/
def tileRoll (s : State) (t : Nat) : State :=
  let x := tileOf s t
  let f := tileHz x.mode
  let share := x.busyMs * 1000000 / f
  let x1 := if s.stcMsec ≤ x.msAt then x else { x with peak := if x.peak < share then share else x.peak, busyMs := 0, msAt := s.stcMsec }
  let x2 := if s.stcSecs ≤ x.secAt then x1
            else { x1 with load := if s.stcSecs = x.secAt + 1 then x.busy * 1000 / f else 0, busy := 0, secAt := s.stcSecs }
  setTile s t x2

/-- Count cycles of execution. -/
def tileBusy (s : State) (t c : Nat) : State :=
  let s1 := tileRoll s t
  setTile s1 t { tileOf s1 t with busy := (tileOf s1 t).busy + c, busyMs := (tileOf s1 t).busyMs + c }

/-! ### Tile faults (R130 to R132, R307) -/

/-- TILE_FINFO as a word. -/
def finfoWord (f : Nat × Nat × Nat) : Nat := f.1 % 16 + f.2.1 % 1024 * 16 + f.2.2 % 2 ^ 18 * 2 ^ 14

/-- The tile of a node, if the node is placed. -/
def tileOfNode (s : State) (n : Nat) : Option Nat := (nodeP s n).map (fun p => p.tile)

/-- Whether a tile holds a node, and whether a flow starts or ends at a node on it. -/
def holdsNodes (s : State) (t : Nat) : Bool := (placedNodes s).any (fun p => p.tile == t)
def flowTouches (s : State) (t : Nat) (f : FlowP) : Bool :=
  (f.srcKind == 6 && tileOfNode s f.srcIdx == some t) || (f.dstKind == 6 && tileOfNode s f.dstIdx == some t)

/-- A flow as stopped from now on by a fault of a tile, with the samples that it repeats where it is held. -/
def deadFlow (s : State) (t : Nat) (f : FlowP) : DeadF :=
  ⟨f.srcNum, f.dstNum, f.nch, f.holdOnFault, (List.range f.nch).map (fun c => lastValid s (f.srcNum + c) s.time.stc), s.time.stc, none, t⟩

/-- The outputs of a tile's nodes are zeroed or held (Table 5-19): every output channel carries zero marked invalid from now on, and the
flows with HOLD_ON_FAULT repeat their last valid sample (R130). -/
def stopOutputs (s : State) (t : Nat) : State :=
  let gone := ((placedFlows s).filter (flowTouches s t)).map (deadFlow s t)
  let s1 := ((placedNodes s).filter (fun p => p.tile == t)).foldl
    (fun st p => (List.range p.nout).foldl (fun st2 c => srcPut st2 (p.outBase + c) s.time.stc smpBad) st) s
  { s1 with place := { s1.place with dead := s1.place.dead ++ gone } }

/-- The flows whose chain of UPSTREAM reaches a flow of the list, up to the 16 flows of a chain. -/
def chainOf (fs : List FlowP) (hit : List Nat) : Nat → List Nat
  | 0 => hit
  | n + 1 => chainOf fs (hit ++ (fs.filter (fun f => !hit.contains f.id && (match f.upstream with | some u => hit.contains u | none => false))).map (fun f => f.id)) n

/-- No spare is free: affected flows are marked and stopped, and the device enters SAFE with TILE_FAULT (R132). -/
def noSpare (s : State) (t : Nat) : State :=
  let fs := placedFlows s
  let ids := chainOf fs ((fs.filter (flowTouches s t)).map (fun f => f.id)) 16
  let more := fs.filter (fun f => ids.contains f.id && !flowTouches s t f)
  let s1 := { s with place := { s.place with
    now := s.place.now.map (fun p => { p with flows := p.flows.map (fun f => if ids.contains f.id then { f with affected := true } else f) })
    dead := s.place.dead ++ more.map (deadFlow s t), safeTiles := s.place.safeTiles ++ [t] } }
  (safeCause s1 scTILE false).raise PLACE.CAUSE 2

/-- Start moving the nodes of a tile onto the lowest-indexed free spare, or find none (R130, R132). -/
def startReplace (s : State) (t : Nat) : State :=
  match s.place.freeSpares with
  | sp :: r => { s with place := { s.place with replacing := some (t, sp, s.now), freeSpares := r } }
  | [] => noSpare s t

/-- The next waiting tile is moved; without a free spare, R132 applies to every one that waits. -/
def nextWaiting (s : State) : State :=
  match s.place.freeSpares, s.place.waiting with
  | [], l => l.foldl noSpare { s with place := { s.place with waiting := [] } }
  | _ :: _, w :: r => startReplace { s with place := { s.place with waiting := r } } w
  | _ :: _, [] => s

/-- A tile waits for a re-placement: behind the tiles that faulted before this instant, and in tile order among those that faulted at it
(R131). The last one for which no spare will be left finds none. -/
def waitReplace (s : State) (t : Nat) : State :=
  let same := fun (x : Nat) => s.inst.faults.contains x
  let l := s.place.waiting.filter (fun x => !same x) ++ sortNat (t :: s.place.waiting.filter same)
  if l.length ≤ s.place.freeSpares.length then { s with place := { s.place with waiting := l } }
  else noSpare { s with place := { s.place with waiting := l.dropLast } } (l.getLast?.getD t)

/-- TILE_FAULT is recorded, before the records of higher tiles that faulted at this instant. -/
def faultRecord (s : State) (sev t : Nat) : State :=
  let s1 := s.emit .control 0xE003 sev t [finfoWord (tileOf s t).fault]
  let q := s.recorder.evq
  match q.findIdx? (fun e => e.code == 0xE003 && s.inst.faults.contains e.inst && decide (t < e.inst)) with
  | some i => { s1 with recorder := { s1.recorder with evq := q.take i ++ s1.recorder.evq.drop q.length ++ q.drop i } }
  | none => s1

/-- The placement engine takes the fault of a tile (R130 to R132). Faults of one instant count as taken in ascending tile order. -/
def placeFault (s : State) (t : Nat) : State :=
  let now := { s with inst := { s.inst with faults := t :: s.inst.faults } }
  let s1 := now.raise PLACE.TILE_FAULT t
  let idle := fun (st : State) => { faultRecord st sevWARNING t with place := { st.place with freeSpares := st.place.freeSpares.filter (fun x => x != t) } }
  match s.place.replacing with
  | some (f, sp, _) =>
    let first := s.inst.faults.contains f && decide (t < f)
    if sp = t then
      let s2 := faultRecord s1 (if first then sevWARNING else sevERROR) t
      let s3 := startReplace { s2 with place := { s2.place with replacing := none } } f
      if s3.place.replacing.isNone then nextWaiting s3 else s3
    else if holdsNodes s t then
      let s2 := stopOutputs (faultRecord s1 sevERROR t) t
      if first then waitReplace { s2 with place := { s2.place with replacing := some (t, sp, s2.now) } } f else waitReplace s2 t
    else idle s1
  | none => if holdsNodes s t then startReplace (stopOutputs (faultRecord s1 sevERROR t) t) t else idle s1

/-- A bit of DSPC.FAULT (`en` 0) or DSPC.AXOV (`en` 1) sets where CAUSE_EN lets it. -/
def dspcRaise (s : State) (a en n : Nat) : State := if bit (s.rd DSPC.CAUSE_EN).toNat en then s.raise a n else s

/-- A tile stops with a fault: cause (Table 12-8), node and address of the bundle (R307). -/
def tileFault (s : State) (t cause node pc : Nat) : State :=
  if (tileOf s t).st = .run ∨ (tileOf s t).st = .idle then
    let s1 := setTile (tileRoll s t) t { tileOf (tileRoll s t) t with st := .faulted, fault := (cause, node, pc), queue := [], cur := none }
    let s2 := if cause = 1 then s1.setFld (DSPC.TILE_ECC t) DSPC.TILE_ECC_UNCORR
                                  (Nat.min 65535 (s1.fld (DSPC.TILE_ECC t) DSPC.TILE_ECC_UNCORR + 1)) else s1
    let s3 := if cause = 1 then indicate s2 1 else s2
    placeFault (dspcRaise (indicate s3 3) DSPC.FAULT 0 t) t
  else s

/-! ### Release and dispatch (R277 to R280, R310) -/

/-- The blocks of a node that have ended by now: invocation k is released when k + 1 of them have (R277). -/
def nodeBlocks (s : State) (p : NodeP) : Nat := mediaNow s (baseRate s * p.rate) / p.block

/-- A value that no rule states, the i-th of a row taken together. -/
def freeAt (s : State) (i w : Nat) : Nat := Config.freeValue (s.free + i) % 2 ^ w

/-- The registers at the first bundle of invocation k (R280): those the rule does not name are undefined. -/
def entryCtx (s : State) (p : NodeP) (k : Nat) : Ctx :=
  let n := nodeOf s p.id
  { pc := n.pbase, n := 0
    d := [p.block, p.nin, p.nout, k % 2 ^ 32] ++ (List.range 12).map (fun i => freeAt s i 32)
    p := [n.xbase + k % 2 * inBytes s p, paramAt s p, xStateAt s p, freeAt s 12 18, n.ybase + k % 2 * outBytes s p, yStateAt s p,
          freeAt s 13 18, freeAt s 14 18]
    m := List.replicate 8 0, l := List.replicate 8 0
    a := (List.range 8).map (fun i => sgn 72 (freeAt s (16 + i) 72)), ax := (List.range 8).map (fun i => sgn 4 (freeAt s (24 + i) 4))
    tsw := 0, ldepth := 0
    lc := (List.range 4).map (fun i => freeAt s (32 + i) 32), ls := (List.range 4).map (fun i => freeAt s (36 + i) 18)
    le := (List.range 4).map (fun i => freeAt s (40 + i) 18)
    ipc := freeAt s 44 18, itsw := freeAt s 45 32, ivec := freeAt s 46 18, imask := freeAt s 47 6, ipend := 0, isp := freeAt s 48 18
    lr := freeAt s 49 18, cyc := 0, ssel := freeAt s 50 5, timer := 0, pend := [], slot := 0, target := none, ending := false
    macs := [], accs := [], tsws := [], deferred := 0, line := 2 ^ 18, lastPair := false, cached := none, waitx := 0 }

/-- SRC, DST, LEN and DIR of a node's idle transfer channels are undefined at an entry (R280, R305). -/
def entryNode (s : State) (n : NodeS) : NodeS :=
  { n with xsrc := (List.range 4).map (fun i => freeAt s (52 + i) 32), xdst := (List.range 4).map (fun i => freeAt s (56 + i) 32)
           xlen := (List.range 4).map (fun i => freeAt s (60 + i) 32), xdir := (List.range 4).map (fun i => freeAt s (64 + i) 1) }

/-- Whether invocation a goes before b: earlier deadline, then lower NODE_ID (R278). -/
def Inv.before (a b : Inv) : Bool := decide (a.deadline < b.deadline) || (a.deadline == b.deadline && decide (a.node < b.node))

/-- The first of a list of invocations by R278. -/
def firstInv (l : List Inv) : Option Inv :=
  l.foldl (fun acc v => match acc with
    | some b => if v.before b then some v else some b
    | none => some v) none

/-- The innermost active loop level. -/
def Ctx.inner (c : Ctx) : Nat := c.ldepth - 1

/-- The next bundle is one of the last two of the innermost loop body. -/
def Ctx.nearEnd (c : Ctx) : Bool :=
  decide (0 < c.ldepth) && (c.pc == c.le.getD c.inner 0 || c.pc + 8 == c.le.getD c.inner 0) && decide (c.ls.getD c.inner 0 ≤ c.pc)

/-- The boundary before the next bundle permits an interrupt or a preemption (R303). -/
def Ctx.permits (c : Ctx) : Bool := c.slot == 0 && !c.nearEnd && c.waitx == 0

/-- A WAITX in progress: a channel it names is busy. -/
def waiting (c : Ctx) (n : NodeS) : Bool := (bitsOf 4 c.waitx).any (fun ch => (Tbl.find n.xrun ch).isSome)

/-- A WAITX whose channels are all idle is over. -/
def endWait (s : State) (t : Nat) : State :=
  match (tileOf s t).cur with
  | some v =>
    (match v.ctx with
     | some c => if c.waitx != 0 && !waiting c (nodeOf s v.node) then setTile s t { tileOf s t with cur := some { v with ctx := some { c with waitx := 0 } } } else s
     | none => s)
  | none => s

/-- The context of a preempted node goes into its save area, in a layout that R276 and R278 do not state (log entry 98). -/
def saveArea (s : State) (n : Nat) : State :=
  match nodeP s n with
  | some p => (freeBytes s 512).2.setMem (tileBase p.tile + paramAt s p + up16 p.params.length) (freeBytes s 512).1
  | none => s

/-- Give an invocation the tile: at its first bundle the registers take the values of R280. -/
def enter (s : State) (t : Nat) (v : Inv) : State :=
  let x := tileOf s t
  let q := x.queue.filter (fun w => !(w.node == v.node && w.k == v.k))
  match v.ctx with
  | some _ => setTile s t { x with cur := some v, queue := q }
  | none =>
    match nodeP s v.node with
    | some p =>
      let s1 := setTile s t { x with cur := some { v with ctx := some (entryCtx s p v.k) }, queue := q }
      let s2 := setNode s1 v.node (entryNode s (nodeOf s v.node))
      { s2 with free := s.free + 68 }
    | none => setTile s t { x with queue := q }

/-- A released invocation waits whose deadline is earlier than that of the running one. -/
def wantsPreempt (s : State) (t : Nat) : Bool :=
  match (tileOf s t).cur, firstInv (tileOf s t).queue with
  | some c, some q => decide (q.deadline < c.deadline)
  | _, _ => false

/-- The dispatcher (R278): an idle tile takes the first released invocation; one with an earlier deadline preempts the running one at a
boundary that permits it. A preemption empties the loop cache (R301). -/
def dispatch (s0 : State) (t : Nat) : State :=
  let s := endWait s0 t
  match (tileOf s t).cur, firstInv (tileOf s t).queue with
  | none, some q => enter s t q
  | some c, some q =>
    if decide (q.deadline < c.deadline) && (match c.ctx with | some x => x.permits | none => true) then
      let c' := { c with ctx := c.ctx.map (fun x => { x with cached := none, deferred := 0 }) }
      let s1 := saveArea s c.node
      enter (setTile s1 t { tileOf s1 t with cur := none, queue := (tileOf s1 t).queue ++ [c'] }) t q
    else s
  | _, none => s

/-- Control word w of a node as it stood before this instant. -/
def cwBefore (s : State) (n w : Nat) : Word := Tbl.getD s.inst.regs (DSPC.CW n w) (resetWord (DSPC.CW n w))

/-- The copy of R310: control words 0 to 15 go into the first 64 bytes of the node's parameter block. -/
def copyWords (s : State) (p : NodeP) (cw : Nat → Word) : State :=
  let bs := (List.range 16).flatMap (fun w => leBytes 4 (cw w).toNat)
  setNode (s.setMem (tileBase p.tile + paramAt s p) (bs.take (up16 p.params.length))) p.id { nodeOf s p.id with cwPend := false }

/-- The STC instant at which sample f of block k of an end falls; an end at a side counts back from now (R314). -/
def endAt (s : State) (e : NodeEnd) (k f : Nat) : Nat :=
  match e.side with
  | some _ => mediaAt e.fs (mediaNow s e.fs - e.frames + f)
  | none => mediaAt e.fs (k * e.frames + f)

/-- The input bank of block k as the stream engine has written it: invalid samples as zero (R277, R281). -/
def fillInputs (s : State) (p : NodeP) (k : Nat) : State :=
  let e := nodeEnd s p true
  let bs := (List.range p.nin).flatMap (fun c => (List.range e.frames).flatMap (fun f =>
    let x := destAt s (p.inBase + c) (endAt s e k f)
    leBytes 4 (if x.ok then x.v else 0)))
  s.setMem (tileBase p.tile + (nodeOf s p.id).xbase + k % 2 * inBytes s p) bs

/-- The stream engine writes the samples of the block in progress into its input bank as their media times pass (R277); an end at a side brings its
blocks whole. -/
def fillPassed (s : State) (p : NodeP) : State :=
  let e := nodeEnd s p true
  let k := nodeBlocks s p
  if e.side.isSome then s
  else
    (List.range p.nin).foldl (fun st c => ((List.range e.frames).filter (fun f => decide (endAt s e k f ≤ s.time.stc))).foldl (fun st2 f =>
      let x := destAt s (p.inBase + c) (endAt s e k f)
      st2.setMem (tileBase p.tile + (nodeOf s p.id).xbase + k % 2 * inBytes s p + 4 * (c * e.frames + f)) (leBytes 4 (if x.ok then x.v else 0))) st) s

/-- Release the invocation whose block has just ended, once (R277). Its inputs bring the timestamps of the port blocks they come from (R251). -/
def releaseNode (s : State) (p : NodeP) : State :=
  let j := nodeBlocks s p
  let fs := baseRate s * p.rate
  if decide ((nodeOf s p.id).lastK < j) && (tileOf s p.tile).st == .run then
    let k := j - 1
    let s1 := fillInputs s p k
    let s2 := if (nodeOf s1 p.id).cwPend then copyWords s1 p (cwBefore s1 p.id) else s1
    let s3 := setNode s2 p.id { nodeOf s2 p.id with
      lastK := j, stamps := (List.range p.nin).map (fun c => destStamp s2 (p.inBase + c) (endAt s2 (nodeEnd s2 p true) k 0)) }
    let v : Inv := ⟨p.id, k, mediaAt fs (j * p.block), mediaAt fs ((j + 1) * p.block) - 50 * 2 ^ 56, none⟩
    dispatch (setTile s3 p.tile { tileOf s3 p.tile with queue := (tileOf s3 p.tile).queue ++ [v] }) p.tile
  else s

/-- The row NODE_RELEASE. -/
def execNodeRelease (t : Nat) (node : Nat) (s : State) : Host.Outcome State Fault Refusal :=
  .next (match nodeP (s.at t) node with
         | some p => releaseNode (s.at t) p
         | none => s.at t)

/-- The row DEADLINE_MISS: an invocation on the tile has not executed DONE by its deadline (R279). NODE names the one that missed. -/
def deadlineMiss (s : State) (t : Nat) : State :=
  let x := tileOf s t
  let late := fun (v : Inv) => decide (v.deadline ≤ s.time.stc) && !(match v.ctx with | some c => c.ending | none => false)
  let pc := match x.cur with
            | some v => (match v.ctx with | some c => c.pc | none => 0x3FFFF)
            | none => 0x3FFFF
  match firstInv (((match x.cur with | some v => [v] | none => []) ++ x.queue).filter late) with
  | some v => tileFault s t 4 v.node pc
  | none => s
def execDeadlineMiss (t : Nat) (tile : Nat) (s : State) : Host.Outcome State Fault Refusal := .next (deadlineMiss (s.at t) tile)

/-- The row PREEMPTION_DEFER_EXPIRY: a preemption has been deferred for more than 256 cycles (R303). -/
def execPreemptionDeferExpiry (t : Nat) (tile : Nat) (s : State) : Host.Outcome State Fault Refusal :=
  .next (match (tileOf (s.at t) tile).cur with
         | some v => (match v.ctx with
                      | some c => if 256 < c.deferred then tileFault (s.at t) tile 5 v.node c.pc else s.at t
                      | none => s.at t)
         | none => s.at t)

/-! ### Transfers (R306) -/

/-- Replace the context of a node's invocation on a tile, running or waiting. -/
def mapCtx (s : State) (t node : Nat) (f : Ctx → Ctx) : State :=
  let g := fun (v : Inv) => if v.node = node then { v with ctx := v.ctx.map f } else v
  setTile s t { tileOf s t with cur := (tileOf s t).cur.map g, queue := (tileOf s t).queue.map g }

/-- A channel's transfer completes: its data has moved, BUSY clears and its IPEND bit sets. -/
def xferDone (s : State) (t node ch : Nat) : State :=
  match nodeP s node, Tbl.find (nodeOf s node).xrun ch with
  | some p, some (src, dst, len, dir) =>
    if p.tile = t ∧ (tileOf s t).st = .run then
      let s1 := if dir = 0 then s.setMem (tileBase t + dst) (s.memBytes (sharedBase p + src) len)
                else s.setMem (sharedBase p + dst) (s.memBytes (tileBase t + src) len)
      mapCtx (setNode s1 node { nodeOf s1 node with xrun := Tbl.del (nodeOf s1 node).xrun ch }) t node
        (fun c => { c with ipend := setBit c.ipend (2 + ch) true })
    else s
  | _, _ => s

/-- The row TRANSFER_COMPLETE. -/
def execTransferComplete (t : Nat) (tile node ch : Nat) (s : State) : Host.Outcome State Fault Refusal :=
  .next (xferDone (s.at t) tile node ch)

/-! ### Re-placement (R130, R131) -/

/-- PLACE_HASH (R119): tile and mode of each node in ascending NODE_ID order, then the words placement fixed. -/
def placeHash (p : Placed) : Nat :=
  let ids := sortNat (p.nodes.map (fun n => n.id))
  let w := ids.flatMap (fun i => match p.nodes.find? (fun n => n.id == i) with
    | some n => [n.tile, if Tbl.getD p.tileMode n.tile .split = .unified then 1 else 0]
    | none => [])
  crc32 (bytesOfWords (w ++ p.hashTail))

/-- The next block boundary of a node, and the instant of the first output of the invocation released there, as STC instants (R277). -/
def nextRelease (s : State) (p : NodeP) : Nat := mediaAt (baseRate s * p.rate) ((nodeBlocks s p + 1) * p.block)
def nextOutput (s : State) (p : NodeP) : Nat := mediaAt (nodeEnd s p false).fs (firstOutput s p (nodeBlocks s p))

/-- The nodes of tile f are loaded onto the spare: they restart from their images and parameter blocks at their next block boundary,
with the control words copied as at step 9 of APPLY (log entry 36). -/
def moveNodes (s : State) (f sp : Nat) : State :=
  let moved := (placedNodes s).filter (fun p => p.tile == f)
  let mode := (tileOf s f).mode
  let s1 := { s with place := { s.place with now := s.place.now.map (fun p =>
    let q : Placed := { p with nodes := p.nodes.map (fun (n : NodeP) => if n.tile = f then { n with tile := sp } else n)
                               tileMode := Tbl.put p.tileMode sp mode }
    { q with hash := placeHash q }) } }
  let s2 := moved.foldl (fun st p => loadNode st { p with tile := sp } sp) s1
  let s3 := moved.foldl (fun st p => setNode st p.id { nodeOf st p.id with lastK := nodeBlocks st p, cwPend := true, xrun := [] }) s2
  setTile s3 sp { TileS.init with st := .run, mode := mode, secAt := s.stcSecs, msAt := s.stcMsec }

/-- The end of what a fault stopped: a flow to a moved node resumes at the node's next block boundary, and a flow from one with the first
outputs of the invocation released there; of two moved ends, the later counts. -/
def reviveFlows (s : State) (f sp : Nat) : State :=
  let moved := (placedNodes s).filter (fun p => p.tile == sp)
  let till := fun (d : DeadF) => moved.foldl (fun acc p =>
    let a := if p.outBase ≤ d.srcNum ∧ d.srcNum < p.outBase + p.nout then nextOutput s p else 0
    let b := if p.inBase ≤ d.dstNum ∧ d.dstNum < p.inBase + p.nin then nextRelease s p else 0
    Nat.max acc (Nat.max a b)) s.time.stc
  { s with place := { s.place with dead := s.place.dead.map (fun d => if d.tile = f ∧ d.till = none then { d with till := some (till d) } else d) } }

/-- A re-placement ends, and the next waiting one begins (R131). -/
def tileReplaced (s : State) : State :=
  match s.place.replacing with
  | some (f, sp, _) =>
    let s1 := reviveFlows (moveNodes s f sp) f sp
    let s2 := { s1 with place := { s1.place with replacing := none, used := s1.place.used ++ [(sp, f)] } }
    nextWaiting ((s2.raise PLACE.CAUSE 1).emit .control 0xE004 sevWARNING f [])
  | none => s

/-- The row TILE_REPLACED. -/
def execTileReplaced (t : Nat) (s : State) : Host.Outcome State Fault Refusal := .next (tileReplaced (s.at t))

/-! ### DSPC (R309, R310) -/

/-- A write of CW_APPLY: GO for a defined node marks it pending and is taken at once, for any other it is ignored (R310). -/
def cwApply (s : State) (old : Word) : State :=
  let v := s.rd DSPC.CW_APPLY
  let s1 := s.setFld DSPC.CW_APPLY DSPC.CW_APPLY_GO 0
  if DSPC.CW_APPLY_GO.get v = 1 ∧ DSPC.CW_APPLY_GO.get old = 0 ∧ (nodeP s (DSPC.CW_APPLY_NODE.get v)).isSome = true then
    setNode s1 (DSPC.CW_APPLY_NODE.get v) { nodeOf s1 (DSPC.CW_APPLY_NODE.get v) with cwPend := true }
  else s1

/-- CW_APPLY as read. -/
def cwApplyWord (s : State) : Word :=
  DSPC.CW_APPLY_PENDING.put (s.rd DSPC.CW_APPLY) (b2n (nodeOf s (s.fld DSPC.CW_APPLY DSPC.CW_APPLY_NODE)).cwPend)

/-- NODE_XREG, NODE_YREG and NODE_PREG (r 0 to 2) as read: 0 for a node that is not defined. -/
def nodeRegWord (s : State) (r : Nat) : Word :=
  match nodeP s (s.fld DSPC.NODE_SEL DSPC.NODE_SEL_NODE) with
  | some p =>
    let n := nodeOf s p.id
    let (b, z) := if r = 0 then (n.xbase, p.xmem) else if r = 1 then (n.ybase, p.ymem) else (n.pbase, p.pmem)
    BitVec.ofNat 32 (b % 2 ^ 18 + z % 2 ^ 14 * 2 ^ 18)
  | none => 0

/-- TILE_STATUS, TILE_FINFO and TILE_LOAD as read. -/
def tileStatusWord (s : State) (t : Nat) : Word :=
  let x := tileOf s t
  let st := match x.st with | .off => 0 | .idle => 1 | .run => 2 | .faulted => 3
  let sp := match s.place.now with | some p => p.spares.contains t | none => false
  BitVec.ofNat 32 (st + 4 * b2n (x.mode == .unified) + 8 * b2n sp + ((placedNodes s).filter (fun p => p.tile == t)).length % 2048 * 16)
def tileFinfoWord (s : State) (t : Nat) : Word := BitVec.ofNat 32 (finfoWord (tileOf s t).fault)
def tileLoadWord (s : State) (t : Nat) : Word :=
  let x := tileOf (tileRoll s t) t
  BitVec.ofNat 32 (x.load % 1024 + x.peak % 1024 * 2 ^ 16)

/-- A read of TILE_LOAD clears PEAK. -/
def tileLoadRead (s : State) (t : Nat) : State := setTile (tileRoll s t) t { tileOf (tileRoll s t) t with peak := 0 }

end Sys2Proof.Machine
end

