-- ==== Sys2Proof/Machine/Tile.lean ====
section
/-!
DEFINITION. How a tile issues a bundle: fetch (R275), legality (R291), memory operations and stalls (R274), the exposed pipeline
(R297, R298), loops (R299 to R301), interrupts (R302 to R304), service registers (R305) and the end of an invocation (R281).
-/
namespace Sys2Proof.Machine

/-! ### Registers of a context -/

/-- The service register that SSEL selects (R305): in CTL, GO reads 0. -/
def serviceRead (c : Ctx) (n : NodeS) : Nat :=
  let ch := c.ssel / 4
  if c.ssel < 16 then
    if c.ssel % 4 = 0 then n.xsrc.getD ch 0 else if c.ssel % 4 = 1 then n.xdst.getD ch 0 else if c.ssel % 4 = 2 then n.xlen.getD ch 0
    else 2 * n.xdir.getD ch 0 + 4 * b2n (Tbl.find n.xrun ch).isSome
  else if c.ssel = 16 then c.timer else 0

/-- The value of the register of a code (Table 12-2), as of issue. -/
def Ctx.reg (c : Ctx) (n : NodeS) (r : Nat) : Nat :=
  if r < 16 then c.d.getD r 0 else if r < 24 then c.p.getD (r - 16) 0 else if r < 32 then c.m.getD (r - 24) 0
  else if r < 40 then c.l.getD (r - 32) 0 else if r = 40 then c.tsw else if r = 41 then c.ldepth
  else if r < 46 then c.lc.getD (r - 42) 0 else if r < 50 then c.ls.getD (r - 46) 0 else if r < 54 then c.le.getD (r - 50) 0
  else if r = 54 then c.ipc else if r = 55 then c.itsw else if r = 56 then c.ivec else if r = 57 then c.imask
  else if r = 58 then c.ipend else if r = 59 then c.isp else if r = 60 then c.lr else if r = 61 then c.cyc
  else if r = 62 then c.ssel else serviceRead c n

/-- Bits of TSW that exist: IE, RND, AOV, AXOV (Table 12-3). -/
def tswMask (v : Nat) : Nat := v &&& 0x00FFFF03

/-- Codes of writes under way beside those of Table 12-2: a service register, IPEND bits that set, EI and DI. -/
def wService (sel : Nat) : Nat := 64 + sel
def wPend : Nat := 100
def wEI : Nat := 101
def wDI : Nat := 102

/-- The code under which a write of register r is kept: SDATA names the service register selected as of issue (log entry 37). -/
def writeCode (c : Ctx) (r : Nat) : Nat := if r = 63 then wService c.ssel else r

/-- A write to a context register takes effect (R283 to R285). -/
def Ctx.set (c : Ctx) (r v : Nat) : Ctx :=
  if r < 16 then { c with d := setAt c.d r (v % 2 ^ 32) }
  else if r < 24 then { c with p := setAt c.p (r - 16) (v % 2 ^ 18) }
  else if r < 32 then { c with m := setAt c.m (r - 24) (v % 2 ^ 32) }
  else if r < 40 then { c with l := setAt c.l (r - 32) (v % 2 ^ 18) }
  else if r = 40 then { c with tsw := tswMask v }
  else if r = 41 then { c with ldepth := if 4 < v then 4 else v }
  else if r < 46 then { c with lc := setAt c.lc (r - 42) (v % 2 ^ 32) }
  else if r < 50 then { c with ls := setAt c.ls (r - 46) (v % 2 ^ 18) }
  else if r < 54 then { c with le := setAt c.le (r - 50) (v % 2 ^ 18) }
  else if r = 54 then { c with ipc := v % 2 ^ 18 }
  else if r = 55 then { c with itsw := v % 2 ^ 32 }
  else if r = 56 then { c with ivec := v % 2 ^ 18 }
  else if r = 57 then { c with imask := v % 2 ^ 6 }
  else if r = 58 then { c with ipend := c.ipend - (c.ipend &&& (v % 64)) }
  else if r = 59 then { c with isp := v % 2 ^ 18 }
  else if r = 60 then { c with lr := v % 2 ^ 18 }
  else if r = 62 then { c with ssel := v % 2 ^ 5 }
  else if r = 80 then { c with timer := v % 2 ^ 32 }
  else if r = 100 then { c with ipend := (c.ipend ||| v) % 64 }
  else if r = 101 then { c with tsw := setBit c.tsw 0 true }
  else if r = 102 then { c with tsw := setBit c.tsw 0 false }
  else c

/-- A write to SRC, DST, LEN or CTL of a channel takes effect. A CTL write while BUSY is 1 is ignored; one with GO at 1 starts the
transfer, and is refused where a range lies outside the node's regions or outside SHARED (R306). -/
def channelSet (s : State) (p : NodeP) (n : NodeS) (sel v : Nat) : NodeS × Bool :=
  let ch := sel / 4
  if sel % 4 = 0 then ({ n with xsrc := setAt n.xsrc ch (v % 2 ^ 32) }, true)
  else if sel % 4 = 1 then ({ n with xdst := setAt n.xdst ch (v % 2 ^ 32) }, true)
  else if sel % 4 = 2 then ({ n with xlen := setAt n.xlen ch (v % 2 ^ 32) }, true)
  else if (Tbl.find n.xrun ch).isSome then (n, true)
  else
    let dir := v / 2 % 2
    let n1 := { n with xdir := setAt n.xdir ch dir }
    if v % 2 = 1 then
      let src := n.xsrc.getD ch 0
      let dst := n.xdst.getD ch 0
      let len := n.xlen.getD ch 0
      let (ta, off) := if dir = 0 then (dst, src) else (src, dst)
      if inRegions s p ta len && decide (off + len ≤ 1024 * p.shared) then ({ n1 with xrun := Tbl.put n.xrun ch (src, dst, len, dir) }, true)
      else (n1, false)
    else (n1, true)

/-- What a boundary leaves: the context, the node, and the address of a bundle whose GO was refused. -/
structure Land where
  c : Ctx
  n : NodeS
  bad : Option Nat
deriving DecidableEq, Repr

/-- One write takes effect. -/
def landOne (s : State) (p : NodeP) (x : Land) (w : PWrite) : Land :=
  if 64 ≤ w.code ∧ w.code < 80 then
    let r := channelSet s p x.n (w.code - 64) w.value
    { x with n := r.1, bad := if r.2 then x.bad else some (x.bad.getD w.pc) }
  else { x with c := x.c.set w.code w.value }

/-- The writes seen from bundle m on take effect, in the order of issue, so that the later-issued stands (R298); then the overflow bits
that MAC operations set three bundles earlier, which no clearing write of that cycle undoes (R285). -/
def land (s : State) (p : NodeP) (c : Ctx) (n : NodeS) (m : Nat) : Land :=
  let due := c.pend.filter (fun w => decide (w.at_ ≤ m))
  let x := due.foldl (landOne s p) ⟨{ c with pend := c.pend.filter (fun w => decide (m < w.at_)) }, n, none⟩
  let bits := (c.tsws.filter (fun e => decide (e.1 + 3 ≤ m))).foldl (fun acc e => acc ||| e.2) 0
  { x with c := { x.c with tsw := x.c.tsw ||| bits, tsws := x.c.tsws.filter (fun e => decide (m < e.1 + 3))
                           macs := x.c.macs.filter (fun e => decide (m ≤ e.2 + 2)), accs := x.c.accs.filter (fun e => decide (m ≤ e.1 + 2)) } }

/-! ### Memory -/

/-- One memory access of a bundle: tile address, bytes, and whether it stores. -/
structure Acc where
  addr : Nat
  len : Nat
deriving DecidableEq, Repr

/-- The accesses of an LS operation. -/
def LsOp.accs (c : Ctx) : LsOp → List Acc
  | .nop => []
  | .ld2 _ _ i j _ _ => [⟨c.p.getD i 0, 4⟩, ⟨c.p.getD (4 + j) 0, 4⟩]
  | .st2 _ _ i j _ _ => [⟨c.p.getD i 0, 4⟩, ⟨c.p.getD (4 + j) 0, 4⟩]
  | .ldst _ _ i j _ _ => [⟨c.p.getD i 0, 4⟩, ⟨c.p.getD (4 + j) 0, 4⟩]
  | .ldd _ i _ => [⟨c.p.getD i 0, 8⟩]
  | .std _ i _ => [⟨c.p.getD i 0, 8⟩]
  | .lds _ i _ => [⟨c.p.getD i 0, 4⟩]
  | .sts _ i _ => [⟨c.p.getD i 0, 4⟩]

/-- The addresses an LS operation reads. -/
def LsOp.reads (c : Ctx) : LsOp → List Nat
  | .ld2 _ _ i j _ _ => [c.p.getD i 0, c.p.getD (4 + j) 0]
  | .ldst _ _ i _ _ _ => [c.p.getD i 0]
  | .ldd _ i _ => [c.p.getD i 0]
  | .lds _ i _ => [c.p.getD i 0]
  | _ => []

/-- Whether an access is allowed (R274): aligned, inside the node's regions, and in SPLIT mode not in the program range. -/
def accOk (s : State) (p : NodeP) (m : MemMode) (a : Acc) : Bool :=
  a.addr % a.len == 0 && inRegions s p a.addr a.len && !(m == .split && decide (0x20000 ≤ a.addr))

/-- The stall cycle of a pair operation in SPLIT mode whose accesses fall in one array (R274). -/
def pairStall (m : MemMode) (l : List Acc) : Nat :=
  match l with
  | [a, b] => if m == .split && a.addr / 0x10000 == b.addr / 0x10000 then 1 else 0
  | _ => 0

/-- A word of a tile as the program reads it: a word that a transfer under way writes is undefined until it completes (R306). -/
def tileWord (s : State) (t : Nat) (n : NodeS) (a : Nat) : Nat × State :=
  if n.xrun.any (fun e => e.2.2.2.2 == 0 && decide (e.2.2.1 ≤ a) && decide (a < e.2.2.1 + e.2.2.2.1)) then s.takeFree 32
  else (ofLe (s.memBytes (tileBase t + a) 4), s)

/-- Store a 32-bit word. -/
def tileStore (s : State) (t a v : Nat) : State := s.setMem (tileBase t + a) (leBytes 4 v)

/-- The 64 bits at a bundle address. Where no program memory lies at it (beyond 0x2_FFFF; in SPLIT mode below 0x2_0000), what the
tile fetches is undefined; the three low address bits are ignored (log entry 38). -/
def fetchBundle (s : State) (t : Nat) (m : MemMode) (pc : Nat) : Nat × State :=
  if 0x30000 ≤ pc ∨ (m = .split ∧ pc < 0x20000) then s.takeFree 64
  else (ofLe (s.memBytes (tileBase t + pc / 8 * 8) 8), s)

/-- Errors corrected in a tile memory are counted in TILE_ECC.CORR; more than ECC_LIMIT in one second raise ECC_RATE (R308, Table 14-9). -/
def eccCount (s : State) (t n : Nat) : State :=
  if n = 0 then s
  else
    let s1 := s.setFld (DSPC.TILE_ECC t) DSPC.TILE_ECC_CORR (Nat.min 65535 (s.fld (DSPC.TILE_ECC t) DSPC.TILE_ECC_CORR + n))
    let k := (if s1.twin.eccSec = s1.stcSecs then s1.twin.eccN else 0) + n
    let s2 := { s1 with twin := { s1.twin with eccSec := s1.stcSecs, eccN := k } }
    if s2.fld TWIN.TWIN_CTL TWIN.TWIN_CTL_ECC_LIMIT < k then indicate s2 2 else s2

/-! ### Legality (R291) -/

/-- The next bundle is a branch whose delay slots would include the LE of an active level. -/
def leInSlots (c : Ctx) : Bool := (List.range c.ldepth).any (fun i => c.le.getD i 0 == c.pc + 8 || c.le.getD i 0 == c.pc + 16)

/-- A LOOP or LOOPI of length len that the depth or the enclosing level refuses. -/
def loopBad (c : Ctx) (len : Nat) : Bool :=
  c.ldepth == 4 || (decide (0 < c.ldepth) && decide (c.le.getD c.inner 0 ≤ c.pc + 8 * len))

/-- The accumulators an ACCW or CLRA writes. -/
def CaOp.accWrites : CaOp → List Nat
  | .accw _ k _ => [k]
  | .clra m => bitsOf 8 m
  | _ => []

/-- The bundle is illegal where it stands. -/
def illegalHere (c : Ctx) (b : Bundle) : Bool :=
  b.clash c.ldepth || (b.ca.isFlow && (c.slot != 0 || c.nearEnd)) || (b.ca.isBranch && leInSlots c) ||
  (match b.ca with
   | .loop _ len => loopBad c len
   | .loopi _ len => loopBad c len
   | _ => false) ||
  b.ca.accWrites.any (fun k => c.macs.any (fun e => e.1 == k / 2 && decide (c.n ≤ e.2 + 2)))

/-! ### Effects of a legal bundle -/

/-- A write of this bundle, seen from `lat` bundles on. -/
def wr1 (c : Ctx) (lat r v : Nat) : PWrite := ⟨c.n + lat, c.n, writeCode c r, v, c.pc⟩

/-- The latency of MOVR, XCHG and LDI by register code (Table 12-7). -/
def movLat (r : Nat) : Nat := if r < 40 then 1 else 2

/-- The post-modified pointer n. -/
def modWrite (c : Ctx) (n : Nat) (on : Bool) : List PWrite :=
  if on then [wr1 c 1 (16 + n) (postMod (c.p.getD n 0) (c.m.getD n 0) (c.l.getD n 0))] else []

/-- The LS slot: loads reach their registers two bundles on; both sides read before they store. -/
def doLs (s : State) (t : Nat) (c : Ctx) (n : NodeS) (l : LsOp) : List PWrite × State :=
  match l with
  | .nop => ([], s)
  | .ld2 a b i j mi mj =>
    let x := tileWord s t n (c.p.getD i 0)
    let y := tileWord x.2 t n (c.p.getD (4 + j) 0)
    ([wr1 c 2 a x.1, wr1 c 2 b y.1] ++ modWrite c i mi ++ modWrite c (4 + j) mj, y.2)
  | .st2 a b i j mi mj =>
    (modWrite c i mi ++ modWrite c (4 + j) mj,
     tileStore (tileStore s t (c.p.getD i 0) (c.d.getD a 0)) t (c.p.getD (4 + j) 0) (c.d.getD b 0))
  | .ldst a b i j mi mj =>
    let x := tileWord s t n (c.p.getD i 0)
    ([wr1 c 2 a x.1] ++ modWrite c i mi ++ modWrite c (4 + j) mj, tileStore x.2 t (c.p.getD (4 + j) 0) (c.d.getD b 0))
  | .ldd a i mi =>
    let x := tileWord s t n (c.p.getD i 0)
    let y := tileWord x.2 t n (c.p.getD i 0 + 4)
    ([wr1 c 2 a x.1, wr1 c 2 (a + 1) y.1] ++ modWrite c i mi, y.2)
  | .std a i mi =>
    (modWrite c i mi, tileStore (tileStore s t (c.p.getD i 0) (c.d.getD a 0)) t (c.p.getD i 0 + 4) (c.d.getD (a + 1) 0))
  | .lds r i inc =>
    let x := tileWord s t n (c.p.getD i 0)
    ([wr1 c 2 r x.1] ++ (if inc then [wr1 c 1 (16 + i) ((c.p.getD i 0 + 4) % 2 ^ 18)] else []), x.2)
  | .sts r i inc =>
    (if inc then [wr1 c 1 (16 + i) ((c.p.getD i 0 + 4) % 2 ^ 18)] else [], tileStore s t (c.p.getD i 0) (c.reg n r))

/-- One accumulator takes a MAC result: RND and ACCR go on seeing the value from before for three bundles, and AOV and AXOV reach TSW
then (Table 12-7). -/
def macTake (c : Ctx) (k : Nat) (r : AccR) : Ctx :=
  { c with a := setAt c.a k r.a, ax := setAt c.ax k r.ax
           accs := c.accs ++ [(c.n, k, c.a.getD k 0, c.ax.getD k 0)]
           tsws := if r.aov || r.axov then c.tsws ++ [(c.n, b2n r.aov * 2 ^ (8 + k) + b2n r.axov * 2 ^ (16 + k))] else c.tsws }

/-- One MAC slot, its data registers read from the context c0 as it stood before the bundle (Table 12-4). -/
def doMac (c0 c : Ctx) (m : MacOp) : Ctx :=
  if m.op = 0 then c
  else
    let d := fun (r : Nat) => sgn 32 (c0.d.getD r 0)
    let y := if 4 ≤ m.op then d (2 * m.j) else d (2 * m.j + 1)
    let c1 := macTake c (2 * m.k) (accOp m.op m.sat (c.a.getD (2 * m.k) 0) (c.ax.getD (2 * m.k) 0) (d (2 * m.i) * d (2 * m.j)))
    let c2 := macTake c1 (2 * m.k + 1)
      (accOp m.op m.sat (c1.a.getD (2 * m.k + 1) 0) (c1.ax.getD (2 * m.k + 1) 0) (d (2 * m.i + 1) * y))
    { c2 with macs := c2.macs ++ [(m.k, c0.n)] }

/-- Accumulator k as RND and ACCR see it at this bundle: without what MAC operations of the last two bundles wrote. -/
def seenAcc (c : Ctx) (k : Nat) : Int × Int :=
  match c.accs.find? (fun e => e.2.1 == k && decide (c.n ≤ e.1 + 2)) with
  | some e => e.2.2
  | none => (c.a.getD k 0, c.ax.getD k 0)

/-- What the CA slot does: register writes, accumulator writes, a taken branch (its target, none for DONE), the end of the body a LOOP of
count 0 skips, and channels to wait for. -/
structure CaEff where
  w : List PWrite
  acc : List (Nat × Int × Int)
  taken : Bool
  target : Option Nat
  skip : Option Nat
  wait : Nat
deriving DecidableEq, Repr

/-- No effect but the listed writes. -/
def CaEff.only (w : List PWrite) : CaEff := ⟨w, [], false, none, none, 0⟩

/-- A branch to a signed bundle offset. -/
def offTarget (pc : Nat) (off : Int) : Nat := lowBits 18 ((pc : Int) + 8 * off)

/-- LOOP and LOOPI (R300): a new innermost level, or a skipped body. -/
def loopEff (c : Ctx) (cnt len : Nat) : CaEff :=
  if cnt = 0 then ⟨[], [], false, none, some ((c.pc + 8 + 8 * len) % 2 ^ 18), 0⟩
  else .only [wr1 c 1 41 (c.ldepth + 1), wr1 c 1 (42 + c.ldepth) cnt, wr1 c 1 (46 + c.ldepth) (c.pc + 8), wr1 c 1 (50 + c.ldepth) (c.pc + 8 * len)]

/-- The CA slot (Table 12-6). -/
def doCa (c : Ctx) (n : NodeS) (o : CaOp) : CaEff :=
  let d := fun (r : Nat) => c.d.getD r 0
  match o with
  | .nop => .only []
  | .alu f r x y => .only [wr1 c 1 r (aluVal f (d x) (d y))]
  | .shli r x k => .only [wr1 c 1 r (aluVal .shl (d x) 0 * 2 ^ (k + 1))]
  | .asri r x k => .only [wr1 c 1 r (lowBits 32 (sgn 32 (d x) / (2 : Int) ^ (k + 1)))]
  | .addi r i => .only [wr1 c 1 r (lowBits 32 ((d r : Int) + i))]
  | .movr rd rs => .only [wr1 c (movLat rd) rd (c.reg n rs)]
  | .xchg rd rs => .only [wr1 c (movLat rd) rd (c.reg n rs), wr1 c (movLat rs) rs (c.reg n rd)]
  | .rnd r k rr ss sh => .only [wr1 c 1 r (rndVal (seenAcc c k).1 (seenAcc c k).2 rr ss (bit c.tsw 1) sh)]
  | .accr r k part => .only [wr1 c 1 r (accPart (seenAcc c k).1 (seenAcc c k).2 part)]
  | .accw r k part => ⟨[], [(k, accPut (c.a.getD k 0) (c.ax.getD k 0) part (d r))], false, none, none, 0⟩
  | .clra m => ⟨[], (bitsOf 8 m).map (fun k => (k, 0, 0)), false, none, none, 0⟩
  | .addp k i => .only [wr1 c 1 (16 + k) (lowBits 18 ((c.p.getD k 0 : Int) + 4 * i))]
  | .br off => ⟨[], [], true, some (offTarget c.pc off), none, 0⟩
  | .bcond k x off => if condHolds k (d x) then ⟨[], [], true, some (offTarget c.pc off), none, 0⟩ else .only []
  | .call off => ⟨[wr1 c 1 60 (c.pc + 24)], [], true, some (offTarget c.pc off), none, 0⟩
  | .ret => ⟨[], [], true, some c.lr, none, 0⟩
  | .rti => ⟨[wr1 c 3 40 c.itsw], [], true, some c.ipc, none, 0⟩
  | .loop x len => loopEff c (d x) len
  | .loopi cnt len => loopEff c cnt len
  | .lpop => .only (if c.ldepth = 0 then [] else [wr1 c 1 41 (c.ldepth - 1)])
  | .swi => .only [⟨c.n + 1, c.n, wPend, 1, c.pc⟩]
  | .done => ⟨[], [], true, none, none, 0⟩
  | .waitx m => ⟨[], [], false, none, none, m⟩
  | .ei => .only [⟨c.n + 2, c.n, wEI, 0, c.pc⟩]
  | .di => .only [⟨c.n + 2, c.n, wDI, 0, c.pc⟩]

/-- Accumulators written by ACCW and CLRA, seen from the next bundle on. -/
def takeAcc (c : Ctx) (l : List (Nat × Int × Int)) : Ctx :=
  l.foldl (fun x e => { x with a := setAt x.a e.1 e.2.1, ax := setAt x.ax e.1 e.2.2 }) c

/-! ### Instruction flow -/

/-- The next bundle is the LE of the innermost active level. -/
def Ctx.atEnd (c : Ctx) : Bool := decide (0 < c.ldepth) && c.pc == c.le.getD c.inner 0

/-- The next bundle issues from the loop cache (R301). -/
def fromCache (c : Ctx) : Bool :=
  decide (0 < c.ldepth) && c.cached == some (c.ls.getD c.inner 0) && decide (c.ls.getD c.inner 0 ≤ c.pc) && decide (c.pc ≤ c.le.getD c.inner 0)

/-- The stall of R275 in UNIFIED mode: a bundle from outside the loop cache that begins a new line after one that used both data
slots. -/
def fetchStall (m : MemMode) (c : Ctx) : Nat :=
  if m == .unified && !fromCache c && c.pc / 32 != c.line && c.lastPair then 1 else 0

/-- Where the loop level of the bundle at LE goes, with the write to its registers (R300). -/
def loopBack (c : Ctx) : Option Nat × List PWrite :=
  if c.atEnd then
    if 1 < c.lc.getD c.inner 0 then (some (c.ls.getD c.inner 0), [wr1 c 1 (42 + c.inner) (c.lc.getD c.inner 0 - 1)])
    else (none, [wr1 c 1 41 c.inner])
  else (none, [])

/-- The loop cache after this bundle: a body of at most 32 bundles is captured in its first pass; a branch out of the body and the end
of the level empty it. -/
def cacheNext (c : Ctx) (e : CaEff) : Option Nat :=
  let ls := c.ls.getD c.inner 0
  let le := c.le.getD c.inner 0
  if c.atEnd then (if (loopBack c).1.isSome && decide (le + 8 - ls ≤ 256) then some ls else none)
  else if e.taken && (match e.target with | some x => decide (x < ls) || decide (le < x) | none => true) then none
  else match e.w.find? (fun w => w.code == 41) with
    | some _ => none
    | none => c.cached

/-- Where the bundle after this one is, the delay slots left and the target they lead to. -/
def flowNext (c : Ctx) (e : CaEff) : Nat × Nat × Option Nat :=
  let seq := match (loopBack c).1, e.skip with
    | some x, _ => x
    | none, some x => x
    | none, none => (c.pc + 8) % 2 ^ 18
  if c.slot = 2 then (seq, 1, c.target)
  else if c.slot = 1 then (c.target.getD seq, 0, none)
  else if e.taken then (seq, 2, e.target) else (seq, 0, none)

/-- TIMER after some cycles, and whether it reached 0 from 1 (R305). -/
def timerRun (v cyc : Nat) : Nat × Bool := (v - cyc, decide (0 < v) && decide (v ≤ cyc))

/-- Count cycles on a context: CYC, TIMER and its interrupt. -/
def Ctx.spend (c : Ctx) (cyc : Nat) : Ctx :=
  { c with cyc := (c.cyc + cyc) % 2 ^ 32, timer := (timerRun c.timer cyc).1
           ipend := if (timerRun c.timer cyc).2 then setBit c.ipend 1 true else c.ipend }

/-! ### The end of an invocation (R281) -/

/-- The label of an output sample: only DELAY passes labels, those of the delayed input sample (R313). -/
def delayLabel (s : State) (p : NodeP) (c n : Nat) : Option Nat :=
  if p.kernel = 0x0020 then
    let d := Nat.min (leAt (s.memBytes (tileBase p.tile + paramAt s p + 4 * (c % 16)) 4) 0 4) (kernelWord p 0)
    (destAt s (p.inBase + c) (mediaAt (baseRate s * p.rate) (n - d))).lab
  else none

/-- The output bank of invocation k becomes the values of the node's source channels: sample kB + j for media sample (k + 2)B + j
(R277). -/
def putOutputs (s : State) (p : NodeP) (k : Nat) : State :=
  let e := nodeEnd s p false
  let bank := tileBase p.tile + (nodeOf s p.id).ybase + k % 2 * outBytes s p
  let n0 := firstOutput s p k
  (List.range p.nout).foldl (fun st c => (List.range e.frames).foldl (fun st2 j =>
    srcPut st2 (p.outBase + c) (mediaAt e.fs (n0 + j))
      ⟨ofLe (s.memBytes (bank + 4 * (c * e.frames + j)) 4), true, delayLabel s p c (k * e.frames + j)⟩) st) s

/-- An invocation ends: what it still had under way lands, AXOV is reported, its outputs stand and the dispatcher goes on. -/
def endInv (s : State) (t : Nat) (v : Inv) (p : NodeP) (c : Ctx) : State :=
  let x := land s p c (nodeOf s v.node) (c.n + 3)
  let ov := c.tsw / 2 ^ 16 % 256
  let s1 := setTile (setNode s v.node x.n) t { tileOf s t with cur := none }
  let s2 := putOutputs s1 p v.k
  let s3 := if ov = 0 then s2 else (dspcRaise s2 DSPC.AXOV 1 t).emit (.tile t) 0x9001 sevWARNING t [v.node, ov]
  match x.bad with
  | some pc => tileFault s3 t 6 v.node pc
  | none => dispatch s3 t

/-! ### Interrupts (R302, R303) -/

/-- The interrupt that is taken at the next boundary: pending, enabled, lowest-numbered, where the boundary permits. -/
def Ctx.takes (c : Ctx) : Option Nat :=
  if bit c.tsw 0 && c.permits then (bitsOf 6 (c.ipend &&& c.imask)).head? else none

/-- Entry into the handler: 3 cycles, IPC, ITSW, IE and the bit taken; the loop cache is emptied (R301, R302). -/
def Ctx.enterHandler (c : Ctx) (b : Nat) : Ctx :=
  let c1 := { c with ipc := c.pc, itsw := c.tsw, tsw := setBit c.tsw 0 false, ipend := setBit c.ipend b false, pc := c.ivec, cached := none }
  c1.spend 3

/-- The running invocation of a tile takes its due interrupt. -/
def takeInterrupt (s : State) (t : Nat) : State :=
  match (tileOf s t).cur with
  | some v =>
    match v.ctx with
    | some c =>
      match c.takes with
      | some b => tileBusy (setTile s t { tileOf s t with cur := some { v with ctx := some (c.enterHandler b) } }) t 3
      | none => s
    | none => s
  | none => s

/-- The row PROGRAM_INTERRUPT. -/
def execProgramInterrupt (t : Nat) (tile : Nat) (s : State) : Host.Outcome State Fault Refusal :=
  .next (if (tileOf (s.at t) tile).st = .run then takeInterrupt (dispatch (s.at t) tile) tile else s.at t)

/-- The row TILE_TIMER_EXPIRY: a cycle of the running invocation in which TIMER reaches 0 from 1 and no bundle issues. -/
def execTileTimerExpiry (t : Nat) (tile : Nat) (s : State) : Host.Outcome State Fault Refusal :=
  let s0 := s.at t
  .next (match (tileOf s0 tile).cur with
         | some v =>
           (match v.ctx with
            | some c => if c.timer = 1 then tileBusy (setTile s0 tile { tileOf s0 tile with cur := some { v with ctx := some (c.spend 1) } }) tile 1
                        else s0
            | none => s0)
         | none => s0)

/-! ### Issue (R286) -/

/-- The lowest fault cause that the bundle meets (R307); `bad` tells that a word it reads has an uncorrectable error. -/
def bundleFault (s : State) (p : NodeP) (m : MemMode) (bad : Bool) (c : Ctx) (ob : Option Bundle) : Option Nat :=
  if bad then some 1
  else match ob with
    | none => some 2
    | some b => if illegalHere c b then some 2
                else if (b.ls.accs c).all (accOk s p m) then none else some 3

/-- The bundle takes effect. -/
def runBundle (s : State) (t : Nat) (v : Inv) (p : NodeP) (m : MemMode) (c : Ctx) (b : Bundle) : State :=
  let n := nodeOf s v.node
  let ls := doLs s t c n b.ls
  let ca := doCa c n b.ca
  let imm := match b.ldi with | some x => [wr1 c (movLat x.1) x.1 x.2] | none => []
  let cyc := 1 + fetchStall m c + pairStall m (b.ls.accs c) + (if ca.skip.isSome then 2 else 0)
  let nx := flowNext c ca
  let c1 := takeAcc (doMac c (doMac c c b.mac0) b.mac1) ca.acc
  let c2 := { c1 with pend := c.pend ++ ls.1 ++ imm ++ ca.w ++ (loopBack c).2
                      pc := nx.1, slot := nx.2.1, target := nx.2.2, n := c.n + 1, cached := cacheNext c ca
                      line := if fromCache c then c.line else c.pc / 32, lastPair := (b.ls.accs c).length == 2
                      waitx := ca.wait, ending := (c.ending || (ca.taken && ca.target.isNone)) }
  let c3 := { c2 with cyc := (c2.cyc + cyc) % 2 ^ 32, timer := (timerRun c2.timer cyc).1 }
  let x := land ls.2 p c3 n (c.n + 1)
  let c4 := if (timerRun c.timer cyc).2 then { x.c with ipend := setBit x.c.ipend 1 true } else x.c
  let s1 := tileBusy (setNode ls.2 v.node x.n) t cyc
  match x.bad with
  | some pc => tileFault s1 t 6 v.node pc
  | none =>
    if c.slot = 1 ∧ c.ending = true then endInv s1 t v p c4
    else
      let wants := wantsPreempt s1 t && !c4.permits
      let s2 := setTile s1 t { tileOf s1 t with cur := some { v with ctx := some { c4 with deferred := if wants then c4.deferred + cyc else 0 } } }
      s2

/-- The running invocation of a tile issues its next bundle, or spends a cycle of a WAITX. -/
def issue (s' : State) (t : Nat) (bad : Bool) : State :=
  let s := match (tileOf s' t).cur.bind (fun v => nodeP s' v.node) with | some p => fillPassed s' p | none => s'
  match (tileOf s t).cur with
  | some v =>
    match v.ctx, nodeP s v.node with
    | some c, some p =>
      let m := (tileOf s t).mode
      if waiting c (nodeOf s v.node) then
        tileBusy (setTile s t { tileOf s t with cur := some { v with ctx := some { c.spend 1 with
          deferred := if wantsPreempt s t then c.deferred + 1 else 0 } } }) t 1
      else
        let f := fetchBundle s t m c.pc
        let ob := bundleOf f.1
        let c' := { c with waitx := 0 }
        match bundleFault f.2 p m bad c' ob with
        | some cause => tileFault f.2 t cause v.node c.pc
        | none => match ob with
          | some b => runBundle f.2 t v p m c' b
          | none => f.2
    | _, _ => s
  | none => s

/-- The row BUNDLE_ISSUE: at the boundary a preemption and a due interrupt come first, then one bundle issues. `corr` single-bit
errors are corrected in the words it reads, and `uncorr` tells of an uncorrectable one. -/
def execBundleIssue (t : Nat) (tile corr : Nat) (uncorr : Bool) (s : State) : Host.Outcome State Fault Refusal :=
  .next (if (tileOf (s.at t) tile).st = .run then issue (takeInterrupt (dispatch (eccCount (s.at t) tile corr) tile) tile) tile uncorr else s.at t)

end Sys2Proof.Machine
end

