-- ==== Sys2Proof/Machine/Dma.lean ====
section
/-!
DEFINITION. The PCIe function's rings (chapter 13): enabling and posting (R318), audio block rings (R321 to R324), frame rings (R325 to
R327), failed reads (R320), MSI-X (R330, R331) and loss of the host path (R332).
-/
namespace Sys2Proof.Machine

/-! ### Rings -/

/-- The definition of an audio block ring by the placement in force (R321). -/
def ringDef (s : State) (r : Nat) : Option RingP :=
  match s.place.now with
  | some p => p.rings.find? (fun x => x.ring == r)
  | none => none

/-- Block length of an audio block ring (Table 13-2). -/
def ringB (r : Nat) : Nat := 2 ^ (r / 16 + 1)

/-- Whether a ring is an audio block ring, a frame receive ring, a frame transmit ring, a command or event ring. -/
def isAudioRing (r : Nat) : Bool := decide (r < 96)
def isRxRing (r : Nat) : Bool := decide (96 ≤ r) && decide (r < 160)
def isTxRing (r : Nat) : Bool := decide (160 ≤ r) && decide (r < 224)

/-- The ring may read and write host memory. -/
def ringLive (s : State) (r : Nat) : Bool := ringEn s r && s.dma.bme && !s.dma.d3 && s.dma.linkUp && s.blkOn bDMA

/-- Rings that take turns in ascending order: the first behind the one that was last served. -/
def nextTurn (last : Nat) (rs : List Nat) : Option Nat :=
  let low := fun (l : List Nat) => l.foldl (fun acc r => match acc with | some m => some (Nat.min m r) | none => some r) none
  match low (rs.filter (fun r => decide (last < r))) with
  | some r => some r
  | none => low rs

/-- The ring has no work in progress: no item with reads outstanding, and no frame of it on a transmit queue or on the line. -/
def ringIdle (s : State) (r : Nat) : Bool :=
  (s.ring r).items.isEmpty &&
  !(isTxRing r && (List.range 3).any (fun p =>
      ((s.mac p).cur.toList ++ (s.mac p).queues.flatMap (fun e => e.2)).any (fun f => match f.src with
        | .ring n _ _ g _ _ => n == r - 160 && g == (s.ring r).gen
        | _ => false)))

/-- RING_CTL.STOPPED. -/
def ringStopped (s : State) (r : Nat) : Bool := !ringEn s r && ringIdle s r

/-- Count on a ring. -/
def ringCtr (s : State) (r pos n : Nat) : State := { s with dma := { s.dma with ctr := ctrAdd s.dma.ctr (4 * r + pos) n } }

/-- From now on the channels of an injection ring carry zero samples marked invalid (R321). -/
def ringSilence (s : State) (r : Nat) : State :=
  match ringDef s r with
  | some d => if d.extract then s else (List.range d.nch).foldl (fun st c => srcPut st (d.base + c) s.time.stc smpBad) s
  | none => s

/-- The block index whose interval began at or before an STC instant. -/
def blockIdx (s : State) (r : Nat) (d : RingP) (stc : Nat) : Nat := stc * rateHz s d.rate / stcSec 1 / ringB r

/-- EN rises (R318): HEAD and TAIL are 0, but for a TAIL write of the same cycle, ERR is clear, and nothing fetched before can complete into the ring. The first audio block is one
whose instant lies ahead. -/
def ringStart (s : State) (r : Nat) : State :=
  let s1 := (s.setFld (DMA.RING_HEAD r) DMA.RING_HEAD_HEAD 0).hwFld (DMA.RING_TAIL r) DMA.RING_TAIL_TAIL 0
  let s2 := s1.setFld (DMA.RING_CTL r) DMA.RING_CTL_ERR 0
  let last := match ringDef s r with
    | some d => if d.extract then blockIdx s r d (s.time.stc - 104 * 2 ^ 56) else blockIdx s r d s.time.stc + 1
    | none => 0
  s2.setRing r { RingS.init with gen := (s.ring r).gen + 1, lastK := last }

/-- EN falls (R318): items in progress are finished. -/
def ringFall (s : State) (r : Nat) : State := ringSilence (s.setFld (DMA.RING_CTL r) DMA.RING_CTL_EN 0) r

/-- A ring stops without a further write (R332), unless software writes EN in the same cycle (Table 3-8). -/
def ringHalt (s : State) (r : Nat) : State :=
  if s.wroteNow (DMA.RING_CTL r) DMA.RING_CTL_EN then s else
  let s1 := ringFall s r
  s1.setRing r { RingS.init with gen := (s1.ring r).gen + 1 }

/-- A software write of RING_CTL: `v` is the value as written over the old one. On an audio ring that is not defined it is ignored. -/
def ringCtlWritten (s : State) (r : Nat) (old : Word) : State :=
  let was := DMA.RING_CTL_EN.get old = 1
  if isAudioRing r = true ∧ (ringDef s r).isNone = true then s.setFld (DMA.RING_CTL r) DMA.RING_CTL_EN 0
  else if ringEn s r = true ∧ ¬was then ringStart s r
  else if ringEn s r = false ∧ was then ringFall s r
  else s

/-- A TAIL write (R318) that would post more slots than the ring has is refused; on an event ring TAIL is the host's read index (R329). -/
def ringTailWritten (s : State) (r : Nat) (old : Word) : State :=
  let n := 2 ^ s.fld (DMA.RING_SIZE r) DMA.RING_SIZE_LOG2
  let evt := 224 ≤ r && bit (s.rd (ringParam r)).toNat 0
  if !evt && decide (n < ringPosted s r) then
    (((s.wr (DMA.RING_TAIL r) old).raise (DMA.RING_CAUSE r) 3)).emit .pcie 0xA001 sevNOTICE r []
  else s

/-- The value stored for a write to a ring register: limits of RING_SIZE, RING_PARAM and RING_IRQ (Table 13-5). -/
def ringValue (r reg : Nat) (v : Word) : Word :=
  if reg = 3 then
    let n := DMA.RING_SIZE_LOG2.get v
    DMA.RING_SIZE_LOG2.put v (if n < 4 then 4 else n)
  else if reg = 6 ∧ isRxRing r = true then
    let b := DMA.RING_PARAM_RX_BUF.get v
    DMA.RING_PARAM_RX_BUF.put v (if b = 0 then 1 else if 64 < b then 64 else b)
  else if reg = 7 then DMA.RING_IRQ_COUNT.put v (if DMA.RING_IRQ_COUNT.get v = 0 then 1 else DMA.RING_IRQ_COUNT.get v)
  else v

/-- RING_CTL, RING_INFO and RING_SUM as read. -/
def ringCtlWord (s : State) (r : Nat) : Word :=
  DMA.RING_CTL_STOPPED.put (s.rd (DMA.RING_CTL r)) (b2n (ringStopped s r))
def ringInfoWord (s : State) (r : Nat) : Word :=
  match ringDef s r with
  | some d => BitVec.ofNat 32 (1 + 2 * b2n d.extract + d.nch % 512 * 4 + ringB r * 2 ^ 11 + d.rate % 4 * 2 ^ 18 + (d.base - 6144) % 1024 * 2 ^ 20)
  | none => 0
def ringSumWord (s : State) (i : Nat) : Word :=
  BitVec.ofNat 32 (ofBits ((List.range 32).filter (fun j => s.rd (DMA.RING_CAUSE (32 * i + j)) != 0)))

/-- The limit on outstanding reads (R320), and DMA_STATUS as read. -/
def tagLimit (s : State) : Nat := if s.dma.extTag then 256 else 32
def dmaStatusWord (s : State) : Word :=
  BitVec.ofNat 32 (b2n s.dma.linkUp + s.dma.width % 8 * 2 + s.dma.speed % 8 * 16 + 128 * b2n (s.dma.bme && !s.dma.d3) +
    Nat.min (tagLimit s) ((s.dma.rings.map (fun e => e.2.items.length)).foldl (· + ·) 0) * 256)

/-! ### Failed reads (R320) -/

/-- A read of a ring failed: DMA_ERR and the record. -/
def readErr (s : State) (r addr : Nat) : State :=
  (s.raise (DMA.RING_CAUSE r) 4).emit .pcie 0xA002 sevERROR r [addr % 2 ^ 32, addr / 2 ^ 32 % 2 ^ 32]

/-- A descriptor read failed: the ring stops with ERR; items that have their descriptor are finished. What software writes to EN in the same cycle
stands (R66). -/
def ringErr (s : State) (r : Nat) : State :=
  let s1 := (if s.wroteNow (DMA.RING_CTL r) DMA.RING_CTL_EN then s else ringFall s r).setFld (DMA.RING_CTL r) DMA.RING_CTL_ERR 1
  s1.setRing r { s1.ring r with items := (s1.ring r).items.filter (fun x => !x.desc.isEmpty) }

/-! ### Audio block rings (R322 to R324) -/

/-- Word w of a descriptor. -/
def descWord (d : List Byte) (w : Nat) : Nat := leAt d (4 * w) 4

/-- An audio descriptor breaks the rules of its layout (Table 13-7). -/
def audioBad (w : List Nat) : Bool :=
  w.getD 0 0 % 64 != 0 || (w.drop 3).any (fun x => x != 0)

/-- Write the completion of an audio block (Table 13-8). -/
def audioDone (s : State) (r idx k fs status inv : Nat) : State :=
  let w := [k % 2 ^ 32] ++ stampWords (mediaAt fs (k * ringB r)) ++ [status + inv % 2 ^ 15 * 16 + 2 ^ 31]
  ringCount (s.hostWriteMem (ringSlot s r idx + 12) (bytesOfWords w)) r

/-- Take the slot at HEAD. -/
def takeHead (s : State) (r : Nat) : State := s.setFld (DMA.RING_HEAD r) DMA.RING_HEAD_HEAD (ringHead s r + 1)

/-- The samples of injection block k become source values (R324); none stands for a zero block marked invalid. -/
def injectPut (s : State) (r k : Nat) (d : RingP) (data : Option (List Byte)) : State :=
  let fs := rateHz s d.rate
  (List.range d.nch).foldl (fun st c => (List.range (ringB r)).foldl (fun st2 f =>
    srcPut st2 (d.base + c) (mediaAt fs ((k + 1) * ringB r + f))
      (match data with
       | some b => ⟨leAt b (4 * (f * d.nch + c)) 4, true, none⟩
       | none => smpBad)) st) s

/-- A block found no descriptor. -/
def ringMissed (s : State) (r : Nat) : State := (ringCtr s r 1 1).raise (DMA.RING_CAUSE r) 0

/-- The extraction ring takes block k at (k + 1)B ÷ fs + 104 ns, once (R323). -/
def extractBlock (s : State) (r : Nat) (desc : List Byte) : State :=
  match ringDef s r with
  | none => s
  | some d =>
    let j := blockIdx s r d (s.time.stc - 104 * 2 ^ 56)
    if !(ringLive s r && d.extract && decide ((s.ring r).lastK < j)) then s
    else
      let s0 := s.setRing r { s.ring r with lastK := j
                                            stamps := (List.range d.nch).map (fun c => destStamp s (d.base + c) (mediaAt (rateHz s d.rate) ((j - 1) * ringB r))) }
      let k := j - 1
      let fs := rateHz s d.rate
      if ringPosted s r = 0 then ringMissed s0 r
      else
        let w := wordsOfBytes desc 8
        let smp := (List.range (ringB r)).flatMap (fun f => (List.range d.nch).map (fun c =>
          outAt s bDMA 3 (d.base + c) (mediaAt fs (k * ringB r + f))))
        let inv := (smp.filter (fun x => !x.ok)).length
        let idx := ringHead s r
        let s1 := takeHead s0 r
        if audioBad w then audioDone s1 r idx k fs 7 inv
        else if w.getD 2 0 < ringB r * d.nch * 4 then audioDone (ringCtr s1 r 3 1) r idx k fs 2 inv
        else
          let bytes := smp.flatMap (fun x => leBytes 4 (if x.ok then x.v else 0))
          audioDone ((ringCtr s1 r 0 1).hostWriteMem (w.getD 0 0 + w.getD 1 0 * 2 ^ 32) bytes) r idx k fs 0 inv

/-- The row EXTRACTION_BLOCK. -/
def execExtractionBlock (t : Nat) (ring : Nat) (desc : List Byte) (s : State) : Host.Outcome State Fault Refusal :=
  .next (extractBlock (s.at t) ring desc)

/-- The injection ring checks for block k at kB ÷ fs, once (R324). -/
def injectCheck (s : State) (r : Nat) : State :=
  match ringDef s r with
  | none => s
  | some d =>
    let k := blockIdx s r d s.time.stc
    if !(ringLive s r && !d.extract && decide ((s.ring r).lastK ≤ k)) then s
    else
      let s0 := s.setRing r { s.ring r with lastK := k + 1 }
      if ringPosted s r = 0 then injectPut (ringMissed s0 r) r k d none
      else takeHead (s0.setRing r { s0.ring r with items := (s0.ring r).items ++ [⟨ringHead s r, k, []⟩] }) r

/-- The row INJECTION_BLOCK_CHECK. -/
def execInjectionBlockCheck (t : Nat) (ring : Nat) (s : State) : Host.Outcome State Fault Refusal := .next (injectCheck (s.at t) ring)

/-- An injection item ends with a zero block marked invalid. -/
def injectFail (s : State) (r : Nat) (d : RingP) (x : RingItem) (status pos : Nat) : State :=
  let s1 := s.setRing r { s.ring r with items := (s.ring r).items.filter (fun y => y.k != x.k) }
  let s2 := if pos = 0 then s1 else ringCtr s1 r pos 1
  audioDone (injectPut s2 r x.k d none) r x.idx x.k (rateHz s d.rate) status 0

/-- Items whose deadline has passed complete LATE (R324). -/
def injectLate (s : State) (r : Nat) : State :=
  match ringDef s r with
  | none => s
  | some d => ((s.ring r).items.filter (fun x => decide (mediaAt (rateHz s d.rate) ((x.k + 1) * ringB r) ≤ s.time.stc))).foldl
      (fun st x => (injectFail st r d x 1 2).raise (DMA.RING_CAUSE r) 1) s

/-- The row INJECTION_DEADLINE. -/
def execInjectionDeadline (t : Nat) (ring : Nat) (s : State) : Host.Outcome State Fault Refusal := .next (injectLate (s.at t) ring)

/-- The descriptor of the oldest item without one arrives. -/
def injectDesc (s : State) (r : Nat) (d : RingP) (data : List Byte) : State :=
  match (s.ring r).items.find? (fun x => x.desc.isEmpty) with
  | none => s
  | some x =>
    let w := wordsOfBytes data 8
    if audioBad w then injectFail s r d x 7 0
    else if w.getD 2 0 < ringB r * d.nch * 4 then injectFail s r d x 2 3
    else s.setRing r { s.ring r with items := (s.ring r).items.map (fun y => if y.k = x.k then { y with desc := w } else y) }

/-- The data of the oldest item with a descriptor arrives. -/
def injectData (s : State) (r : Nat) (d : RingP) (data : List Byte) : State :=
  match (s.ring r).items.find? (fun x => !x.desc.isEmpty) with
  | none => s
  | some x =>
    let s1 := s.setRing r { s.ring r with items := (s.ring r).items.filter (fun y => y.k != x.k) }
    let s2 := if ringEn s r then injectPut s1 r x.k d (some data) else s1
    audioDone (ringCtr s2 r 0 1) r x.idx x.k (rateHz s d.rate) 0 0

/-- Whether a frame belongs to frame transmit ring r as it runs now. -/
def frameOf (s : State) (r : Nat) (f : TxFrame) : Bool :=
  match f.src with
  | .ring n _ _ g _ _ => n == r - 160 && g == (s.ring r).gen
  | _ => false

/-- The port of a frame transmit ring: PORT 3 acts as 2. -/
def txRingPort (s : State) (r : Nat) : Nat := Nat.min 2 (s.fld (ringParam r) DMA.RING_PARAM_TX_PORT)

/-- A buffer read of a frame transmit ring failed (R327): before the frame starts it completes with DMA_ERR and is not sent; after the start
it ends as an underrun. -/
def txReadFail (s : State) (r : Nat) : State :=
  let p := txRingPort s r
  match (macQ s p 0).reverse.find? (frameOf s r) with
  | some f =>
    let s1 := setMacQ s p 0 ((macQ s p 0).reverse.erase f).reverse
    (match f.src with
     | .ring n first k g _ _ => txRingDone s1 n first k g 8 false 0
     | _ => s1)
  | none =>
    match (s.mac p).cur with
    | some f => if frameOf s r f then underrun s p ((now25 s - (s.mac p).curAt) / (byte25 (portRate s p) * 65536) - 8) else s
    | none => s

/-- A read of a ring completes, well or with an error (R320). `buf` is false for a descriptor read. -/
def readDone (s : State) (r : Nat) (buf ok : Bool) (addr : Nat) (data : List Byte) : State :=
  if !(s.dma.linkUp && s.blkOn bDMA) then s
  else if isAudioRing r then
    match ringDef s r with
    | none => s
    | some d =>
      if d.extract then (if ok || buf || !ringEn s r then s else ringErr (readErr s r addr) r)
      else if ok then (if buf then injectData s r d data else injectDesc s r d data)
      else if buf then
        match (s.ring r).items.find? (fun x => !x.desc.isEmpty) with
        | some x => injectFail (readErr s r addr) r d x 8 3
        | none => s
      else
        match (s.ring r).items.find? (fun x => x.desc.isEmpty) with
        | some x => ringErr (injectPut (readErr s r addr) r x.k d none) r
        | none => s
  else if ok then s
  else if buf then (if isTxRing r then txReadFail (readErr s r addr) r else s)
  else if ringEn s r then ringErr (readErr s r addr) r
  else s

/-- The rows DMA_READ_COMPLETION and DMA_READ_TIMEOUT. -/
def execDmaReadCompletion (t : Nat) (ring : Nat) (buf ok : Bool) (addr : Nat) (data : List Byte) (s : State) : Host.Outcome State Fault Refusal :=
  .next (readDone (s.at t) ring buf ok addr data)
def execDmaReadTimeout (t : Nat) (ring : Nat) (buf : Bool) (addr : Nat) (s : State) : Host.Outcome State Fault Refusal :=
  .next (readDone (s.at t) ring buf false addr [])

/-! ### Frame receive rings (R325, R326) -/

/-- A posted frame receive descriptor breaks the rules of its layout (Table 13-9). -/
def rxDescBad (d : List Byte) : Bool := descWord d 0 % 64 != 0 || (List.range 6).any (fun i => descWord d (i + 2) != 0)

/-- Write back one buffer of a frame: word 2 holds LEN, SOF, EOF and where the frame came from. -/
def rxBuffer (s : State) (r idx : Nat) (f : RingFrame) (addr : Nat) (bytes : List Byte) (sof eof last : Bool) (total status : Nat) : State :=
  let w2 := bytes.length % 2 ^ 14 + 2 ^ 14 * b2n sof + 2 ^ 15 * b2n eof + 2 ^ 16 * b2n f.oversize + f.port % 4 * 2 ^ 17 +
            2 ^ 19 * b2n (!f.mgmt) + (if f.mgmt then f.rule % 16 * 2 ^ 20 else 0)
  let s1 := s.hostWriteMem addr bytes
  ringCount (s1.hostWriteMem (ringSlot s r idx + 8)
    (bytesOfWords ([w2, if last then total % 2 ^ 14 else 0] ++ stampWords f.stamp ++ [status + 2 ^ 31]))) r

/-- Write a frame into the usable slots (index, address), oldest first; `off` bytes are already written. -/
def rxBuffers (s : State) (r : Nat) (f : RingFrame) (sz : Nat) (slots : List (Nat × Nat)) (off : Nat) : State :=
  match slots with
  | [] => s
  | (idx, addr) :: rest =>
    let chunk := (f.bytes.drop off).take sz
    let done := decide (f.bytes.length ≤ off + sz)
    let last := done || rest.isEmpty
    let s1 := rxBuffer s r idx f addr chunk (off == 0) done last (off + chunk.length) (if last && !done then 3 else 0)
    if done then s1 else rxBuffers s1 r f sz rest (off + sz)

/-- A frame reaches a receive ring: written, cut, or dropped (R325, R326). `descs` are the descriptors at HEAD onwards. -/
def rxFrame (s : State) (r : Nat) (f : RingFrame) (descs : List (List Byte)) : State :=
  if !ringLive s r then ringCtr s r 2 1
  else
    let sz := 256 * s.fld (ringParam r) DMA.RING_PARAM_RX_BUF
    let need := cdiv f.bytes.length sz
    let posted := (List.range (ringPosted s r)).map (fun i => (ringHead s r + i, descs.getD i []))
    let bad := posted.filter (fun e => rxDescBad e.2)
    let good := ((posted.filter (fun e => !rxDescBad e.2)).take need).map (fun e => (e.1, descWord e.2 0 + descWord e.2 1 * 2 ^ 32))
    let upto := match good.getLast? with
      | some e => if good.length = need then e.1 + 1 else ringHead s r + ringPosted s r
      | none => ringHead s r + ringPosted s r
    let s1 := (bad.filter (fun e => decide (e.1 < upto))).foldl
      (fun st e => ringCount (st.hostWriteMem (ringSlot st r e.1 + 28) (leBytes 4 (7 + 2 ^ 31))) r) s
    let s2 := rxBuffers s1 r f sz good 0
    let s3 := s2.setFld (DMA.RING_HEAD r) DMA.RING_HEAD_HEAD upto
    let n := Nat.min f.bytes.length (good.length * sz)
    if good.isEmpty then (ringCtr s3 r 2 1).raise (DMA.RING_CAUSE r) 2
    else if n < f.bytes.length then ((ringCtr (ringCtr s3 r 1 n) r 3 1)).raise (DMA.RING_CAUSE r) 2
    else ringCtr (ringCtr s3 r 0 1) r 1 n

/-- The row RX_RING_FRAME_WRITE: the oldest frame waiting for the ring. -/
def execRxRingFrameWrite (t : Nat) (ring : Nat) (descs : List (List Byte)) (s : State) : Host.Outcome State Fault Refusal :=
  .next (
    let s0 := s.at t
    if isRxRing ring then
      match s0.srx.rings.find? (fun f => f.ring == ring - 96) with
      | some f => rxFrame { s0 with srx := { s0.srx with rings := s0.srx.rings.erase f } } ring f descs
      | none => s0
    else s0)

/-! ### Frame transmit rings (R327) -/

/-- Fields of word 2 of a frame transmit descriptor (Table 13-10). -/
def txLen (d : List Byte) : Nat := descWord d 2 % 2 ^ 14
def txSof (d : List Byte) : Bool := bit (descWord d 2) 14
def txEof (d : List Byte) : Bool := bit (descWord d 2) 15

/-- A descriptor's fields are in range. -/
def txDescBad (d : List Byte) : Bool :=
  txLen d == 0 || decide (9212 < txLen d) || decide (2 ^ 18 ≤ descWord d 2) || (List.range 5).any (fun i => descWord d (i + 3) != 0)

/-- The descriptors of the next frame among those posted: up to the one with EOF, before the next with SOF, and at most 8; none while a
frame that has begun is not posted to its end. -/
def txGroup (ds : List (List Byte)) : Option (List (List Byte)) :=
  match ds with
  | [] => none
  | d :: r =>
    if txEof d then some [d]
    else
      let more := r.takeWhile (fun x => !txSof x && !txEof x)
      match r.drop more.length with
      | x :: _ => some ((d :: more ++ (if txSof x then [] else [x])).take 8)
      | [] => if 8 ≤ more.length + 1 then some ((d :: more).take 8) else none

/-- A group of descriptors is one frame within the limits. -/
def txGroupGood (mx : Nat) (g : List (List Byte)) : Bool :=
  let n := (g.map txLen).foldl (· + ·) 0
  (match g.head? with | some d => txSof d | none => false) && (match g.getLast? with | some d => txEof d | none => false) &&
  g.all (fun d => !txDescBad d) && decide (1 ≤ n) && decide (n + 4 ≤ mx)

/-- The next frame of a transmit ring is fetched and queued on queue 0 of its port, or completes with BAD_DESC. -/
def txFetch (s : State) (r : Nat) (descs : List (List Byte)) (bytes : List Byte) : State :=
  if !ringLive s r then s
  else
    match txGroup (descs.take (ringPosted s r)) with
    | none => s
    | some g =>
      let p := txRingPort s r
      let first := ringHead s r
      let s1 := s.setFld (DMA.RING_HEAD r) DMA.RING_HEAD_HEAD (first + g.length)
      let n := (g.map txLen).foldl (· + ·) 0
      if txGroupGood (s.fld (MAC.MAX_FRAME p) MAC.MAX_FRAME_BYTES) g then
        let d := g.getD 0 []
        let body := (bytes ++ List.replicate n 0).take n
        enqueue s1 p 0 ⟨.ring (r - 160) first g.length (s.ring r).gen (bit (descWord d 2) 16) (bit (descWord d 2) 17), body, 0, false⟩
      else txRingDone s1 (r - 160) first g.length (s.ring r).gen 7 false 0

/-- The row TX_RING_FRAME_FETCH; `others` are the rings of the same port that have a whole frame posted too: they take turns (R327). -/
def execTxRingFrameFetch (t : Nat) (ring : Nat) (others : List Nat) (descs : List (List Byte)) (bytes : List Byte) (s : State) :
    Host.Outcome State Fault Refusal :=
  .next (
    let s0 := s.at t
    let p := txRingPort s0 ring
    if isTxRing ring && nextTurn (Tbl.getD s0.dma.txLast p 223) (ring :: others) == some ring then
      txFetch { s0 with dma := { s0.dma with txLast := Tbl.put s0.dma.txLast p ring } } ring descs bytes
    else s0)

/-! ### MSI-X (R330, R331) -/

/-- The row MSIX_COALESCE_TIMEOUT. -/
def execMsixCoalesceTimeout (t : Nat) (ring : Nat) (s : State) : Host.Outcome State Fault Refusal :=
  .next (
    let s0 := s.at t
    let us_ := s0.fld (DMA.RING_IRQ ring) DMA.RING_IRQ_TIME_US
    if (s0.ring ring).cnt = 0 ∨ us_ = 0 ∨ s0.now < (s0.ring ring).cntFrom + us us_ then s0
    else (s0.setRing ring { s0.ring ring with cnt := 0 }).sendVector (s0.fld (DMA.RING_IRQ ring) DMA.RING_IRQ_VEC))

/-- The identity that the function's configuration space holds (Table 13-1): Vendor ID, Device ID, Revision ID, which is SYS.CHIP.STEPPING, class code,
and the subsystem IDs. -/
def pcieIdentity : List Nat := [0x1F4E, 0x5A09, 1, 0x040100, 0x1F4E, 0x5A09]

/-- The tags that only injection rings use (R320). -/
def tagReserve (s : State) : Nat := if s.dma.extTag then 64 else 8

/-- A vector's control word has been written: unmasked with its pending bit set, its message is sent. -/
def vectorWritten (s : State) (v : Nat) : State :=
  if bit s.dma.pend v && !bit (s.rd (DMA.MSIX_TABLE v 3)).toNat 0 && !s.dma.fmask && s.dma.msixEn && s.dma.linkUp then
    { s with dma := { s.dma with pend := setBit s.dma.pend v false, msix := v :: s.dma.msix } }
  else s

/-- Every vector whose message was held back by the function mask or by MSI-X being off is looked at again. -/
def unmaskAll (s : State) : State := (List.range 64).foldl vectorWritten s

/-! ### Loss of the host path (R332) -/

/-- Every ring stops at once, and every DMA register, the MSI-X table and the pending bits return to their reset values. -/
def dmaReset (s : State) : State :=
  let on := (List.range 256).filter (fun r => ringEn s r)
  let s1 := on.foldl ringSilence s
  let s2 := blankRegs s1 bDMA
  { s2 with dma := { s2.dma with rings := s2.dma.rings.map (fun e => (e.1, { RingS.init with gen := e.2.gen + 1 })), pend := 0 } }

/-- Outstanding BAR0 reads are lost with the link (R332); posted writes already taken stay. -/
def dropReads (s : State) : State := { s with host := { s.host with queue := s.host.queue.filter (fun q => q.write) } }

/-- The link goes down, or PCIE_PERST_N falls: then PD10 is no longer in use (R419). -/
def linkLost (s : State) (perst : Bool) : State :=
  let s1 := dropReads (dmaReset s)
  let s2 := { s1 with dma := { s1.dma with linkUp := false, width := 0, speed := 0, bme := false, d3 := false, msixEn := false, fmask := false, extTag := false }
                      pwr := { s1.pwr with linkTrained := false } }
  let s3 := (s2.raise DMA.DMA_CAUSE 1).emit .pcie 0xA003 sevWARNING 0 []
  if perst then domainsOff { s3 with pwr := { s3.pwr with pcieUp := false } } else s3

/-- The row PCIE_LINK_LOST. -/
def execPcieLinkLost (t : Nat) (perst : Bool) (s : State) : Host.Outcome State Fault Refusal :=
  .next (if (s.at t).blkOn bDMA && ((s.at t).dma.linkUp || (perst && (s.at t).pwr.pcieUp)) then linkLost (s.at t) perst else s.at t)

/-- The row BUS_MASTER_OFF: Bus Master Enable is cleared, or D3hot is entered (`d3`). Every enabled ring stops without a further write, and
MASTER_OFF sets. -/
def execBusMasterOff (t : Nat) (d3 : Bool) (s : State) : Host.Outcome State Fault Refusal :=
  .next (
    let s0 := s.at t
    let on := (List.range 256).filter (fun r => ringEn s0 r)
    let s1 := on.foldl ringHalt { s0 with dma := if d3 then { s0.dma with d3 := true } else { s0.dma with bme := false } }
    if on.isEmpty then s1 else s1.raise DMA.DMA_CAUSE 0)

/-- The row PCIE_FLR: as PCIE_PERST_N low, except that the link stays up; then MASTER_OFF sets. -/
def execPcieFlr (t : Nat) (s : State) : Host.Outcome State Fault Refusal :=
  .next (
    let s0 := s.at t
    if s0.blkOn bDMA && s0.dma.linkUp then
      (let s1 := dropReads (dmaReset s0)
       let s2 := { s1 with dma := { s1.dma with bme := false, d3 := false, msixEn := false, fmask := false, extTag := false } }
       (s2.raise DMA.DMA_CAUSE 0).emit .pcie 0xA005 sevWARNING 0 [])
    else s0)

/-! ### Counters (R333) -/

/-- DMA mailbox selector r: the four counters of ring r, which clear. -/
def dmaCapture (sel : Nat) (s : State) : Option (List Nat × State) :=
  if sel < 256 then
    let r := rcTake s.dma.ctr s.inst.ctrDma (ctrKeys sel)
    some (r.1.flatMap words64, { s with dma := { s.dma with ctr := r.2.1 }, inst := { s.inst with ctrDma := r.2.2 } })
  else none

/-- The row DMA_COUNTER_READ. -/
def execDmaCounterRead (t : Nat) (path : Path) (sel tag : Nat) (s : State) : Host.Outcome State Fault Refusal :=
  .next (mbxServe (s.at t) path bDMA sel tag (dmaCapture sel))

end Sys2Proof.Machine
end

