-- ==== Sys2Proof/Machine/Twin.lean ====
section
/-!
DEFINITION. The twin unit (chapter 14): lanes, heartbeats, STC comparison (R337 to R339), pairing (R340, R341, R344), digests and check
indicators (R349, R350), Gander at both ends (R351 to R354), resynchronisation and rejoin (R360 to R362), TAKEOVER and YIELD in time
(R363), and the registers as read (R365). What performs host writes stands in Mirror.
-/
namespace Sys2Proof.Machine

/-! ### HB_OUT (R351) -/

/-- The symbol that Table 14-4 gives. -/
def hbSym (s : State) : HbSym :=
  if !twinned s || !s.domOn 1 || s.cmd.mode == .sleep || s.cmd.mode == .boot then .none
  else if verdictFail s then .fail
  else if !s.twin.yield.isEmpty || s.cmd.mode == .load || s.twin.resyncing || forceIsolated s then .yield
  else if s.now < s.twin.divTill then .diverge
  else .ok

/-- The row HB_SYMBOL: the next rising edge of HB_OUT. -/
def execHbSymbol (t : Nat) (s : State) : Host.Outcome State Fault Refusal :=
  .next (
    let s1 := verdictSettle (s.at t)
    { s1 with twin := { s1.twin with hb := hbSym s1 } })

/-! ### The twin link (R337 to R339) -/

/-- The heartbeat that the unit sends now. A pending TAKEOVER asks the peer to yield. -/
def heartbeat (s : State) : Heartbeat :=
  ⟨s.twin.role.code, s.twin.gander.code, s.twin.hb.code, s.cmd.mode.code, s.cmd.groups, s.stc8, !s.twin.takeover.isEmpty⟩

/-- The row TWIN_HEARTBEAT_TX: a heartbeat frame on each lane that is up. -/
def execTwinHeartbeatTx (t : Nat) (s : State) : Host.Outcome State Fault Refusal :=
  .next (
    let s0 := s.at t
    if s0.blkOn bTWIN then
      { s0 with twin := { s0.twin with out := ((bitsOf 2 s0.twin.lanes).map (fun l => TwinMsg.heartbeat l (heartbeat s0))).reverse ++ s0.twin.out } }
    else s0)

/-- A heartbeat frame counts for its period of 100 µs: the second lane's frame within 50 µs belongs to the same period, and a gap above 150 µs
breaks the run (R338). -/
def hbPeriod (s : State) : State :=
  let gap := s.now - s.twin.hbLast.getD 0
  if s.twin.hbLast.isNone || s.twin.hbRun == 0 then { s with twin := { s.twin with hbLast := some s.now, hbRun := 1 } }
  else if gap < us 50 then s
  else if gap ≤ us 150 then { s with twin := { s.twin with hbLast := some s.now, hbRun := Nat.min 3 (s.twin.hbRun + 1) } }
  else twinCount { s with twin := { s.twin with hbLast := some s.now, hbRun := if s.twin.peerSeen then s.twin.hbRun else 1 } } 4
    ((gap + us 50) / us 100 - 1)

/-- PEER_SEEN rises with the third period in a row. -/
def peerRise (s : State) : State :=
  if !s.twin.peerSeen && decide (3 ≤ s.twin.hbRun) then { s with twin := { s.twin with peerSeen := true } } else s

/-- The mode check of Table 14-2: a STANDBY whose mode or mute groups differ from those an ACTIVE peer shows missed a mirrored item. A
heartbeat older than the unit's own last change says nothing. -/
def modeCheck (s : State) (h : Heartbeat) : State :=
  let fresh := decide (s.cmd.modeStc / 2 ^ 48 ≤ h.stc8) && decide (s.cmd.groupsStc / 2 ^ 48 ≤ h.stc8)
  if s.twin.role == .standby && h.role == 1 && fresh && (h.mode != s.cmd.mode.code || h.groups != s.cmd.groups) then
    setRole s .isolated 9
  else s

/-- TWIN_STATUS.DIVERGENT sets with its flag and record (R359). -/
def divergentSet (s : State) : State :=
  if s.twin.divergent then s
  else ({ s with twin := { s.twin with divergent := true } }.raise TWIN.TWIN_CAUSE 5).emit .fabric 0xB00A sevWARNING 0 []

/-- The ACTIVE unit learns of a divergence, and of its end, from what its peer shows. -/
def peerDivergent (s : State) (h : Heartbeat) : State :=
  if s.twin.role = .active ∧ h.gander = 3 then divergentSet s
  else if s.twin.role = .active ∧ h.role = 2 then { s with twin := { s.twin with divergent := false } }
  else s

/-- The peer asks an ACTIVE unit to yield (R363). -/
def peerAsks (s : State) (h : Heartbeat) : State :=
  if s.twin.role = .active ∧ h.ask = true ∧ s.twin.yield.isEmpty = true then
    { s with twin := { s.twin with yield := [(none, s.now)], yieldIso := false } }
  else s

/-- The row TWIN_HEARTBEAT_RX. -/
def execTwinHeartbeatRx (t : Nat) (lane : Nat) (hb : Heartbeat) (s : State) : Host.Outcome State Fault Refusal :=
  .next (
    let s0 := s.at t
    if s0.blkOn bTWIN && bit s0.twin.lanes lane then
      let s1 := peerRise (hbPeriod { s0 with twin := { s0.twin with peer := some hb } })
      refreshRole (peerAsks (peerDivergent (modeCheck s1 hb) hb) hb) 7
    else s0)

/-- The row PEER_SILENCE_TIMEOUT. -/
def execPeerSilenceTimeout (t : Nat) (s : State) : Host.Outcome State Fault Refusal :=
  .next (
    let s0 := s.at t
    if s0.blkOn bTWIN && s0.twin.peerSeen && decide (s0.twin.hbLast.getD 0 + us 300 ≤ s0.now) then
      let s1 := { s0 with twin := { s0.twin with peerSeen := false, hbRun := 0, lostFrom := s0.now } }
      refreshRole ((s1.raise TWIN.TWIN_CAUSE 1).emit .fabric 0xB002 sevWARNING 0 []) 6
    else s0)

/-- The row TWIN_TIME_AVERAGE: `off` is the peer's STC minus the own one, averaged over the millisecond, in 2⁻⁸ ns (R339). -/
def execTwinTimeAverage (t : Nat) (off : Int) (s : State) : Host.Outcome State Fault Refusal :=
  .next (
    let s0 := s.at t
    if !(s0.blkOn bTWIN && s0.twin.lanes != 0) then s0
    else
      let bad := decide (s0.fld TWIN.TWIN_CTL TWIN.TWIN_CTL_TIME_NS * 256 < off.natAbs)
      let s1 := { s0 with twin := { s0.twin with timeOff := off, timeBad := if bad then Nat.min 100 (s0.twin.timeBad + 1) else 0
                                                 timeGood := if bad then 0 else Nat.min 1000 (s0.twin.timeGood + 1) } }
      if s1.twin.timeOk && decide (100 ≤ s1.twin.timeBad) then
        refreshRole (({ s1 with twin := { s1.twin with timeOk := false } }.raise TWIN.TWIN_CAUSE 10).emit .fabric 0xB003 sevWARNING 0 []) 10
      else if !s1.twin.timeOk && decide (1000 ≤ s1.twin.timeGood) then { s1 with twin := { s1.twin with timeOk := true } }
      else s1)

/-- The row TWIN_LANE_DOWN. -/
def execTwinLaneDown (t : Nat) (lane : Nat) (s : State) : Host.Outcome State Fault Refusal :=
  .next (
    let s0 := s.at t
    if s0.blkOn bTWIN && bit s0.twin.lanes lane then
      ({ s0 with twin := { s0.twin with lanes := setBit s0.twin.lanes lane false } }.raise TWIN.TWIN_CAUSE 9).emit .fabric 0xB001 sevWARNING lane []
    else s0)

/-- The row TWIN_LANE_UP: where the link comes back after being down, a STANDBY enters ISOLATED (R348). -/
def execTwinLaneUp (t : Nat) (lane : Nat) (s : State) : Host.Outcome State Fault Refusal :=
  .next (
    let s0 := s.at t
    if s0.blkOn bTWIN && decide (lane < 2) && !bit s0.twin.lanes lane then
      let s1 := { s0 with twin := { s0.twin with lanes := setBit s0.twin.lanes lane true } }
      if s0.twin.lanes = 0 ∧ s0.twin.role = .standby then setRole s1 .isolated 8 else s1
    else s0)

/-! ### Pairing (R340, R341, R344) -/

/-- POLICY_ID of the bitstream in force. -/
def policyId (s : State) : Nat := match s.place.now with | some p => p.policyId | none => 0

/-- UNIT_SEL as TWIN_STATUS.UNIT shows it. -/
def unitSel (s : State) : Nat := s.chip.straps.unitSel % 2

/-- The hello frame of the unit. -/
def helloOf (s : State) : Hello :=
  ⟨s.chip.fuses.serial, unitSel s, s.chip.fuses.code, s.fld SYS.CHIP SYS.CHIP_STEPPING, configId s, policyId s, s.twin.applyHash,
   (s.rd PLACE.TILE_FAULT).toNat, clockIdentity s⟩

/-- A hello frame goes to the peer while the link is up. -/
def helloSend (s : State) : State :=
  if s.blkOn bTWIN && s.twin.lanes != 0 then { s with twin := { s.twin with out := .hello (helloOf s) :: s.twin.out } } else s

/-- REFUSE for the peer's hello: 0 when every item agrees (Table 14-2). -/
def refuseCode (s : State) (h : Hello) : Nat :=
  let m := helloOf s
  if s.twin.clash || h.unit == m.unit then 1 else if h.code ≠ m.code then 2 else if h.stepping ≠ m.stepping then 3
  else if h.configId ≠ m.configId then 4 else if h.policyId ≠ m.policyId then 5 else if h.applyHash ≠ m.applyHash then 6 else 0

/-- The last hello is checked. A new refusal sets its flag and is recorded; UNIT_CLASH lasts until RESET_N. Once paired, U1 takes the
clockIdentity of U0. -/
def pairCheck (s : State) : State :=
  match s.twin.hello with
  | none => s
  | some h =>
    if !twinned s then { s with twin := { s.twin with paired := false } }
    else
      let c := refuseCode s h
      let s1 := if c = 1 ∧ s.twin.clash = false then
          { s with twin := { s.twin with clash := true } }.emit .fabric 0xB005 sevCRITICAL 0 []
        else s
      let s2 := if c ≠ 0 ∧ c ≠ s.twin.refuse then (s1.raise TWIN.TWIN_CAUSE 8).emit .fabric 0xB004 sevERROR 0 [] else s1
      let s3 := { s2 with twin := { s2.twin with paired := c == 0, refuse := c
                                                 clockId := if c = 0 then (if unitSel s = 1 then h.clockId else clockIdentity s)
                                                            else s2.twin.clockId } }
      refreshRole s3 11

/-- The row HELLO_TX. -/
def execHelloTx (t : Nat) (s : State) : Host.Outcome State Fault Refusal := .next (helloSend (s.at t))

/-- The row HELLO_RECEIVED. -/
def execHelloReceived (t : Nat) (hello : Hello) (s : State) : Host.Outcome State Fault Refusal :=
  .next (
    let s0 := s.at t
    if s0.blkOn bTWIN && s0.twin.lanes != 0 then pairCheck { s0 with twin := { s0.twin with hello := some hello } } else s0)

/-! ### Digests and indicators -/

/-- The row DIGEST_RECEIVED. -/
def execDigestReceived (t : Nat) (dig : Digest) (s : State) : Host.Outcome State Fault Refusal :=
  .next (if (s.at t).twin.lanes = 0 then s.at t else digestArrived (s.at t) dig)

/-- The row DIGEST_TIMEOUT. -/
def execDigestTimeout (t : Nat) (s : State) : Host.Outcome State Fault Refusal := .next (digestsMissing (s.at t))

/-- The row CHECK_INDICATOR_EXPIRY: 10 s have passed since the last cause of the indicator; SAFE falls with the mode instead (R350). -/
def execCheckIndicatorExpiry (t : Nat) (ind : Nat) (s : State) : Host.Outcome State Fault Refusal :=
  .next (
    let s0 := verdictSettle (s.at t)
    if s0.blkOn bTWIN && ind != 8 && decide (Tbl.getD s0.twin.indTill ind 0 ≤ s0.now) then
      { s0 with twin := { s0.twin with ind := setBit s0.twin.ind ind false, indTill := s0.twin.indTill.del ind } }
    else s0)

/-! ### ROLE_IN (R352) -/

/-- The kind of a symbol by its high time in ns; LOST for one outside every window. -/
def gKind (high : Nat) : GSym :=
  if 6500 ≤ high ∧ high ≤ 8500 then .grant else if 4000 ≤ high ∧ high ≤ 6000 then .resync
  else if 1500 ≤ high ∧ high ≤ 3500 then .standby else .lost

/-- Two symbols in a row on ROLE_IN. The kind is recognised where both are of it; RESYNC starts a divergence. -/
def ganderSymbols (s : State) (h1 h2 : Nat) : State :=
  let bad := (if gKind h1 = .lost then 1 else 0) + (if gKind h2 = .lost then 1 else 0)
  let s1 := if bad = 0 then s else twinCount s 5 bad
  let s2 := if bad = 2 then s1 else { s1 with twin := { s1.twin with gLast := some s1.now } }
  if gKind h1 = gKind h2 ∧ gKind h2 ≠ .lost then
    let s3 := { s2 with twin := { s2.twin with gander := gKind h2 } }
    let s4 := if gKind h2 = .resync ∧ s.twin.gander ≠ .resync ∧ twinned s = true then divergentSet s3 else s3
    refreshRole s4 1
  else s2

/-- The row GANDER_SYMBOL_RECOGNISED: the high times of two consecutive symbols in ns. -/
def execGanderSymbolRecognised (t : Nat) (high1 high2 : Nat) (s : State) : Host.Outcome State Fault Refusal :=
  .next (if (s.at t).blkOn bTWIN then ganderSymbols (s.at t) high1 high2 else s.at t)

/-- The row GANDER_LOST_TIMEOUT. -/
def execGanderLostTimeout (t : Nat) (s : State) : Host.Outcome State Fault Refusal :=
  .next (
    let s0 := s.at t
    if s0.blkOn bTWIN && s0.twin.gander != .lost && decide (s0.twin.gLast.getD 0 + us 30 ≤ s0.now) then
      let s1 := { s0 with twin := { s0.twin with gander := .lost, lostFrom := s0.now } }
      refreshRole ((s1.raise TWIN.TWIN_CAUSE 2).emit .fabric 0xB008 sevWARNING 0 []) 6
    else s0)

/-! ### Gander (R351, R353, R354) -/

/-- The device runs Gander (R48). -/
def arbOn (s : State) : Bool := s.chip.straps.arbEn && s.domOn 1

/-- The kind of a heartbeat symbol by its high time in ns (Table 14-4); none for one outside every window. -/
def hbKind (high : Nat) : HbSym :=
  if 15000 ≤ high ∧ high ≤ 25000 then .ok else if 35000 ≤ high ∧ high ≤ 45000 then .diverge
  else if 55000 ≤ high ∧ high ≤ 65000 then .yield else if 75000 ≤ high ∧ high ≤ 85000 then .fail else .none

/-- An input takes a symbol. One that is invalid only breaks a run of DIVERGE. -/
def ginSymbol (g : GInS) (now : Nat) (k : HbSym) : GInS :=
  if k = .none then { g with divRun := 0 }
  else
    { sym := k, last := some now
      from_ := if g.sym = .none then now else g.from_
      okFrom := if k = .ok ∧ g.sym ≠ .ok then now else g.okFrom
      divRun := if k = .diverge then g.divRun + 1 else 0 }

/-- The row ARB_HB_SYMBOL: a symbol on ARB_HB_IN0 or ARB_HB_IN1 with its high time in ns. -/
def execArbHbSymbol (t : Nat) (input highNs : Nat) (s : State) : Host.Outcome State Fault Refusal :=
  .next (
    let s0 := s.at t
    if !arbOn s0 then s0
    else
      let k : HbSym := hbKind highNs
      let g := { s0.gander with first := if k = HbSym.none then s0.gander.first else some (s0.gander.first.getD s0.now) }
      if input = 0 then { s0 with gander := { g with in0 := ginSymbol g.in0 s0.now k } }
      else if input = 1 then { s0 with gander := { g with in1 := ginSymbol g.in1 s0.now k } }
      else s0)

/-- The row ARB_INPUT_SILENT: no valid symbol for 300 µs. -/
def execArbInputSilent (t : Nat) (input : Nat) (s : State) : Host.Outcome State Fault Refusal :=
  .next (
    let s0 := s.at t
    let g := s0.gander
    let x := if input = 0 then g.in0 else g.in1
    if !(arbOn s0 && decide (input < 2) && x.sym != .none && decide (x.last.getD 0 + us 300 ≤ s0.now)) then s0
    else
      let y := { x with sym := .none, divRun := 0 }
      let s1 := { s0 with gander := if input = 0 then { g with in0 := y } else { g with in1 := y } }
      (s1.raise SYS.ARB_STATUS 17).emit .control 0xB011 sevWARNING 0 [s1.gander.in0.sym.code, s1.gander.in1.sym.code])

/-- An input is OK or DIVERGE. -/
def ginGood (g : GInS) : Bool := g.sym == .ok || g.sym == .diverge

/-- An input counts as present: valid for at least 1 ms. -/
def ginPresent (g : GInS) (now : Nat) : Bool := g.sym != .none && decide (g.from_ + ms 1 ≤ now)

/-- The grant is given or moved to unit u. -/
def ganderMove (s : State) (u : Nat) : State :=
  let s1 := { s with gander := { s.gander with holder := u, resyncTill := 0 } }
  (s1.raise SYS.ARB_STATUS 16).emit .control 0xB010 sevNOTICE 0 [s1.gander.in0.sym.code, s1.gander.in1.sym.code]

/-- The first row of Table 14-5 that holds. -/
def ganderRow (s : State) : State :=
  let g := s.gander
  let prefer := s.fld SYS.ARB_CTL SYS.ARB_CTL_PREFER
  let inp := fun (u : Nat) => if u = 0 then g.in0 else g.in1
  if 2 ≤ g.holder then
    match g.first with
    | some f =>
      if f + ms (s.fld SYS.ARB_CTL SYS.ARB_CTL_SETTLE_MS) ≤ s.now then
        (if ginGood (inp prefer) then ganderMove s prefer
         else if ginGood (inp (1 - prefer)) then ganderMove s (1 - prefer) else s)
      else s
    | none => s
  else
    let h := inp g.holder
    let o := inp (1 - g.holder)
    if (h.sym == .none || h.sym == .fail || h.sym == .yield) && ginPresent o s.now && ginGood o then ganderMove s (1 - g.holder)
    else if h.sym == .none && ginPresent o s.now && o.sym == .yield then ganderMove s (1 - g.holder)
    else if h.sym == .fail && o.sym == .fail then { s with gander := { g with bothFail := true } }
    else if 10 ≤ h.divRun ∨ 10 ≤ o.divRun then
      let s1 := { s with gander := { g with divergent := true, resyncTill := s.now + ms 10 } }
      if g.divergent then s1 else s1.raise SYS.ARB_STATUS 18
    else s

/-- DIVERGENT and BOTH_FAIL clear (R353). -/
def ganderClear (s : State) : State :=
  let g := s.gander
  let okFor := fun (x : GInS) => x.sym == .ok && decide (x.okFrom + secs 1 ≤ s.now)
  { s with gander := { g with divergent := g.divergent && !(okFor g.in0 && okFor g.in1)
                              bothFail := g.bothFail && g.in0.sym == .fail && g.in1.sym == .fail } }

/-- The symbols of the two lines. -/
def ganderLines (s : State) : State :=
  let g := s.gander
  let line := fun (u : Nat) =>
    if g.holder = u then GSym.grant else if g.holder < 2 ∧ s.now < g.resyncTill then GSym.resync else GSym.standby
  { s with gander := { g with grant0 := line 0, grant1 := line 1 } }

/-- The row GANDER_DECISION: a symbol boundary. -/
def execGanderDecision (t : Nat) (s : State) : Host.Outcome State Fault Refusal :=
  .next (if arbOn (s.at t) then ganderLines (ganderClear (ganderRow (s.at t))) else s.at t)

/-! ### Mirroring (R345, R348) -/

/-- The ACTIVE unit forwards an item. With the link down the peer cannot be reached, and the unit sends DIVERGE for 10 ms. -/
def mirrorOut (s : State) (m : MirrorItem) : State :=
  if !(twinned s && s.twin.role == .active && s.twin.paired) then s
  else if s.twin.lanes = 0 then { s with twin := { s.twin with divTill := Nat.max s.twin.divTill (s.now + ms 10) } }
  else
    twinCount { s with twin := { s.twin with seqOut := s.twin.seqOut + 1, out := .mirror (s.twin.seqOut + 1) m :: s.twin.out } } 3 1

/-- Blocks with mirrored fields (Table 14-3). -/
def mirroredBlk (b : Nat) : Bool :=
  b == bCLK || b == bTIME || b == bMACA || b == bMACB || b == bSTX || b == bSRX || b == bROUTE || b == bAPORT || b == bDSPC

/-- The bits of a register that mirroring covers (Table 14-3). -/
def mirrorMask (a : Nat) : Word :=
  let b := blkOf a
  let o := offOf a
  let ty := fun (p : FTy → Bool) => match regDesc a with
    | some d => fieldsWord d.fields (fun f => if p f.ty then 2 ^ f.w - 1 else 0)
    | none => 0
  let rw := fun (t : FTy) => t == .rw || t == .rwh
  if !mirroredBlk b then 0
  else if b = bCLK then ty (fun t => rw t || t == .rwp)
  else if b = bMACA ∨ b = bMACB then (if a = MAC.STATION_ADDR_LO (b - 4) ∨ a = MAC.STATION_ADDR_HI (b - 4) ∨ a = MAC.TS_CORR (b - 4) then 0 else ty rw)
  else if b = bAPORT ∧ (a = APORT.VC_CTL ∨ a = APORT.VC_CODE) then 0
  else if b = bDSPC then (if a = DSPC.CW_APPLY ∨ 0x10000 ≤ o then ty rw else 0)
  else if b = bSTX ∨ b = bSRX ∨ b = bROUTE then
    (if o = 0x100 ∨ o = 0x104 then 0
     else if 0x200 ≤ o ∧ o < 0x400 then ty (fun t => t == .w1c)
     else ty (fun t => rw t || t == .rwp))
  else ty rw

/-- The bits of a register that a snapshot carries (R360): both banks of the tables, mirrored fields, and retained fields of their blocks. -/
def snapMask (a : Nat) : Word :=
  if !mirroredBlk (blkOf a) then 0
  else if swapBank a ≠ a then ~~~ (0 : Word)
  else mirrorMask a &&& ~~~ w1cMask a ||| (if a = APORT.VC_CTL ∨ a = APORT.VC_CODE then 0 else keptMask a)

/-! ### Resynchronisation and rejoin (R360 to R362) -/

/-- The row RESYNC_START: RESYNCING, YIELD on HB_OUT, and a request to the active. A resynchronisation that has ended starts anew only after
the unit has left ISOLATED, an APPLY or a STATE_RESET (R361). -/
def execResyncStart (t : Nat) (s : State) : Host.Outcome State Fault Refusal :=
  .next (
    let s0 := s.at t
    if twinned s0 && s0.blkOn bTWIN && s0.twin.role == .isolated && s0.twin.paired && peerRole s0 == 1 && !verdictFail s0 &&
       !s0.twin.resyncing && s0.twin.resync == .idle && s0.twin.lanes != 0 then
      twinCount { s0 with twin := { s0.twin with resyncing := true, resync := .asked, held := [], out := .snapReq :: s0.twin.out } } 7 1
    else s0)

/-- What the ACTIVE unit captures: the words of the snapshot by logical address, OFF, NAMED, and where the mirror stream restarts. Words
not listed are at their reset values. -/
def snapshotOf (s : State) : Snapshot :=
  let regs := (s.regs.map (fun e => (phys s.bankSel e.1, (e.2 &&& snapMask (phys s.bankSel e.1)).toNat))).filter (fun e => snapMask e.1 != 0)
  ⟨regs, s.time.off, s.time.named, s.twin.seqOut⟩

/-- The row RESYNC_SNAPSHOT: a commit epoch at least 2 ms after the request of the peer, which arrived at elapsed time `asked`. -/
def execResyncSnapshot (t : Nat) (asked : Nat) (s : State) : Host.Outcome State Fault Refusal :=
  .next (
    let s0 := s.at t
    if decide (asked + ms 2 ≤ s0.now) && twinned s0 && s0.blkOn bTWIN && s0.twin.role == .active && s0.twin.paired && s0.twin.lanes != 0 then
      { s0 with twin := { s0.twin with out := .snapshot (snapshotOf s0) :: s0.twin.out } }
    else s0)

/-- A clean interval stands now (R362): CLEAN_S seconds without a mismatch or a missing digest, and a digest compared within them. -/
def cleanNow (s : State) : Bool :=
  let c := secs (s.fld TWIN.RESYNC_CTL TWIN.RESYNC_CTL_CLEAN_S)
  decide (s.twin.cleanFrom + c ≤ s.now) && (match s.twin.cmpAt with | some a => decide (s.now ≤ a + c) | none => false)

/-- The row RESYNC_LIMIT_EXPIRY (R361). -/
def execResyncLimitExpiry (t : Nat) (s : State) : Host.Outcome State Fault Refusal :=
  .next (
    let s0 := s.at t
    match s0.twin.resync with
    | .watching since =>
      if s0.blkOn bTWIN && decide (since + secs (s0.fld TWIN.RESYNC_CTL TWIN.RESYNC_CTL_LIMIT_S) ≤ s0.now) && !s0.twin.cleanSeen && !cleanNow s0 then
        ({ s0 with twin := { s0.twin with resync := .failed } }.raise TWIN.TWIN_CAUSE 7).emit .fabric 0xB00B sevERROR 0 []
      else s0
    | _ => s0)

/-- The conditions of R362, after a resynchronisation. -/
def canRejoin (s : State) : Bool :=
  twinned s && s.twin.role == .isolated && s.twin.paired && s.twin.peerSeen && s.twin.timeOk && peerRole s == 1 && s.twin.gander == .standby &&
  !verdictFail s && !s.twin.resyncing && !forceIsolated s && cleanNow s &&
  (match s.twin.resync with | .watching _ => true | _ => false) &&
  ((s.flag TWIN.TWIN_CTL TWIN.TWIN_CTL_AUTO_REJOIN && !s.twin.rejoinHeld) || s.twin.rejoinOk)

/-- The row REJOIN: a packet boundary. -/
def execRejoin (t : Nat) (s : State) : Host.Outcome State Fault Refusal :=
  .next (
    let s0 := s.at t
    if s0.blkOn bTWIN && canRejoin s0 then
      let s1 := setRole { s0 with twin := { s0.twin with divergent := false } } .standby 2
      ((s1.hwFld TWIN.TWIN_CTL TWIN.TWIN_CTL_REJOIN 0).raise TWIN.TWIN_CAUSE 6).emit .fabric 0xB00C sevNOTICE 0 []
    else s0)

/-! ### TAKEOVER and YIELD in time (R363) -/

/-- The row TAKEOVER_TIMEOUT. -/
def execTakeoverTimeout (t : Nat) (s : State) : Host.Outcome State Fault Refusal :=
  .next (
    let s0 := s.at t
    let old := fun (x : Cmd × Nat) => decide (x.2 + ms 10 ≤ s0.now)
    finishEach { s0 with twin := { s0.twin with takeover := s0.twin.takeover.filter (fun x => !old x) } }
      ((s0.twin.takeover.filter old).map (fun x => x.1)) cFAILED 5)

/-- The row YIELD_TIMEOUT: the unit stays ACTIVE. DETAIL 2 where the peer is not OK or DIVERGE, else 3 where Gander is lost, else 5. -/
def execYieldTimeout (t : Nat) (s : State) : Host.Outcome State Fault Refusal :=
  .next (
    let s0 := s.at t
    if s0.twin.role = .active then
      let old := fun (x : Option Cmd × Nat) => decide (x.2 + ms 10 ≤ s0.now)
      let good := s0.twin.peerSeen && (match s0.twin.peer with | some h => h.sym == 1 || h.sym == 2 | none => false)
      let d := if !good then 2 else if s0.twin.gander = .lost then 3 else 5
      let left := s0.twin.yield.filter (fun x => !old x)
      finishEach { s0 with twin := { s0.twin with yield := left, yieldIso := s0.twin.yieldIso && !left.isEmpty
                                                  rejoinHeld := s0.twin.rejoinHeld && !left.isEmpty } }
        ((s0.twin.yield.filter old).filterMap (fun x => x.1)) cFAILED d
    else s0)

/-! ### Registers as read -/

/-- TWIN_STATUS as read (Table 14-12). -/
def twinStatusWord (s : State) : Word :=
  BitVec.ofNat 32 (s.twin.role.code + 8 * unitSel s + 16 * (s.twin.lanes % 4) + 64 * b2n s.twin.peerSeen + 128 * b2n s.twin.paired +
    256 * s.twin.gander.code + 2 ^ 10 * b2n (verdictFail s) + 2 ^ 11 * b2n s.twin.divergent + 2 ^ 12 * b2n s.twin.resyncing +
    2 ^ 13 * b2n (s.twin.forced || forceIsolated s) + 2 ^ 14 * b2n s.twin.timeOk + 2 ^ 16 * s.twin.refuse + 2 ^ 20 * s.twin.hb.code +
    2 ^ 23 * peerRole s)

/-- SYS.ARB_STATUS as read (Table 14-7). -/
def arbStatusWord (s : State) : Word :=
  if !s.chip.straps.arbEn then 0
  else (s.rd SYS.ARB_STATUS &&& 0xFFFF0000) ||| BitVec.ofNat 32 (s.gander.holder + 4 * s.gander.in0.sym.code + 32 * s.gander.in1.sym.code +
    256 * b2n s.gander.divergent + 512 * b2n s.gander.bothFail)

/-- What the TWIN mailbox captures (Table 14-11). -/
def twinCapture (sel : Nat) (s : State) : Option (List Nat × State) :=
  let r := rcTake s.twin.ctr s.inst.ctrTwin (ctrKeys sel)
  if sel < 2 then some (r.1.flatMap words64, { s with twin := { s.twin with ctr := r.2.1 }, inst := { s.inst with ctrTwin := r.2.2 } }) else if sel = 0x10 then some (wordsS64 s.twin.timeOff, s) else none

/-- The row TWIN_MAILBOX_READ. -/
def execTwinMailboxRead (t : Nat) (path : Path) (sel tag : Nat) (s : State) : Host.Outcome State Fault Refusal :=
  .next (mbxServe (s.at t) path bTWIN sel tag (twinCapture sel))

end Sys2Proof.Machine
end

