-- ==== Sys2Proof/Machine/Fab.lean ====
section
/-!
DEFINITION. The Ubley fabric (chapter 15): lanes (R367, R368, R374), membership (R369 to R372), paths (R125), fabric time (R375, R376), PTP
over it (R377), fabric flows (R378 to R381, R386) and the registers as read (R389, R390). What a fabric APPLY adds stands with APPLY.
-/
namespace Sys2Proof.Machine

/-- The row LANE_HELLO_TX: the lane has block lock and sends a hello. -/
def execLaneHelloTx (t : Nat) (lane : Nat) (s : State) : Host.Outcome State Fault Refusal :=
  .next (
    let s0 := s.at t
    if fabHere s0 lane then
      let x := fabLane s0 lane
      fabSend (setFabLane s0 lane { x with lock := true }) lane (.hello lane ⟨ownSerial s0, lane, x.neigh.map (fun n => n.1)⟩)
    else s0)

/-! ### Membership and topology (R369 to R372) -/

/-- Whether a member is eligible as time master: 1 for this member by its own state, the others by their records (R375). -/
def tmEligible (s : State) (d : Nat) : Bool :=
  (fabRecs s).any (fun r => fabId s r.serial == some d && r.elig && !r.freerun && !r.follows)

/-- TIME_VALID falls. -/
def fabTimeFall (s : State) : State :=
  if s.fab.valid then
    ({ s with fab := { s.fab with valid := false, skewBad := 0, skewGood := 0 } }.raise FAB.CAUSE 7).emit .fabric 0xC009 sevWARNING 0 []
  else s

/-- The time master is chosen anew, as the topology, this member's clock state or FAB.CTL changes; a change makes fabric time invalid until 16
messages in a row have come. -/
def fabMaster (s : State) : State :=
  let m := if fabFormed s then (fabPresent s).find? (tmEligible s) else none
  if m = s.fab.tm then (if m = some (myId s) then fabTimeFall s else s)
  else { fabTimeFall s with fab := { (fabTimeFall s).fab with tm := m, tmRun := 0 } }

/-- A member is lost, or returns (R371). -/
def fabMemberGone (s : State) (d : Nat) : State := (s.raise FAB.CAUSE 2).emit .fabric 0xC005 sevWARNING d []
def fabMemberBack (s : State) (d : Nat) : State := (s.raise FAB.CAUSE 3).emit .fabric 0xC006 sevNOTICE d []
def fabStranger (s : State) : State :=
  (s.raise FAB.CAUSE 4).emit .fabric 0xC007 sevNOTICE 0 []

/-- The topology has changed: the reachable devices, the present members and the time master follow it (R369, R371). The record of a device that is no
longer reachable is forgotten, so that the device starts anew when it returns. -/
def fabTopology (s : State) : State :=
  if !fabPart s then fabMaster s
  else
    let now := fabReach s
    let s1 :=
      if now = s.fab.reach then s
      else { s with fab := { s.fab with reach := now, changeAt := s.now
                                        recs := s.fab.recs.filter (fun r => now.contains r.serial || !s.fab.reach.contains r.serial) } }
    let s2 :=
      if s1.fab.st = .formed then
        let new := ofBits ((List.range s1.fab.formed.length).filter (fun d => now.contains (s1.fab.formed.getD d 0)))
        let old := s1.fab.present
        let a := { s1 with fab := { s1.fab with present := new } }
        let b := ((bitsOf 64 old).filter (fun d => !bit new d)).foldl fabMemberGone a
        let c := ((bitsOf 64 new).filter (fun d => !bit old d)).foldl fabMemberBack b
        (now.filter (fun x => !s.fab.formed.contains x && !s.fab.reach.contains x)).foldl (fun st _ => fabStranger st) c
      else s1
    fabMaster s2

/-- This member floods its record over all its up lanes (R369). -/
def fabFlood (s : State) (form : Bool) : State :=
  let s1 := { s with fab := { s.fab with ver := s.fab.ver + 1 } }
  if fabPart s then (fabUp s1).foldl (fun st k => fabSend st k (.link k (ownRecord s1 form))) s1 else s

/-- A lane goes down: the flag, the record, and the counter of lane-down events. -/
def fabLaneDown (s : State) (k : Nat) : State :=
  let x := fabLane s k
  if x.up then
    let s1 := fabCount (setFabLane s k { x with up := false, hellos := [], samples := [] }) (4 * (0x100 + k) + 3) 1
    fabFlood (fabTopology ((s1.raise FAB.CAUSE 1).emit .fabric 0xC002 sevWARNING k [])) false
  else s

/-- A hello on a lane: three within 3 ms, the last of them showing this member's serial as heard, bring the lane up; a loop to the own
device, a delay above 100 ns, or TWIN_FORCE.EN keep it down (R367, R368). -/
def laneHello (s : State) (k : Nat) (h : LaneHello) : State :=
  let x := fabLane s k
  let refuse := if fabTwin s then 3 else if h.serial = ownSerial s then 1 else if x.refuse = 2 then 2 else 0
  let hs := (s.now :: x.hellos).take 3
  let y := { x with lock := true, hellos := hs, neigh := some (h.serial, h.lane), refuse := refuse }
  let s1 := fabCount (setFabLane s k y) (4 * (0x100 + k) + 1) 1
  if refuse ≠ 0 then fabLaneDown s1 k
  else if !x.up && hs.length == 3 && decide (s.now ≤ hs.getD 2 0 + ms 3) && h.heard == some (ownSerial s) then
    let s2 := setFabLane s1 k { y with up := true }
    fabFlood (fabTopology ((s2.raise FAB.CAUSE 0).emit .fabric 0xC001 sevNOTICE k [])) false
  else fabTopology s1

/-- The row LANE_HELLO_RECEIVED. -/
def execLaneHelloReceived (t : Nat) (lane : Nat) (hello : LaneHello) (s : State) : Host.Outcome State Fault Refusal :=
  .next (if fabHere (s.at t) lane then laneHello (s.at t) lane hello else s.at t)

/-- The row LANE_HELLO_TIMEOUT: no hello for 3 ms. -/
def execLaneHelloTimeout (t : Nat) (lane : Nat) (s : State) : Host.Outcome State Fault Refusal :=
  .next (
    let s0 := s.at t
    if fabHere s0 lane && decide ((fabLane s0 lane).hellos.headD 0 + ms 3 ≤ s0.now) then fabLaneDown s0 lane else s0)

/-- The row UBLEY_BLOCK_LOCK_LOSS. -/
def execUbleyBlockLockLoss (t : Nat) (lane : Nat) (s : State) : Host.Outcome State Fault Refusal :=
  .next (
    let s0 := s.at t
    if fabHere s0 lane then
      let s1 := fabLaneDown s0 lane
      setFabLane s1 lane UbLaneS.init
    else s0)

/-- The row LANE_DELAY_EXCHANGE: `trip` is the round trip and `residence` the far end's residence time, in units of 10 ps. The delay is half of what is
left; the mean of the last 16 counts, and a mean above 100 ns refuses the lane. -/
def execLaneDelayExchange (t : Nat) (lane trip residence : Nat) (s : State) : Host.Outcome State Fault Refusal :=
  .next (
    let s0 := s.at t
    let x := fabLane s0 lane
    if fabHere s0 lane && x.up then
      let l := ((trip - residence) :: x.samples).take 16
      let d := (l.foldl (· + ·) 0) / (2 * l.length)
      let s1 := setFabLane s0 lane { x with samples := l, delay := Nat.min d 65535, refuse := if 10000 < d then 2 else x.refuse }
      if 10000 < d then fabLaneDown s1 lane else s1
    else s0)

/-- The row LINK_STATE_TX. -/
def execLinkStateTx (t : Nat) (s : State) : Host.Outcome State Fault Refusal :=
  .next (if fabPart (s.at t) then fabTopology (fabFlood (s.at t) false) else s.at t)

/-! ### Forming (R370, R371) -/

/-- A fabric flow, and replacing it. -/
def fabFlow (s : State) (f : Nat) : FabFlowS := Tbl.getD s.fab.flows f .init
def setFabFlow (s : State) (f : Nat) (x : FabFlowS) : State := { s with fab := { s.fab with flows := Tbl.put s.fab.flows f x } }

/-- The definition of fabric flow f by word 0 of its entry (Table 15-7). -/
def fabDefOf (f : Nat) (w : Word) : FabDef :=
  ⟨f, FAB.FLOW_W0_SRC_DEV.get w, FAB.FLOW_W0_DST_DEV.get w, FAB.FLOW_W0_NCH.get w, FAB.FLOW_W0_RATE.get w, FAB.FLOW_W0_G.get w⟩
def fabDef (s : State) (f : Nat) : FabDef := (fabFlow s f).d

/-- The receive channels of a flow that is DOWN carry zero samples marked invalid. -/
def fabSilence (s : State) (f : Nat) : State :=
  let d := fabDef s f
  if d.dst = myId s then
    (List.range d.nch).foldl (fun st c => srcPut st (7168 + (fabFlow s f).rxBase + c) s.time.stc smpBad) s
  else s

/-- A flow is DOWN from now on. -/
def fabFlowOff (s : State) (f : Nat) : State :=
  let x := fabFlow s f
  if x.st = 1 then fabSilence (setFabFlow s f { x with st := 2, buf := [] }) f else s

/-- A flow goes DOWN for want of a path (R386). -/
def fabFlowDown (s : State) (f : Nat) : State :=
  if (fabFlow s f).st = 1 then ((fabFlowOff s f).raise FAB.CAUSE 6).emit .fabric 0xC00C sevWARNING 0 [f] else s

/-- A flow is DOWN until the next APPLY. -/
def fabFlowKeep (s : State) (f : Nat) : State :=
  let x := fabFlow s f
  if x.st = 0 then s else setFabFlow s f { x with stopped := true }
def fabFlowStop (s : State) (f : Nat) : State := fabFlowKeep (fabFlowDown s f) f

/-- Every fabric flow goes through an operation, in ascending order. -/
def fabFlows (s : State) (g : State → Nat → State) : State := (s.fab.flows.map (fun e => e.1)).foldl g s

/-- The member takes no part from now on: every fabric flow it would hold is DOWN, and there is no time master (R388; CTL.EN at 0 acts alike, log
entry 66). With TWIN_FORCE.EN at 1 its lanes go down as well. -/
def fabLeave (s : State) : State :=
  let s1 := if fabTwin s then (fabUp s).foldl fabLaneDown s else s
  fabMaster (fabFlows s1 fabFlowDown)

/-- The fabric forms, or forms anew, from the devices reachable now; every fabric flow stops until the next APPLY. With more than 64 devices it does
not form, and no ID stays assigned. -/
def fabForm (s : State) : State :=
  let s0 := s.setFld FAB.CTL FAB.CTL_FORM 0
  if !fabPart s0 then s0
  else
    let l := fabReach s0
    let s1 := fabFlows s0 fabFlowStop
    if 64 < l.length then
      fabMaster ({ s1 with fab := { s1.fab with st := .refused, reach := l, formed := [], present := 0, routes := [] } }.emit .fabric 0xC004 sevERROR 0 [])
    else
      let s2 := { s1 with fab := { s1.fab with st := .formed, formed := l, reach := l, present := 2 ^ l.length - 1 } }
      fabMaster ({ s2 with fab := { s2.fab with routes := fabRoutes s2 } }.emit .fabric 0xC003 sevNOTICE 0 [])

/-- The row FABRIC_FORM_TIMER: the number of reachable devices has equalled EXPECT for 100 ms without change. -/
def execFabricFormTimer (t : Nat) (s : State) : Host.Outcome State Fault Refusal :=
  .next (
    let s0 := s.at t
    let e := s0.fld FAB.CTL FAB.CTL_EXPECT
    if fabPart s0 && s0.fab.st != .formed && e != 0 && (fabReach s0).length == e && decide (s0.fab.changeAt + ms 100 ≤ s0.now) then fabForm s0
    else s0)

/-- The row LINK_STATE_RECORD: a newer record of another device is kept and forwarded once; FORM written there forms the fabric here. -/
def execLinkStateRecord (t : Nat) (lane : Nat) (rec : LinkState) (s : State) : Host.Outcome State Fault Refusal :=
  .next (
    let s0 := s.at t
    if !(fabPart s0 && fabHere s0 lane && (fabLane s0 lane).up) then s0
    else
      let c := fabCount s0 (4 * (0x100 + lane) + 1) 1
      if rec.serial = ownSerial s0 ∨ s0.fab.recs.any (fun r => r.serial == rec.serial && decide (rec.ver ≤ r.ver)) = true then c
      else
        let s1 := { c with fab := { c.fab with recs := c.fab.recs.filter (fun r => r.serial != rec.serial) ++ [rec] } }
        let s2 := ((fabUp s1).filter (fun k => k != lane)).foldl (fun st k => fabSend st k (.link k rec)) s1
        let s3 := fabTopology s2
        if rec.form then fabForm s3 else s3)

/-! ### Paths (R125) -/

/-- A candidate path: busiest lane's reservation, and the lane directions. -/
abbrev PathC := Nat × List (Nat × Nat)

/-- The better of two candidates for one node by its first edges: the less busy, then the lower lane, then the lower next ID (R125). -/
def pathBetter (a b : Nat × Nat × Nat × PathC) : Bool :=
  decide (a.1 < b.1) || (a.1 == b.1 && (decide (a.2.1 < b.2.1) || (a.2.1 == b.2.1 && decide (a.2.2.1 ≤ b.2.2.1))))

/-- Best paths to t from every node at k hops: (node, candidate). -/
def bestPaths (edges : List (Nat × Nat × Nat)) (load : Nat × Nat → Nat) (t : Nat) (d : List (Nat × Nat)) : Nat → List (Nat × PathC)
  | 0 => [(t, (0, []))]
  | k + 1 =>
    let prev := bestPaths edges load t d k
    (d.filter (fun x => x.2 == k + 1)).filterMap (fun x =>
      let cs := (edges.filter (fun e => e.1 == x.1)).filterMap (fun e =>
        (prev.find? (fun p => p.1 == e.2.2)).map (fun p => (Nat.max (load (e.1, e.2.1)) p.2.1, e.2.1, e.2.2, (p.2.1, (e.1, e.2.1) :: p.2.2))))
      match cs with
      | [] => none
      | c :: r =>
        let b := r.foldl (fun acc y => if pathBetter acc y then acc else y) c
        some (x.1, (b.1, b.2.2.2.2)))

/-- The path that R125 gives from one member to another. -/
def fabPath (edges : List (Nat × Nat × Nat)) (load : Nat × Nat → Nat) (a b : Nat) : Option (List (Nat × Nat)) :=
  let d := fabDist edges b
  match hopsOf d a with
  | none => none
  | some h => ((bestPaths edges load b d h).find? (fun p => p.1 == a)).map (fun p => p.2.2)

/-! ### The terms of fabric flows (R379, R381) -/

/-- Bytes of a flow's cells (Table 15-1), and their line time in units of 10 ps. -/
def cellLen (d : FabDef) : Nat := 20 + 4 * (d.nch * d.g) + 4 * cdiv (d.nch * d.g) 32
def cellLine (d : FabDef) : Nat := (cellLen d + 12) * 32

/-- A flow with its path and read-out delay. -/
abbrev FabPlan := FabDef × List (Nat × Nat) × Nat

/-- The flows on a lane direction. -/
def onLane (l : List FabPlan) (x : Nat × Nat) : List FabPlan := l.filter (fun p => p.2.1.contains x)

/-- Load of a lane direction: line time × cells per second, in units of 10 ps × 720,720⁻¹ per second. -/
def laneLoad (base : Nat) (l : List FabPlan) (x : Nat × Nat) : Nat :=
  ((onLane l x).map (fun p => cellLine p.1 * (base * 2 ^ p.1.rate) * (720720 / Nat.max 1 p.1.g))).foldl (· + ·) 0
def laneFull (base : Nat) (l : List FabPlan) (x : Nat × Nat) : Bool := decide (90000000000 * 720720 < laneLoad base l x)

/-- The hop term of a lane direction in units of 10 ps (R381). -/
def hopTerm (l : List FabPlan) (x : Nat × Nat) : Nat := 31400 + ((onLane l x).map (fun p => cellLine p.1)).foldl (· + ·) 0

/-- A hop term exceeds the cell period of a flow on its lane. -/
def hopLong (base : Nat) (l : List FabPlan) (x : Nat × Nat) : Bool :=
  (onLane l x).any (fun p => decide (p.1.g * 100000000000 < hopTerm l x * (base * 2 ^ p.1.rate)))

/-- The hop terms of a path with the packing time of its first hop, in ns. -/
def hopsNs (base : Nat) (l : List FabPlan) (p : FabPlan) : Fr :=
  frAdd ((p.2.1.map (hopTerm l)).foldl (· + ·) 0, 100) ((p.1.g - 1) * 1000000000, base * 2 ^ p.1.rate)

/-- The transit T_F of a flow in ns; `spread` is MAX_SPREAD in units of 0.1 %. -/
def transitNs (base spread : Nat) (l : List FabPlan) (p : FabPlan) : Fr :=
  frAdd (frAdd (80 * 1000, 1000 - spread) (13072, 100)) (hopsNs base l p)

/-- The read-out delay L_F. -/
def readDelay (base spread : Nat) (l : List FabPlan) (p : FabPlan) : Nat :=
  let t := transitNs base spread l p
  cdiv (t.1 * (base * 2 ^ p.1.rate)) (t.2 * 1000000000)

/-! ### Rebuild (R373, R386) -/

/-- The path of a flow still has every lane up. -/
def pathWhole (edges : List (Nat × Nat × Nat)) (p : List (Nat × Nat)) : Bool := p.all (fun x => edges.any (fun e => e.1 == x.1 && e.2.1 == x.2))

/-- MAX_SPREAD of the placement in force. -/
def maxSpread (s : State) : Nat := match s.place.now with | some p => p.maxSpread | none => 0

/-- The new exact bound of the flow that feeds fabric flow f on this member, with its hop terms (R386). -/
def feedBound (fl : FlowP) (hops : Fr) : Nat := frCeil (frAdd fl.rest hops)
def feeds (f : Nat) (fl : FlowP) : Bool := fl.dstKind == 5 && fl.dstIdx == f

/-- Whether a path for a flow passes the checks of R381 and R386 among the flows that stand. -/
def pathPasses (s : State) (l : List FabPlan) (p : FabPlan) : Bool :=
  let base := baseRate s
  let all := p :: l
  let touched := all.filter (fun q => q.2.1.any (fun x => p.2.1.contains x))
  p.2.1.all (fun x => !laneFull base all x && !hopLong base all x) &&
  touched.all (fun q => decide (readDelay base (maxSpread s) all q ≤ q.2.2)) &&
  (placedFlows s).all (fun fl => !feeds p.1.f fl || decide (feedBound fl (hopsNs base all p) ≤ fl.boundNs))

/-- FLOW_BOUND of the flow that feeds f is updated. -/
def feedUpdate (s : State) (f : Nat) (hops : Fr) : State :=
  match s.place.now with
  | some p =>
    { s with place := { s.place with now := some { p with flows := p.flows.map (fun fl => if feeds f fl then { fl with bound := feedBound fl hops } else fl) } } }
  | none => s

/-- The flows that stand: UP with a whole path. -/
def fabStand (s : State) (edges : List (Nat × Nat × Nat)) : List FabPlan :=
  s.fab.flows.filterMap (fun e => if e.2.st = 1 ∧ pathWhole edges e.2.path = true then some (fabDef s e.1, e.2.path, e.2.lF) else none)

/-- One flow at a rebuild. `l` holds the flows that stand. -/
def fabReroute (s : State) (edges : List (Nat × Nat × Nat)) (f : Nat) : State :=
  let x := fabFlow s f
  let d := fabDef s f
  if x.st = 0 ∨ (x.st = 1 ∧ pathWhole edges x.path = true) then s
  else if x.stopped then fabFlowDown s f
  else
    let l := fabStand s edges
    match fabPath edges (laneLoad (baseRate s) l) d.src d.dst with
    | none => fabFlowDown s f
    | some p =>
      if pathPasses s l (d, p, x.lF) then
        let s1 := setFabFlow s f { x with st := 1, path := p }
        let s2 := if x.st = 2 then s1.emit .fabric 0xC00D sevNOTICE 0 [f] else s1
        if d.src = myId s then feedUpdate s2 f (hopsNs (baseRate s) ((d, p, x.lF) :: l) (d, p, x.lF)) else s2
      else fabFlowDown s f

/-- The row ROUTE_REBUILD: routing entries are rebuilt and the fabric flows evaluated in ascending order. A rebuild while a fabric APPLY is
between its steps 5 and 7 is remembered (R384). -/
def execRouteRebuild (t : Nat) (s : State) : Host.Outcome State Fault Refusal :=
  .next (
    let s0 := fabTopology (s.at t)
    if !fabFormed s0 then s0
    else
      let e := fabEdges s0
      let s1 := { s0 with fab := { s0.fab with routes := fabRoutes s0, rebuilt := true } }
      let s2 := fabFlows s1 (fun st f => fabReroute st e f)
      (s2.raise FAB.CAUSE 5).emit .fabric 0xC008 sevNOTICE 0 [])

/-- A software write of word 0 of entry f has been stored over `old`: three effects, and no other (R378). -/
def fabFlowWritten (s : State) (f : Nat) (old : Word) : State :=
  if s.rd (FAB.FLOW_W0 f) = old then s
  else (fabFlowKeep (fabFlowOff s f) f).emit .fabric 0xC00B sevWARNING 0 [f]

/-! ### Fabric time (R375, R376) -/

/-- The row FABRIC_TIME_TX: this member is the time master and sends its STC. -/
def execFabricTimeTx (t : Nat) (s : State) : Host.Outcome State Fault Refusal :=
  .next (
    let s0 := fabMaster (s.at t)
    if fabFormed s0 && s0.fab.tm == some (myId s0) then
      (treeLanes s0 (myId s0)).foldl (fun st k => fabSend st k (.time k (myId s0) s0.stc8)) s0
    else s0)

/-- The row FABRIC_TIME_MESSAGE: `stc8` is the time the message carries, in 2⁻⁸ ns, and `residence` the time it spends in this member. Messages less
than 2 ms apart are consecutive (DEDUCED, log entry 66). -/
def execFabricTimeMessage (t : Nat) (lane tm : Nat) (stc8 : Int) (residence : Nat) (s : State) : Host.Outcome State Fault Refusal :=
  .next (
    let s0 := fabMaster (s.at t)
    let x := fabLane s0 lane
    if !(fabFormed s0 && fabHere s0 lane && x.up) then s0
    else
      let c := fabCount s0 (4 * (0x100 + lane) + 1) 1
      let here := stc8 + (x.delay : Int) * 256 / 100
      let fwd := ((treeLanes c tm).filter (fun k => k != lane)).foldl (fun st k => fabSend st k (.time k tm (here + (residence : Int)).toNat)) c
      if s0.fab.tm ≠ some tm ∨ tm = myId s0 then fwd
      else
        let n := if s0.fab.valid then 16 else if s0.now < s0.fab.tmAt + ms 2 then Nat.min 16 (s0.fab.tmRun + 1) else 1
        let ft := here - (s0.stc8 : Int)
        let s1 := { fwd with fab := { fwd.fab with tmRun := n, tmAt := s0.now, ft := ft, valid := decide (16 ≤ n) } }
        if !s1.fab.valid then s1
        else
          let bad := decide (25600 < ft.natAbs)
          let s2 := { s1 with fab := { s1.fab with skewBad := if bad then Nat.min 10 (s1.fab.skewBad + 1) else 0
                                                   skewGood := if bad then 0 else Nat.min 100 (s1.fab.skewGood + 1) } }
          if !s2.fab.skew && decide (10 ≤ s2.fab.skewBad) then
            ({ s2 with fab := { s2.fab with skew := true } }.raise FAB.CAUSE 8).emit .fabric 0xC00A sevWARNING (myId s2) []
          else if s2.fab.skew && decide (100 ≤ s2.fab.skewGood) then { s2 with fab := { s2.fab with skew := false } }
          else s2)

/-! ### PTP over the fabric (R377) -/

/-- A message of instance 5 that came from member `src` on a lane: its correctionField takes the delay of the lane, and its copies for the members
beyond the residence time as well. -/
def fabPtpOn (s : State) (lane src residence : Nat) (m : PtpMsg) : State × PtpMsg :=
  let x := fabLane s lane
  if !(fabFormed s && fabHere s lane && x.up) then (s, m)
  else
    let c := fabCount s (4 * (0x100 + lane) + 1) 1
    let here := { m with corr := m.corr + ((x.delay * 65536 / 100 : Nat) : Int) }
    (((treeLanes c src).filter (fun k => k != lane)).foldl (fun st k =>
      fabSend st k (.ptpOn k src { here with corr := here.corr + ((residence * 256 : Nat) : Int) })) c, here)

/-- The row PTP_MESSAGE_RECEIVED: `len` is the length of the frame that carried the message, FCS included, whose last bit has just arrived. For instance 5
`lane` and `src` tell where it came from, and `residence` the time it spends in this member, in 2⁻⁸ ns. -/
def execPtpMessageReceived (t : Nat) (inst len lane src residence : Nat) (msg : PtpMsg) (s : State) : Host.Outcome State Fault Refusal :=
  .next (
    let r := if inst = 5 then fabPtpOn (s.at t) lane src residence msg else (s.at t, msg)
    if ptpRuns r.1 inst then ptpReceive (ptpWake r.1 inst) inst len r.2 else r.1)

/-! ### Cells (R379, R380) -/

/-- Rate of a flow in Hz. -/
def fabHz (s : State) (d : FabDef) : Nat := Nat.max 1 (rateHz s d.rate)

/-- The bytes of a cell but for its CRC. -/
def cellBody (src dst ttl f g m : Nat) (smp : List Smp) : List Byte :=
  [BitVec.ofNat 8 1, BitVec.ofNat 8 src, BitVec.ofNat 8 dst, BitVec.ofNat 8 ttl] ++ leBytes 2 f ++ [BitVec.ofNat 8 g, 0] ++ leBytes 8 m ++
  smp.flatMap (fun x => leBytes 4 (if x.ok then x.v else 0)) ++
  (List.range (cdiv smp.length 32)).flatMap (fun w => leBytes 4 (ofBits ((List.range 32).filter (fun i => (smp.getD (32 * w + i) smpBad).ok))))

/-- A cell with its CRC. -/
def withCrc (l : List Byte) : List Byte := l ++ leBytes 4 (crc32 l)

/-- A cell is counted as sent on its lane. -/
def cellOut (s : State) (lane : Nat) (l : List Byte) : State := fabSend s lane (.cell lane l)

/-- The row CELL_SEND: the newest whole cell of the flow, once. -/
def execCellSend (t : Nat) (flow : Nat) (s : State) : Host.Outcome State Fault Refusal :=
  .next (
    let s0 := s.at t
    let d := fabDef s0 flow
    let x := fabFlow s0 flow
    let g := Nat.max 1 d.g
    let n := s0.time.stc * fabHz s0 d / stcSec 1 + 1
    let m := (n / g - 1) * g
    if !(fabFormed s0 && x.st == 1 && d.src == myId s0 && decide (g ≤ n) && decide (x.sent ≤ m)) then s0
    else
      let smp := (List.range g).flatMap (fun j => (List.range d.nch).map (fun c =>
        outAt s0 bFAB 4 (7168 + x.txBase + c) (mediaAt (fabHz s0 d) (m + j))))
      let s1 := fabCount (setFabFlow s0 flow { x with sent := m + g }) (4 * flow) 1
      match x.path with
      | (_, l) :: _ => cellOut s1 l (withCrc (cellBody d.src d.dst 63 flow g m smp))
      | [] => s1)

/-- A cell is discarded and counted: position 2 late or too early, 3 CRC or TTL. -/
def cellDrop (s : State) (f pos : Nat) : State := (fabCount s (4 * (f % 256) + pos) 1).raise FAB.CAUSE 9

/-- A cell for this member. -/
def cellHere (s : State) (d : FabDef) (c : List Byte) : State :=
  let f := d.f
  let m := leAt c 8 8
  let x := fabFlow s f
  let fs := fabHz s d
  let s1 := fabCount s (4 * f + 1) 1
  let next := s.time.stc * fs / stcSec 1 + 1 - x.lF
  if x.st ≠ 1 ∨ mediaAt fs (m + x.lF) ≤ s.time.stc ∨ next + 512 ≤ m then cellDrop s1 f 2
  else
    let put := fun (b : Tbl Smp) (i : Nat) =>
      let ok := bit (byteAt c (16 + 4 * d.nch * d.g + i / 8)) (i % 8)
      Tbl.put b (i % d.nch * 512 + (m + i / d.nch) % 512) (if ok then ⟨leAt c (16 + 4 * i) 4, true, none⟩ else smpBad)
    setFabFlow s1 f { x with buf := (List.range (d.nch * d.g)).foldl put x.buf }

/-- The row CELL_RECEIVED. -/
def execCellReceived (t : Nat) (lane : Nat) (cell : List Byte) (s : State) : Host.Outcome State Fault Refusal :=
  .next (
    let s0 := s.at t
    if !(fabFormed s0 && fabHere s0 lane && (fabLane s0 lane).up) then s0
    else
      let c := fabCount s0 (4 * (0x100 + lane) + 1) 1
      let f := leAt cell 4 2
      let d := fabDef c f
      let body := cell.take (cell.length - 4)
      if cell.length ≠ cellLen d ∨ leAt cell (cell.length - 4) 4 ≠ crc32 body ∨ byteAt cell 0 ≠ 1 ∨ 255 < f ∨ byteAt cell 6 ≠ d.g then
        cellDrop (fabCount c (4 * (0x100 + lane) + 2) 1) f 3
      else if byteAt cell 2 = myId c then cellHere c d cell
      else if byteAt cell 3 = 0 then cellDrop c f 3
      else match (fabFlow c f).path.find? (fun x => x.1 == myId c) with
        | some (_, l) => cellOut c l (withCrc (body.take 3 ++ [BitVec.ofNat 8 (byteAt cell 3 - 1)] ++ body.drop 4))
        | none => cellDrop c f 3)

/-- Sample m of a flow is read out as the source value from its read-out instant on, and its positions are marked empty. -/
def readOut (s : State) (d : FabDef) (m : Nat) : State :=
  let x := fabFlow s d.f
  let s1 := (List.range d.nch).foldl (fun st c =>
    srcPut st (7168 + x.rxBase + c) (mediaAt (fabHz s d) (m + x.lF)) (Tbl.getD x.buf (c * 512 + m % 512) smpBad)) s
  setFabFlow s1 d.f { x with read := m + 1, buf := (List.range d.nch).foldl (fun b c => b.del (c * 512 + m % 512)) x.buf }

/-- The row FABRIC_SAMPLE_READOUT: the samples whose read-out instants have come, each once, 512 of them at most. -/
def execFabricSampleReadout (t : Nat) (flow : Nat) (s : State) : Host.Outcome State Fault Refusal :=
  .next (
    let s0 := s.at t
    let d := fabDef s0 flow
    let x := fabFlow s0 flow
    let n := s0.time.stc * fabHz s0 d / stcSec 1
    let m := n - x.lF
    if !(s0.blkOn bFAB && x.st == 1 && d.dst == myId s0 && decide (x.lF ≤ n) && decide (x.read ≤ m)) then s0
    else
      let k := Nat.min 512 (m + 1 - x.read)
      (List.range k).foldl (fun st j => readOut st d (m + 1 - k + j)) s0)

/-! ### Registers as read (R389, R390) -/

/-- STATUS.STATE. -/
def fabState (s : State) : FabSt :=
  if !s.blkOn bFAB then .off else if fabTwin s then .twinned else if !s.flag FAB.CTL FAB.CTL_EN then .off
  else if s.fab.st = .formed then .formed else if s.fab.st = .refused then .refused else .discovering
def FabSt.code : FabSt → Nat
  | .off => 0 | .discovering => 1 | .formed => 2 | .twinned => 3 | .refused => 4

/-- FAB.STATUS as read. -/
def fabStatusWord (s : State) : Word :=
  let formed := fabState s == .formed
  let i := s.fab.tm == some (myId s) && formed
  BitVec.ofNat 32 ((fabState s).code + (if formed then 8 * myId s + 512 * fabCoord s + 2 ^ 15 * (fabPresent s).length else 0) +
    (if s.fab.valid || i then 2 ^ 22 * s.fab.tm.getD 0 else 0) + 2 ^ 28 * b2n s.fab.valid + 2 ^ 29 * b2n s.fab.skew + 2 ^ 30 * b2n i)

/-- LANE_STATUSk, MEMBERS and FORMED, ROUTEd as read (Table 15-5). -/
def laneStatusWord (s : State) (k : Nat) : Word :=
  let x := fabLane s k
  let n := x.neigh.getD (0, 0)
  BitVec.ofNat 32 (b2n x.up + 2 * b2n x.lock + (if x.up && fabState s == .formed then 4 * (fabId s n.1).getD 0 else 0) +
    256 * (n.2 % 8) + 2 ^ 11 * (if fabTwin s then 3 else x.refuse) + 2 ^ 13 * x.delay)
def membersWord (s : State) (i : Nat) : Word :=
  let v := if i < 2 then s.fab.present else if s.fab.st = .formed then 2 ^ s.fab.formed.length - 1 else 0
  BitVec.ofNat 32 (v / 2 ^ (32 * (i % 2)))
def routeWord (s : State) (d : Nat) : Word :=
  match s.fab.routes.find d with
  | some (l, h) => BitVec.ofNat 32 (l + 8 * h + 512 * b2n (bit s.fab.present d))
  | none => 0

/-- Words 1 to 3 of a fabric flow entry as read (Table 15-6). -/
def fabFlowWord (s : State) (f w : Nat) : Word :=
  let x := fabFlow s f
  if x.st = 0 then 0
  else if w = 1 then BitVec.ofNat 32 (x.txBase + 2 ^ 16 * x.rxBase)
  else if w = 2 then BitVec.ofNat 32 (x.lF + 2 ^ 9 * x.path.length + 2 ^ 15 * ((x.path.head?.map (fun p => p.2)).getD 0))
  else BitVec.ofNat 32 x.st

/-- What the FAB mailbox captures (Table 15-8). -/
def fabCapture (sel : Nat) (s : State) : Option (List Nat × State) :=
  if sel < 0x108 then
    let r := rcTake s.fab.ctr s.inst.ctrFab (ctrKeys sel)
    some (r.1.flatMap words64, { s with fab := { s.fab with ctr := r.2.1 }, inst := { s.inst with ctrFab := r.2.2 } })
  else if 0x200 ≤ sel ∧ sel < 0x240 then some (words64 (s.fab.formed.getD (sel - 0x200) 0), s)
  else if sel = 0x300 then some (wordsS64 (if s.fab.valid then s.fab.ft else 0), s)
  else none

/-- The row FAB_MAILBOX_READ. -/
def execFabMailboxRead (t : Nat) (path : Path) (sel tag : Nat) (s : State) : Host.Outcome State Fault Refusal :=
  .next (mbxServe (s.at t) path bFAB sel tag (fabCapture sel))

end Sys2Proof.Machine
end

