-- ==== Sys2Proof/Machine/Parity.lean ====
section
/-!
DEFINITION. Parity of the registers (R72, R73): mismatches, the policies applied to them, and how they end.
-/
namespace Sys2Proof.Machine

/-- The register at an address carries parity: it holds an RW, RWH or RWP field, or is a word of an entry of a double-banked table, and is not the
transfer buffer; and its block has power. -/
def parityReg (s : State) (a : Nat) : Bool :=
  s.present (blkOf a) && s.domOn (domainOf (blkOf a)) && !(decide (STORE.XFER_BUF 0 ≤ a) && decide (a < STORE.XFER_BUF 16384)) &&
  ((swapBank a != a && (regDesc a).isSome) || typeMask a (fun t => t == .rw || t == .rwh || t == .rwp) != 0)

/-- The mismatch of a register, if it has one: of one held once, and of a path's copy of one that each path has for itself. -/
def corruptOf (s : State) (own : Option Path) (a : Nat) : Option Corrupt :=
  s.host.corrupt.find? (fun c => c.addr == phys s.bankSel a && c.own == own)
def corruptAt (s : State) (a : Nat) : Option Corrupt := corruptOf s none a

/-- The registers that each host path has for itself (R91, R413), and a path's copy as the device uses it. -/
def perPath (a : Nat) : Bool := a == SYS.CMD_ARG0 || a == SYS.CMD_ARG1 || a == LOG.RD_SEQ
def State.pathWord (s : State) (p : Path) (a : Nat) : Nat :=
  if a = SYS.CMD_ARG0 then (s.path p).arg0 else if a = SYS.CMD_ARG1 then (s.path p).arg1 else (s.path p).rdSeq
def State.setPathWord (s : State) (p : Path) (a v : Nat) : State :=
  if a = SYS.CMD_ARG0 then s.setPath p { s.path p with arg0 := v } else if a = SYS.CMD_ARG1 then s.setPath p { s.path p with arg1 := v }
  else setCursor s p v

/-- The word of a register as a host reads it, corrupt bits included (R73). -/
def State.rdStored (s : State) (a : Nat) : Word := match corruptAt s a with | some c => BitVec.ofNat 32 c.stored | none => s.rd a

/-- A path's copy of a register as that path reads it, corrupt bits included (R73). -/
def State.pathStored (s : State) (p : Path) (a : Nat) : Nat :=
  match corruptOf s (some p) a with | some c => c.stored | none => s.pathWord p a

/-- Replace, or with no corrupt byte and nothing held drop, the mismatch of a register. -/
def putCorrupt (s : State) (c : Corrupt) : State :=
  { s with host := { s.host with corrupt := s.host.corrupt.filter (fun x => x.addr != c.addr || x.own != c.own) ++ [c] } }
def dropCorrupt (s : State) (own : Option Path) (addr : Nat) : State :=
  { s with host := { s.host with corrupt := s.host.corrupt.filter (fun x => x.addr != addr || x.own != own) } }

/-- One stored bit flips: (address, bit). Bits 32 to 63 name the PCIe path's copy of a register that each path has for itself. Two flips in one byte
leave its parity right, and the changed word is applied unnoticed. -/
def flipOne (s : State) (f : Nat × Nat) : State :=
  if !parityReg s f.1 then s
  else
    let k := f.2 % 32
    let p : Path := if f.2 / 32 % 2 = 0 then .spi else .pcie
    let own := if perPath f.1 then some p else none
    let now := if perPath f.1 then s.pathWord p f.1 else (s.rd f.1).toNat
    let c := (corruptOf s own f.1).getD ⟨phys s.bankSel f.1, own, now, 0, false⟩
    let x := { c with stored := c.stored ^^^ 2 ^ k, bad := c.bad ^^^ 2 ^ (k / 8) }
    if x.bad = 0 then
      (let s1 := dropCorrupt s own x.addr
       if perPath f.1 then s1.setPathWord p f.1 x.stored else s1.wr f.1 (BitVec.ofNat 32 x.stored))
    else putCorrupt s x

/-- A check finds a mismatch: PARITY_STATUS sets at every scan; the first time it is recorded, counts as a failed internal check, and the block's
policy is applied. An entry of an active table carries its policy alone; a shadow entry is checked when it becomes active. -/
def parityFound (s : State) (c : Corrupt) : State :=
  let a := phys s.bankSel c.addr
  let b := blkOf a
  if isShadow a || c.bad == 0 then s
  else
    let s1 := s.raise SYS.PARITY_STATUS b
    if c.seen then s1
    else
      let s2 := (bitsOf 4 c.bad).foldl (fun st k => st.emit (islandOf b) 0x0005 sevCRITICAL 0 [a, k]) (putCorrupt s1 { c with seen := true })
      let s3 := indicate s2 7
      if parityPolicy s b = 0 then { s3 with host := { s3.host with polHold := setBit s3.host.polHold b true } }
      else if parityPolicy s b = 1 then (if isActive a then s3 else { s3 with host := { s3.host with polMute := setBit s3.host.polMute b true } })
      else safeCause s3 scPARITY (!isActive a)

/-- The scan. -/
def parityScan (s : State) : State := s.host.corrupt.foldl parityFound s

/-- After a swap the corrupt entries that became active are checked; under HOLD_LAST each keeps the word that was active before. -/
def paritySwap (s : State) : State :=
  parityScan (s.host.corrupt.foldl (fun st c =>
    let a := phys st.bankSel c.addr
    if isActive a && parityPolicy st (blkOf a) == 0 then st.wr a (st.rd (swapBank a)) else st) s)

/-- The PARITY cause stands and is due to clear: no block bit set under policy SAFE stands and no corrupt register remains (Table 4-6). -/
def parityDone (s : State) : Bool :=
  bit s.cmd.safeCause scPARITY && s.host.corrupt.all (fun c => c.bad == 0) &&
  (List.range 19).all (fun b => !(bit (s.rd SYS.PARITY_STATUS).toNat b && parityPolicy s b == 2))

/-- The PARITY cause clears where it is due to. -/
def parityClear (s : State) : State := if parityDone s then clearCause s scPARITY else s

end Sys2Proof.Machine
end

