-- ==== Sys2Proof/Machine/Crypto.lean ====
section
/-!
DEFINITION. SHA-256, and the verification of an ECDSA signature on P-256, as FIPS 180-4 and FIPS 186-4 define them (R110, R111).
-/
namespace Sys2Proof.Machine

/-! ### SHA-256 -/

/-- A word of the hash. -/
abbrev ShaWord := BitVec 32

/-- The largest root r + (a number below 2 ^ k) whose power d does not exceed n: its low k bits are tried from the top. -/
def rootBelow (d n : Nat) : Nat → Nat → Nat
  | 0, r => r
  | k + 1, r => rootBelow d n k (if (r + 2 ^ k) ^ d ≤ n then r + 2 ^ k else r)

/-- The first 32 bits of the fraction of the d-th root of p, for p below 2 ^ 16. -/
def rootFraction (d p : Nat) : ShaWord := BitVec.ofNat 32 (rootBelow d (p * 2 ^ (32 * d)) 40 0)

/-- The primes below 312: the first 64. -/
def shaPrimes : List Nat :=
  (List.range 312).filter fun p => decide (2 ≤ p) && (List.range 18).all fun q => decide (q < 2) || p % q != 0 || p == q

/-- The constants of the rounds: fractions of the cube roots of the first 64 primes. -/
def shaRoundConsts : List ShaWord := shaPrimes.map (rootFraction 3)

/-- The exclusive or of a word's rotations to the right. -/
def turned (by_ : List Nat) (x : ShaWord) : ShaWord := by_.foldl (fun acc n => acc ^^^ x.rotateRight n) 0

/-- The eight words of a hash as two shift registers of four, newest word first: FIPS 180-4 names the first a, b, c and d and
the second e, f, g and h. -/
structure ShaPair where
  upper : List ShaWord
  lower : List ShaWord

/-- The word a window of sixteen schedule words leads to. -/
def shaFeed (win : List ShaWord) : ShaWord :=
  let early := win.getD 1 0
  let late := win.getD 14 0
  win.getD 0 0 + win.getD 9 0 + (turned [7, 18] early ^^^ early >>> 3) + (turned [17, 19] late ^^^ late >>> 10)

/-- The rounds that take the given constants: each takes the oldest word of the window, and both registers move on by a word. -/
def shaRounds : List ShaWord → List ShaWord → ShaPair → ShaPair
  | [], _, v => v
  | k :: ks, win, v =>
    let u := fun i => v.upper.getD i 0
    let l := fun i => v.lower.getD i 0
    let chosen := l 2 ^^^ (l 0 &&& (l 1 ^^^ l 2))
    let agreed := (u 0 &&& u 1) ||| (u 2 &&& (u 0 ||| u 1))
    let add := k + win.headD 0 + l 3 + chosen + turned [6, 11, 25] (l 0)
    shaRounds ks (win.drop 1 ++ [shaFeed win])
      { upper := (add + agreed + turned [2, 13, 22] (u 0)) :: v.upper.take 3
        lower := (u 3 + add) :: v.lower.take 3 }

/-- The hash after one more block of 64 bytes. -/
def shaAbsorb (v : ShaPair) (blk : List Byte) : ShaPair :=
  let win := (List.range 16).map fun i => BitVec.ofNat 32 (beAt blk (4 * i) 4)
  let w := shaRounds shaRoundConsts win v
  { upper := List.zipWith (· + ·) v.upper w.upper, lower := List.zipWith (· + ·) v.lower w.lower }

/-- The hash after n more blocks. -/
def shaStream : Nat → ShaPair → List Byte → ShaPair
  | 0, v, _ => v
  | n + 1, v, l => shaStream n (shaAbsorb v (l.take 64)) (l.drop 64)

/-- The hash before the first block: fractions of the square roots of the first eight primes. -/
def shaStart : ShaPair :=
  { upper := (shaPrimes.take 4).map (rootFraction 2), lower := ((shaPrimes.drop 4).take 4).map (rootFraction 2) }

/-- SHA-256 of a byte string, as 32 bytes: a bit 1, bits 0 and the length in bits complete the last block. -/
def sha256 (l : List Byte) : List Byte :=
  let m := l ++ 0x80 :: List.replicate ((119 - l.length % 64) % 64) 0 ++ beBytes 8 (8 * l.length)
  let v := shaStream (m.length / 64) shaStart m
  (v.upper ++ v.lower).flatMap fun x => beBytes 4 x.toNat

/-! ### P-256 -/

def p256p : Nat := 0xffffffff00000001000000000000000000000000ffffffffffffffffffffffff
def p256b : Nat := 0x5ac635d8aa3a93e7b3ebbd55769886bc651d06b0cc53b0f63bce3c3e27d2604b
def p256n : Nat := 0xffffffff00000000ffffffffffffffffbce6faada7179e84f3b9cac2fc632551
def p256gx : Nat := 0x6b17d1f2e12c4247f8bce6e563a440f277037d812deb33a0f4a13945d898c296
def p256gy : Nat := 0x4fe342e2fe1a7f9b8ee7eb4a7c0f9e162bce33576b315ececbb6406837bf51f5

/-- Power modulo m: the exponent's low k bits, most significant first. -/
def powMod (m b e : Nat) : Nat → Nat → Nat
  | 0, acc => acc
  | k + 1, acc => powMod m b e k (if e.testBit k then acc * acc % m * b % m else acc * acc % m)

/-- Inverse modulo a 256-bit prime. -/
def invMod (m a : Nat) : Nat := powMod m (a % m) (m - 2) 256 1

/-- Whether (x, y) is a point of the curve. -/
def onCurve (x y : Nat) : Bool :=
  decide (x < p256p) && decide (y < p256p) && y * y % p256p == (x * x % p256p * x + (p256p - 3) * x + p256b) % p256p

/-- A point in Jacobian coordinates; Z = 0 is the point at infinity. -/
abbrev Jac := Nat × Nat × Nat

/-- Twice a point. -/
def jacDouble (a : Jac) : Jac :=
  let p := p256p
  let (x, y, z) := a
  let zz := z * z % p
  let m := 3 * ((x + (p - zz)) % p) * ((x + zz) % p) % p
  let yy := y * y % p
  let s := 4 * x * yy % p
  let x3 := (m * m + 2 * (p - s)) % p
  (x3, (m * ((s + (p - x3)) % p) + 8 * (p - yy * yy % p)) % p, 2 * y * z % p)

/-- Sum of two points. -/
def jacAdd (a b : Jac) : Jac :=
  let p := p256p
  let (x1, y1, z1) := a
  let (x2, y2, z2) := b
  if z1 = 0 then b else if z2 = 0 then a
  else
    let u1 := x1 * (z2 * z2 % p) % p
    let u2 := x2 * (z1 * z1 % p) % p
    let s1 := y1 * (z2 * z2 % p * z2 % p) % p
    let s2 := y2 * (z1 * z1 % p * z1 % p) % p
    if u1 = u2 then (if s1 = s2 then jacDouble a else (1, 1, 0))
    else
      let h := (u2 + (p - u1)) % p
      let r := (s2 + (p - s1)) % p
      let hh := h * h % p
      let hhh := h * hh % p
      let v := u1 * hh % p
      let x3 := (r * r + (p - hhh) + 2 * (p - v)) % p
      (x3, (r * ((v + (p - x3)) % p) + (p - s1 * hhh % p)) % p, z1 * z2 % p * h % p)

/-- k times a point, by the low n bits of k, most significant first. -/
def jacMul (k : Nat) (q : Jac) : Nat → Jac → Jac
  | 0, acc => acc
  | n + 1, acc =>
    let d := jacDouble acc
    jacMul k q n (if k.testBit n then jacAdd d q else d)

/-- The affine x coordinate of a point that is not at infinity. -/
def jacX (a : Jac) : Nat := a.1 * (let i := invMod p256p a.2.2; i * i % p256p) % p256p

/-- Whether (r, s) is a signature of a message under the public key (x, y). -/
def ecdsaOk (msg : List Byte) (x y r s : Nat) : Bool :=
  if r = 0 ∨ s = 0 ∨ p256n ≤ r ∨ p256n ≤ s then false
  else
    let e := ofBe (sha256 msg)
    let w := invMod p256n s
    let q := jacAdd (jacMul (e * w % p256n) (p256gx, p256gy, 1) 256 (1, 1, 0)) (jacMul (r * w % p256n) (x, y, 1) 256 (1, 1, 0))
    q.2.2 != 0 && jacX q % p256n == r

end Sys2Proof.Machine
end

