-- ==== Sys2Proof/Machine/Container.lean ====
section
/-!
DEFINITION. The container of a configuration bitstream: its bytes in the source, and steps 1 to 3 of APPLY (R104 to R106, R109 to R111).
-/
namespace Sys2Proof.Machine

/-- A rejection (R129): code, flow, resource kind and index, proven bound, requested bound. -/
structure Rej where
  code : Nat
  flow : Nat
  kind : Nat
  index : Nat
  bound : Nat
  req : Nat
deriving DecidableEq, Repr

/-- A rejection that names no section, and one that names a section-table entry or a type. -/
def rejBare (code : Nat) : Rej := ⟨code, 0xFFFF, 0, 0xFFFF, 0, 0⟩
def rejSect (code index : Nat) : Rej := ⟨code, 0xFFFF, 0, index, 0, 0⟩

/-- A check: its rejection unless the condition holds. -/
def need (ok : Bool) (r : Rej) : Except Rej Unit := if ok then .ok () else .error r

/-- Add an address to a list of ranges. -/
def noteRange (a : Nat) : List (Nat × Nat) → List (Nat × Nat)
  | [] => [(a, a + 1)]
  | (lo, hi) :: r => if lo ≤ a ∧ a < hi then (lo, hi) :: r else if a = hi then (lo, hi + 1) :: r else (lo, hi) :: noteRange a r

/-- A byte of the media store during a load from it: one that the host has not written since the LOAD is a free value (R442). -/
def loadByte (s : State) (l : LoadS) (o : Nat) : Byte :=
  if l.wrote.any (fun r => decide (r.1 ≤ o) && decide (o < r.2)) then s.memB o else BitVec.ofNat 8 (Config.freeValue (l.freeAt + o))

/-- A byte of the memory window as it is read, and that the host has written one. -/
def storeByte (s : State) (a : Nat) : Byte :=
  match s.cmd.loading with
  | some l => if 4 ≤ l.src ∧ a < l.len then loadByte s l a else s.memB a
  | none => s.memB a
def noteStored (s : State) (a : Nat) : State :=
  match s.cmd.loading with
  | some l => if 4 ≤ l.src ∧ a < l.len then { s with cmd := { s.cmd with loading := some { l with wrote := noteRange a l.wrote } } } else s
  | none => s

/-- One byte of the source of a load: media-store offset o for a host source, and otherwise the partition, whose uncorrectable sectors read as
free values (log entry 21). -/
def srcByte (s : State) (l : LoadS) (o : Nat) : Byte :=
  if 4 ≤ l.src then loadByte s l o
  else if s.nand.bad.contains (sectorKey l.src (o / pageLen s) (o % pageLen s / 1024)) then BitVec.ofNat 8 (Config.freeValue (s.free + o))
  else nandByte s l.src o

/-- n bytes of the source from an offset. -/
def srcBytes (s : State) (l : LoadS) (o n : Nat) : List Byte := (List.range n).map (fun k => srcByte s l (o + k))

/-- Nothing is there (R109, R399, R412): no byte held, the partition's first page erased, or the medium failed. -/
def srcEmpty (s : State) (l : LoadS) : Bool :=
  if 4 ≤ l.src then l.len == 0 else s.nand.fault || !s.nand.ready || !pageUsed s l.src 0

/-- A section-table entry (Table 5-2). -/
structure Sect where
  idx : Nat
  typ : Nat
  zero : Nat
  off : Nat
  len : Nat
  crc : Nat
deriving DecidableEq, Repr

/-- A container whose table has been read. -/
structure Cont where
  bytes : List Byte
  sects : List Sect
  mask : Nat
  build : Nat
  policy : Nat
  signed : Bool
  sigOff : Nat
  configId : Nat
deriving DecidableEq, Repr

/-- The bytes of a section, and of the first section of a type (empty where the container has none). -/
def Cont.sect (c : Cont) (x : Sect) : List Byte := (c.bytes.drop x.off).take x.len
def Cont.find (c : Cont) (typ : Nat) : Option Sect := c.sects.find? (fun x => x.typ == typ)
def Cont.data (c : Cont) (typ : Nat) : List Byte := match c.find typ with | some x => c.sect x | none => []

/-- Where the sections end: SIG_OFF, or TOTAL_LEN. -/
def Cont.limit (c : Cont) : Nat := if c.signed then c.sigOff else c.bytes.length

/-- Entry i of a section table. -/
def readSect (b : List Byte) (i : Nat) : Sect :=
  let e := (b.drop (64 + 16 * i)).take 16
  ⟨i, leAt e 0 2, leAt e 2 2, leAt e 4 4, leAt e 8 4, leAt e 12 4⟩

/-- Whether two sections overlap. -/
def Sect.overlaps (x y : Sect) : Bool := decide (x.off < y.off + y.len) && decide (y.off < x.off + x.len)

/-- The checks of one section-table entry against the entries below it, in the order of R109. -/
def checkSect (c : Cont) (x : Sect) : Except Rej Unit := do
  let low := c.sects.filter (fun y => decide (y.idx < x.idx))
  need (x.zero == 0 && x.off % 16 == 0 && x.len != 0 && decide (64 + 16 * c.sects.length ≤ x.off) && decide (x.off + x.len ≤ c.limit) &&
        !low.any x.overlaps) (rejSect 0x014 x.idx)
  need (decide (0x8000 ≤ x.typ) || (decide (1 ≤ x.typ) && decide (x.typ ≤ 9))) (rejSect 0x017 x.idx)
  need (decide (0x8000 ≤ x.typ) || !low.any (fun y => y.typ == x.typ)) (rejSect 0x018 x.idx)

/-- Step 1 of APPLY: header, lengths, section layout and CRCs, section counts. -/
def applyStep1 (s : State) (l : LoadS) : Except Rej Cont := do
  let h := srcBytes s l 0 64
  let total := leAt h 8 4
  let signed := bit (leAt h 0x18 4) 0
  let sigOff := leAt h 0x1C 4
  need (!srcEmpty s l) (rejBare 0x019)
  need (leAt h 0 4 == 0x5A394346) (rejBare 0x010)
  need (leAt h 0x3C 4 == crc32 (h.take 0x3C)) (rejBare 0x012)
  need (leAt h 4 2 == 1 && leAt h 6 2 == 0x40 && decide (leAt h 0x0C 2 < 4096) && decide (leAt h 0x18 4 < 2) &&
        ((h.drop 0x20).take 28).all (fun b => b == 0)) (rejBare 0x011)
  need (decide (total ≤ l.len) && decide (total ≤ 25165824) && (if signed then sigOff + 136 == total else sigOff == 0)) (rejBare 0x013)
  let count := leAt h 0x0E 2
  need (decide (4 ≤ count) && decide (count ≤ 16)) (rejBare 0x014)
  let b := srcBytes s l 0 total
  let c : Cont := ⟨b, (List.range count).map (readSect b), leAt h 0x0C 2, leAt h 0x10 4, leAt h 0x14 4, signed, sigOff,
    crc32 ((b.drop 64).take (16 * count))⟩
  c.sects.forM (checkSect c)
  [1, 2, 3, 8].forM (fun t => need ((c.find t).isSome) (rejSect 0x016 t))
  c.sects.forM (fun x => need (crc32 (c.sect x) == x.crc) (rejSect 0x015 x.idx))
  pure c

/-- SYS.CHIP.STEPPING (Table 2-3). -/
def stepping : Nat := 1

/-- Step 2: the variant mask and the lowest stepping. -/
def applyStep2 (s : State) (c : Cont) : Except Rej Unit := do
  need (bit c.mask s.chip.fuses.code) (rejBare 0x020)
  need (decide (byteAt (c.data 1) 4 ≤ stepping)) (rejBare 0x021)

/-- Step 3 (Table 5-8): whether the bitstream is signed, and anchored in the fused key. -/
def applyStep3 (s : State) (c : Cont) : Except Rej (Bool × Bool) :=
  let fused := s.chip.fuses.keyHash
  if !c.signed then
    if fused = 0 ∧ s.flag SEC.CTL SEC.CTL_REQUIRE_SIG = false then .ok (false, false) else .error (rejBare 0x022)
  else
    let t := c.bytes.drop c.sigOff
    let key := (t.drop 4).take 65
    let x := beAt key 1 32
    let y := beAt key 33 32
    if leAt t 0 4 ≠ 0x5A395347 ∨ leAt t 0x45 3 ≠ 0 ∨ byteAt key 0 ≠ 4 ∨ onCurve x y = false then .error (rejBare 0x025)
    else if fused ≠ 0 ∧ ofLe (sha256 key) ≠ fused then .error (rejBare 0x023)
    else if ecdsaOk (c.bytes.take c.sigOff) x y (beAt t 0x48 32) (beAt t 0x68 32) then .ok (true, fused != 0)
    else .error (rejBare 0x024)

end Sys2Proof.Machine
end

