-- ==== Sys2Proof/Machine/Intent.lean ====
section
/-!
DEFINITION. The intent schema: the records of every section and step 4 of APPLY, which checks them in two passes (R107, R108, R113 to R118,
R163, R190, R253, R276, R312 to R314, R321, R378, R383).
-/
namespace Sys2Proof.Machine

/-! ### Records -/

/-- What step 4 depends on beside the bytes: the variant, and in a formed fabric the own ID and the number of members (R383). -/
structure IEnv where
  v : Variant
  formed : Option (Nat × Nat)
deriving DecidableEq, Repr

/-- A register image record (Table 5-4). -/
structure ImgR where
  dev : Nat
  block : Nat
  off : Nat
  vals : List Word
deriving DecidableEq, Repr

/-- A STREAMS record (R113): the 16 words of the entry image, and the 8-word row images. -/
structure StreamR where
  sid : Nat
  dir : Nat
  ports : Nat
  dev : Nat
  zero : Nat
  len : Nat
  words : List Word
  rows : List (List Word)
deriving DecidableEq, Repr

/-- A node record (Table 5-10), with its parameter block. -/
structure NodeR where
  id : Nat
  kernel : Nat
  nin : Nat
  nout : Nat
  cycles : Nat
  block : Nat
  rate : Nat
  memf : Nat
  dev : Nat
  xmem : Nat
  ymem : Nat
  pmem : Nat
  shared : Nat
  group : Nat
  fits : Bool
  params : List Byte
deriving DecidableEq, Repr

/-- A KERNELS record (R114), with MODES and the reserved byte as they stand. -/
structure KernR where
  p : ProgP
  zero : Nat
deriving DecidableEq, Repr

/-- A flow record (Table 5-11). -/
structure FlowR where
  id : Nat
  sk : Nat
  dk : Nat
  si : Nat
  di : Nat
  sc : Nat
  dc : Nat
  nch : Nat
  prio : Nat
  flags : Nat
  boundNs : Nat
  up : Nat
  zero : Bool
deriving DecidableEq, Repr

/-- A POLICY record as it stands (R116). -/
structure PolR where
  block : Nat
  carry : Nat
  count : Nat
  off : Nat
  mask : Nat
deriving DecidableEq, Repr

/-- The records of a container. A record that runs past its section reads as none. -/
structure Intent where
  family : Nat
  images : List (Option ImgR)
  streams : List (Option StreamR)
  nodes : List (Option NodeR)
  kerns : List (Option KernR)
  flows : List (Option FlowR)
  policy : List (Option PolR)
deriving DecidableEq, Repr

/-! ### Reading the sections -/

/-- n words of a byte string from an offset. -/
def wordsAt (b : List Byte) (o n : Nat) : List Word := (List.range n).map (fun i => BitVec.ofNat 32 (leAt b (o + 4 * i) 4))

/-- Register image records, laid end to end (R107). -/
def readImages : Nat → List Byte → List (Option ImgR)
  | 0, _ => []
  | k + 1, b =>
    let n := leAt b 2 2
    if b.isEmpty then []
    else if b.length < 8 ∨ n = 0 ∨ 1024 < n ∨ b.length < 8 + 4 * n then [none]
    else some ⟨byteAt b 1, byteAt b 0, leAt b 4 4, wordsAt b 8 n⟩ :: readImages k (b.drop (8 + 4 * n))

/-- Stream records. -/
def readStreams : Nat → List Byte → List (Option StreamR)
  | 0, _ => []
  | k + 1, b =>
    let n := leAt b 4 2
    if b.isEmpty then []
    else if b.length < 8 ∨ b.length < 8 + n then [none]
    else
      let rows := (n - 64) / 32
      some ⟨leAt b 0 2, byteAt b 2, byteAt b 3, byteAt b 6, byteAt b 7, n, wordsAt b 8 16,
            (List.range rows).map (fun r => wordsAt b (72 + 32 * r) 8)⟩ :: readStreams k (b.drop (8 + n))

/-- User programs. -/
def readKernels : Nat → List Byte → List (Option KernR)
  | 0, _ => []
  | k + 1, b =>
    let p := leAt b 4 4
    let x := leAt b 8 4
    let y := leAt b 12 4
    if b.isEmpty then []
    else if b.length < 16 ∨ b.length < 16 + up16 p + up16 x + up16 y then [none]
    else
      some ⟨⟨leAt b 0 2, byteAt b 2, (b.drop 16).take p, (b.drop (16 + up16 p)).take x, (b.drop (16 + up16 p + up16 x)).take y⟩, byteAt b 3⟩ ::
        readKernels k (b.drop (16 + up16 p + up16 x + up16 y))

/-- One node record of a NODES section. -/
def readNode (sec : List Byte) (i : Nat) : Option NodeR :=
  let b := (sec.drop (4 + 32 * i)).take 32
  if b.length < 32 then none
  else
    let o := leAt b 0x18 4
    let n := leAt b 0x1C 2
    some { id := leAt b 0 2, kernel := leAt b 2 2, nin := leAt b 4 2, nout := leAt b 6 2, cycles := leAt b 8 4, block := byteAt b 0x0C
           rate := byteAt b 0x0D, memf := byteAt b 0x0E, dev := byteAt b 0x0F, xmem := leAt b 0x10 2, ymem := leAt b 0x12 2
           pmem := leAt b 0x14 2, shared := leAt b 0x16 2, group := leAt b 0x1E 2
           fits := n == 0 || decide (o + n ≤ sec.length), params := (sec.drop o).take n }

/-- One flow record of a FLOWS section. -/
def readFlow (sec : List Byte) (i : Nat) : Option FlowR :=
  let b := (sec.drop (4 + 32 * i)).take 32
  if b.length < 32 then none
  else some { id := leAt b 0 2, sk := byteAt b 2, dk := byteAt b 3, si := leAt b 4 2, di := leAt b 6 2, sc := leAt b 8 2, dc := leAt b 0x0A 2
              nch := leAt b 0x0C 2, prio := byteAt b 0x0E, flags := byteAt b 0x0F, boundNs := leAt b 0x10 4, up := leAt b 0x14 2
              zero := ((b.drop 0x16).take 10).all (fun x => x == 0) }

/-- The records of an array with a leading count: a count outside its range reads as one broken record. -/
def readCounted {α : Type} (sec : List Byte) (lo hi : Nat) (f : List Byte → Nat → Option α) : List (Option α) :=
  let n := leAt sec 0 4
  if sec.length < 4 ∨ n < lo ∨ hi < n then [none] else (List.range n).map (f sec)

/-- POLICY records. -/
def readPolicy (sec : List Byte) : List (Option PolR) :=
  (List.range (cdiv sec.length 12)).map (fun i =>
    let b := (sec.drop (12 * i)).take 12
    if b.length < 12 then none else some ⟨byteAt b 0, byteAt b 1, leAt b 2 2, leAt b 4 4, leAt b 8 4⟩)

/-- The records of a container; image records of CLOCKS and PORTS stand in section-table order (R109). -/
def readIntent (c : Cont) : Intent :=
  let d := c.data 2
  { family := byteAt d 0x0A
    images := (c.sects.filter (fun x => x.typ == 3 || x.typ == 4)).flatMap (fun x => readImages x.len (c.sect x))
    streams := readStreams (c.data 5).length (c.data 5)
    nodes := if (c.find 6).isSome then readCounted (c.data 6) 0 1024 readNode else []
    kerns := readKernels (c.data 7).length (c.data 7)
    flows := readCounted (c.data 8) 1 4096 readFlow
    policy := readPolicy (c.data 9) }

/-! ### Absent instances -/

/-- A side of Table 11-2 is absent from a variant. -/
def sideAbsent (v : Variant) (x : Nat) : Bool :=
  if x < 64 then decide (v.tdm ≤ x / 2) else if x < 80 then decide (v.aes ≤ (x - 64) / 2) else decide (v.madi ≤ (x - 80) / 2)

/-- The register at offset o of block b belongs to a block or instance that the fuses make absent (R35, R38, R39). -/
def absentAt (v : Variant) (b o : Nat) : Bool :=
  if b = 13 then !v.twin
  else if b = 14 then v.ubley == 0 || (decide (0x200 ≤ o) && decide (o < 0x220) && decide (v.ubley ≤ (o - 0x200) / 4))
  else if b = 11 then decide (0x200 ≤ o) && decide (o < 0x400) && decide (v.tiles ≤ (o - 0x200) / 16)
  else if b = 10 then
    if 0x1000 ≤ o ∧ o < 0x2600 then sideAbsent v ((o - 0x1000) / 64)
    else if (0x3000 ≤ o ∧ o < 0x3100) ∨ (0x3200 ≤ o ∧ o < 0x3300) then decide (v.aes ≤ o % 256 / 32)
    else if 0x10000 ≤ o ∧ o < 0x10000 + 4 * 1296 then
      let x := (o - 0x10000) / 4
      if x < 1024 then decide (v.tdm ≤ x / 32) else if x < 1040 then decide (v.aes ≤ (x - 1024) / 2) else decide (v.madi ≤ (x - 1040) / 64)
    else false
  else false

/-- Offset of the last register of each block that an image record may address (R107). -/
def imageEnd (b : Nat) : Option Nat :=
  if b = 2 then some 0x604 else if b = 3 then some 0x33C else if b = 4 ∨ b = 5 then some 0x800 else if b = 6 then some 0x904
  else if b = 10 then some 0x1143C else if b = 11 then some 0x1FFFC else if b = 13 then some 0x12C else if b = 14 then some 0x10FFC
  else if b = 15 then some 0x11C else if b = 16 then some 0x1FFFC else if b = 18 then some 0x34 else none

/-! ### Members (R383) -/

/-- Faults of a DEV field; `all` where 0 names every member. -/
def devCodes (e : IEnv) (all : Bool) (d : Nat) : List Nat :=
  match e.formed with
  | none => if d = 0 then [] else [0x030]
  | some (_, n) => if 64 < d ∨ (d = 0 ∧ all = false) then [0x030] else if d ≠ 0 ∧ n ≤ d - 1 then [0x035] else []

/-- The own ID, and whether a record's DEV names member m or every member. -/
def IEnv.me (e : IEnv) : Nat := match e.formed with | some (m, _) => m | none => 0
def devNames (e : IEnv) (m d : Nat) : Bool := e.formed.isNone || d == 0 || d == m + 1

/-- The value that the image records for member m give an address, or its reset value. -/
def Intent.word (it : Intent) (e : IEnv) (m a : Nat) : Word :=
  (imageVal (it.images.filterMap (fun r => match r with
    | some i => if devNames e m i.dev then some ⟨i.block * 0x100000 + i.off, i.vals⟩ else none
    | none => none)) a).getD (resetWord a)

/-- A limited field: below `lo` stored as `lo`, above `hi` as `hi`. -/
def limited (lo hi x : Nat) : Nat := if x < lo then lo else if hi < x then hi else x

/-- What the PORTS image gives a side: block length, rate code, rate in Hz, slots. -/
def Intent.sideB (it : Intent) (e : IEnv) (m x : Nat) : Nat := limited 1 64 (APORT.SIDE_BLOCK_FRAMES.get (it.word e m (APORT.SIDE_BLOCK x)))
def Intent.sideRate (it : Intent) (e : IEnv) (m x : Nat) : Nat := APORT.SIDE_CTL_RATE.get (it.word e m (APORT.SIDE_CTL x))
def Intent.sideSrc (it : Intent) (e : IEnv) (m x : Nat) : Bool := APORT.SIDE_CTL_CLKMODE.get (it.word e m (APORT.SIDE_CTL x)) == 4
def famBase (f : Nat) : Nat := if f = 0 then 48000 else 44100
def Intent.sideHz (it : Intent) (e : IEnv) (m x : Nat) : Nat :=
  famBase (if APORT.SIDE_CTL_FAM_ALT.get (it.word e m (APORT.SIDE_CTL x)) = 1 then 1 - it.family else it.family) * 2 ^ it.sideRate e m x

/-- The line rate code and the largest frame of a media port: RATE above MEDIA_MAX keeps the reset value (R40). -/
def Intent.portRate (it : Intent) (e : IEnv) (m p : Nat) : Nat :=
  let r := MAC.MAC_CTL_RATE.get (it.word e m (MAC.MAC_CTL p))
  if r ≤ e.v.media then r else MAC.MAC_CTL_RATE.get (resetWord (MAC.MAC_CTL p))
def Intent.maxFrame (it : Intent) (e : IEnv) (m p : Nat) : Nat := limited 64 9216 (MAC.MAX_FRAME_BYTES.get (it.word e m (MAC.MAX_FRAME p)))

/-! ### Streams -/

/-- Word 0 of an entry; TXS and RXS entries hold their structural fields at the same places. -/
def StreamR.w0 (r : StreamR) : Word := r.words.headD 0
def StreamR.ptime (r : StreamR) : Nat := STX.TXS_W0_PTIME.get r.w0
def StreamR.nch (r : StreamR) : Nat := STX.TXS_W0_NCH.get r.w0
def StreamR.rate (r : StreamR) : Nat := STX.TXS_W0_RATE.get r.w0
def StreamR.linkOff (r : StreamR) : Nat := SRX.RXS_W2_LINK_OFF.get (r.words.getD 2 0)
def StreamR.v6 (r : StreamR) : Bool := STX.TXS_W0_IPV6.get r.w0 == 1
def StreamR.jumbo (r : StreamR) : Bool := STX.TXS_W0_JUMBO.get r.w0 == 1
def StreamR.vlan (r : StreamR) : Nat := STX.TXS_W0_VLAN.get r.w0

/-- Bytes of the largest frame, destination address through FCS (Table 7-5, R163), in a family. -/
def StreamR.frame (r : StreamR) (family : Nat) : Nat :=
  14 + 4 * r.vlan + (if r.v6 then 40 else 20) + 8 + 12 +
    sMax r.ptime (famBase family * 2 ^ r.rate) * r.nch * fmtBytes (STX.TXS_W0_FMT.get r.w0) + 4

/-- The bits of word w of an entry image that placement assigns. -/
def placedBits (rx : Bool) (w : Nat) : Word :=
  if w = 0 then 0x6 else if w = 1 then (if rx then 0x7FFFFFFF else 0x0FFF7FFF) else if w = 2 ∧ rx then 0x3FFF0000
  else if (w = 14 ∧ rx = false) ∨ (w = 11 ∧ rx) then 0x01FF01FF else 0

/-- Number of ports a record names. -/
def StreamR.nports (r : StreamR) : Nat := r.ports % 2 + r.ports / 2 % 2

/-- Faults of a stream record on its own. -/
def streamFaults (e : IEnv) (family : Nat) (r : StreamR) : List Nat :=
  let rx := r.dir == 1
  let fs := famBase family * 2 ^ r.rate
  let smax := sMax r.ptime fs
  devCodes e false r.dev ++
  (if decide (r.sid < 1024) && decide (r.dir < 2) && decide (1 ≤ r.ports) && decide (r.ports < 4) && r.zero == 0 &&
      r.len == 64 + (if r.v6 then 32 * r.nports else 0) &&
      (List.range 16).all (fun w => (r.words.getD w 0 &&& placedBits rx w) == 0) &&
      decide (r.ptime < 6) && decide (1 ≤ r.nch) && decide (r.nch ≤ 256) && (STX.TXS_W0_FMT.get r.w0 != 3 || r.nch % 2 == 0) &&
      (r.jumbo || (decide (r.nch ≤ 64) && decide (r.frame family ≤ 1518 + 4 * r.vlan))) &&
      (!rx || (decide (smax + 4 ≤ r.linkOff) && decide (r.linkOff ≤ fs * 32 / 1000)))
   then [] else [0x030])

/-! ### Nodes and programs -/

/-- Word w of the parameter block after byte 64. -/
def NodeR.word (n : NodeR) (w : Nat) : Nat := leAt n.params (64 + 4 * w) 4

/-- Frames per block and rate in Hz at the input end (`inp`) or the output end of a node, on its member (R314). -/
def Intent.nodeEnd (it : Intent) (e : IEnv) (n : NodeR) (inp : Bool) : Nat × Nat :=
  let m := n.dev - 1
  if n.kernel = 0x0030 ∧ (n.word 1 == 0) = inp then (it.sideB e m (n.word 0), it.sideHz e m (n.word 0))
  else if n.kernel = 0x0031 ∧ inp = true then (n.block * 2 ^ (n.word 0 % 4) / Nat.max 1 n.rate, famBase it.family * 2 ^ (n.word 0 % 4))
  else (n.block, famBase it.family * n.rate)

/-- The regions of a node hold their parts (R276), with the lengths of its P, X and Y images. -/
def Intent.nodeFits (it : Intent) (e : IEnv) (n : NodeR) (p x y : Nat) : Bool :=
  decide (8 * (it.nodeEnd e n true).1 * n.nin + up16 n.params.length + 512 + x ≤ 16 * n.xmem) &&
  decide (8 * (it.nodeEnd e n false).1 * n.nout + y ≤ 16 * n.ymem) && decide (p ≤ 16 * n.pmem)

/-- The limits that Table 12-10 gives a library kernel. -/
def kernelOk (n : NodeR) : Bool :=
  if n.kernel = 0x0001 then decide (1 ≤ n.nin) && decide (1 ≤ n.nout)
  else if n.kernel = 0x0010 then n.nin == n.nout && decide (1 ≤ n.word 0) && decide (n.word 0 ≤ 4096)
  else if n.kernel = 0x0011 then n.nin == n.nout && decide (1 ≤ n.word 0) && decide (n.word 0 ≤ 16)
  else if n.kernel = 0x0020 then n.nin == n.nout && decide ((n.word 0 + 2 * n.block) * 4 * n.nin ≤ 1024 * n.shared)
  else if n.kernel = 0x0030 then
    n.nin == n.nout && decide (1 ≤ n.nin) && decide (n.nin ≤ 64) && decide (n.word 0 < 88) && decide (n.word 1 < 2) &&
      (n.word 2 == 32 || n.word 2 == 64)
  else if n.kernel = 0x0031 then
    n.nin == n.nout && decide (n.word 0 < 4) && n.block * 2 ^ (n.word 0 % 4) % Nat.max 1 n.rate == 0 && decide (n.rate ≤ n.block * 2 ^ (n.word 0 % 4))
  else n.kernel == 0x0040 && n.nout == 0

/-- Faults of a node record on its own. An ASRC node's side lies on the member that the record names. -/
def nodeFaults (e : IEnv) (it : Intent) (n : NodeR) : List Nat :=
  devCodes e false n.dev ++
  (if decide (n.id < 1024) && decide (n.nin ≤ 256) && decide (n.nout ≤ 256) && decide (1 ≤ n.cycles) && decide (n.cycles ≤ 10000000) &&
      decide (1 ≤ n.block) && decide (n.block ≤ 64) && (n.rate == 1 || n.rate == 2 || n.rate == 4 || n.rate == 8) && decide (n.memf < 2) &&
      decide (n.shared ≤ 12288) && n.fits &&
      (decide (0x8000 ≤ n.kernel) ||
        (kernelOk n && decide (kernelCode n.kernel ≤ 16 * n.pmem) && (n.kernel == 0x0030 || it.nodeFits e n 0 0 0)))
   then [] else [0x030]) ++
  (if n.kernel = 0x0030 ∧ devNames e e.me n.dev ∧ n.word 0 < 88 ∧ sideAbsent e.v (n.word 0) then [0x035] else [])

/-- Faults of a program record on its own. -/
def kernFaults (k : KernR) : List Nat := if k.zero = 0 ∧ k.p.modes < 4 then [] else [0x030]

/-! ### Fabric flows -/

/-- The entries that the image records set, as they are placed on this member (R378). -/
def Intent.fab (it : Intent) (e : IEnv) : List FabDef :=
  (List.range 256).filterMap (fun f =>
    let w := it.word e e.me (FAB.FLOW_W0 f)
    if FAB.FLOW_W0_EN.get w = 1 then some (fabDefOf f w) else none)

/-- Word 0 of an entry is within its ranges (Table 15-7, R378). -/
def fabEntryOk (e : IEnv) (w : Word) : Bool :=
  let d := fabDefOf 0 w
  let n := match e.formed with | some (_, n) => n | none => 0
  FAB.FLOW_W0_EN.get w == 0 ||
  (decide (1 ≤ d.nch) && decide (d.nch ≤ 256) && decide (1 ≤ d.g) && decide (d.g ≤ 16) && decide (d.nch * d.g * 4 ≤ 2048) &&
    d.src != d.dst && decide (d.src < n) && decide (d.dst < n))

/-! ### Image and policy records -/

/-- Faults of an image record on its own (R107). -/
def imageFaults (e : IEnv) (r : ImgR) : List Nat :=
  let n := r.vals.length
  let offs := (List.range n).map (fun i => r.off + 4 * i)
  devCodes e true r.dev ++
  (if r.off % 4 = 0 ∧ (r.block ≠ 14 ∨ (offs.zip r.vals).all (fun x => decide (x.1 < 0x10000) || x.1 % 16 != 0 || fabEntryOk e x.2)) then [] else [0x030]) ++
  (if devNames e e.me r.dev ∧ offs.any (absentAt e.v r.block) then [0x035] else []) ++
  (match imageEnd r.block with
   | some l => if r.off + 4 * (n - 1) ≤ l ∧ (0xA4 < r.off ∨ r.off + 4 * (n - 1) < 0x80) then [] else [0x036]
   | none => [0x036])

/-- Faults of a POLICY record (R118). -/
def policyFaults (e : IEnv) (r : PolR) : List Nat :=
  (if r.carry < 3 ∧ 1 ≤ r.count ∧ r.count ≤ 12288 then [] else [0x030]) ++
  (if r.block < 19 ∧ (r.block ≠ 13 ∨ e.v.twin = true) ∧ (r.block ≠ 14 ∨ e.v.ubley ≠ 0) ∧ r.off % 4 = 0 ∧ r.off + 4 * r.count ≤ 0x40000
   then [] else [0x037])

/-! ### Flows -/

/-- Channels of an object whose size no record sets: TDM 32, AES3 2, MADI 64, ring 256. -/
def fixedSize (k : Nat) : Option Nat := if k = 1 then some 32 else if k = 2 then some 2 else if k = 3 then some 64 else if k = 4 then some 256 else none

/-- The side of an end of kind 1, 2 or 3: a source is a receive side (Table 11-2). -/
def endSide (k i : Nat) (src : Bool) : Nat := (if k = 1 then 0 else if k = 2 then 64 else 80) + 2 * i + b2n src

/-- Faults of a flow record on its own. `own` is false for a flow that lies on another member, whose instances the own fuses say nothing about. -/
def flowFaults (e : IEnv) (own : Bool) (f : FlowR) : List Nat :=
  let past := fun (k c : Nat) => match fixedSize k with | some n => decide (c + f.nch ≤ n) | none => true
  let gone := fun (k i : Nat) (src : Bool) =>
    if k = 1 ∧ i < 32 ∨ k = 2 ∧ i < 8 ∨ k = 3 ∧ i < 4 then sideAbsent e.v (endSide k i src) else k == 5 && e.v.ubley == 0
  (if decide (f.id < 4096) && decide (f.sk < 7) && decide (f.dk < 7) && decide (1 ≤ f.nch) && decide (f.nch ≤ 256) && decide (f.prio < 8) &&
      decide (f.flags < 4) && decide (1 ≤ f.boundNs) && decide (f.boundNs ≤ 100000000) && f.zero && past f.sk f.sc && past f.dk f.dc && (f.up == 0xFFFF || f.sk == 6)
   then [] else [0x030]) ++
  (if own && (gone f.sk f.si true || gone f.dk f.di false) then [0x035] else [])

/-- Records that were read. -/
def Intent.allStreams (it : Intent) : List StreamR := it.streams.filterMap id
def Intent.allNodes (it : Intent) : List NodeR := it.nodes.filterMap id
def Intent.allFlows (it : Intent) : List FlowR := it.flows.filterMap id
def Intent.stream (it : Intent) (rx : Bool) (sid : Nat) : Option StreamR := it.allStreams.find? (fun r => r.sid == sid && (r.dir == 1) == rx)
def Intent.node (it : Intent) (n : Nat) : Option NodeR := it.allNodes.find? (fun r => r.id == n)
def Intent.prog (it : Intent) (p : Nat) : Option ProgP := ((it.kerns.filterMap id).find? (fun k => k.p.prog == p)).map (fun k => k.p)

/-- The member on which an end lies, where a record says so (R383). -/
def Intent.endMember (it : Intent) (e : IEnv) (k i : Nat) (src : Bool) : Option Nat :=
  match e.formed with
  | none => none
  | some _ =>
    if k = 0 then (it.stream src i).map (fun r => r.dev - 1)
    else if k = 6 then (it.node i).map (fun n => n.dev - 1)
    else if k = 5 then ((it.fab e).find? (fun d => d.f == i)).map (fun d => if src then d.dst else d.src)
    else none

/-- The member of a flow; none where it lies on every member. -/
def Intent.flowMember (it : Intent) (e : IEnv) (f : FlowR) : Option Nat :=
  match it.endMember e f.sk f.si true with
  | some m => some m
  | none => it.endMember e f.dk f.di false
def Intent.memberOf (it : Intent) (e : IEnv) (f : FlowR) : Nat := (it.flowMember e f).getD e.me

/-- An end names an object that is defined. -/
def Intent.defined (it : Intent) (e : IEnv) (k i : Nat) (src : Bool) : Bool :=
  if k = 0 then (it.stream src i).isSome else if k = 6 then (it.node i).isSome else if k = 5 then (it.fab e).any (fun d => d.f == i)
  else if k = 1 then decide (i < 32) else if k = 2 then decide (i < 8) else if k = 3 then decide (i < 4) else decide (i < 96)

/-- Channels of the object of an end (log entry 40: a TDM port has 32 ÷ rate multiple). -/
def Intent.size (it : Intent) (e : IEnv) (m k i : Nat) (src : Bool) : Nat :=
  if k = 0 then (match it.stream src i with | some r => r.nch | none => 0)
  else if k = 6 then (match it.node i with | some n => if src then n.nout else n.nin | none => 0)
  else if k = 5 then (match (it.fab e).find? (fun d => d.f == i) with | some d => d.nch | none => 0)
  else if k = 1 then 32 / 2 ^ it.sideRate e m (endSide 1 i src) else if k = 2 then 2 else if k = 3 then 64 else 256

/-- The sample rate of an end in Hz; none for a ring, whose rate follows the flows (R314, R321). -/
def Intent.endHz (it : Intent) (e : IEnv) (m k i : Nat) (src : Bool) : Option Nat :=
  if k = 0 then (it.stream src i).map (fun r => famBase it.family * 2 ^ r.rate)
  else if k = 6 then (it.node i).map (fun n => (it.nodeEnd e n (!src)).2)
  else if k = 5 then ((it.fab e).find? (fun d => d.f == i)).map (fun d => famBase it.family * 2 ^ d.rate)
  else if k = 4 then none else some (it.sideHz e m (endSide k i src))

/-- The rings joined to a ring by flows between rings on its member (R321). -/
def Intent.ringSet (it : Intent) (e : IEnv) (m : Nat) : Nat → List Nat → List Nat
  | 0, l => l
  | n + 1, l =>
    let fs := it.allFlows.filter (fun f => f.sk == 4 && f.dk == 4 && (it.memberOf e f == m))
    it.ringSet e m n (sortNat (l ++ (fs.filter (fun f => l.contains f.si || l.contains f.di)).flatMap (fun f => [f.si, f.di])))

/-- The rate that a flow with one end on a ring gives that ring's set, in Hz. -/
def Intent.ringGives (it : Intent) (e : IEnv) (f : FlowR) : Option (Nat × Nat) :=
  let m := it.memberOf e f
  if f.sk = 4 ∧ f.dk ≠ 4 then (it.endHz e m f.dk f.di false).map (fun h => (f.si, h))
  else if f.dk = 4 ∧ f.sk ≠ 4 then (it.endHz e m f.sk f.si true).map (fun h => (f.di, h))
  else none

/-- The rate code of a ring on member m. -/
def Intent.ringRate (it : Intent) (e : IEnv) (m r : Nat) : Nat :=
  let set := it.ringSet e m 96 [r]
  match (it.allFlows.filter (fun f => it.memberOf e f == m)).findSome? (fun f => match it.ringGives e f with
    | some (x, h) => if set.contains x then some h else none
    | none => none) with
  | some h => Nat.log2 (h / famBase it.family)
  | none => 0

/-- The chain of UPSTREAM from a flow, its own first, at most n flows; a circular one goes round. -/
def upChain (fs : List FlowR) : Nat → FlowR → List FlowR
  | 0, _ => []
  | n + 1, f =>
    f :: (if f.up = 0xFFFF then [] else match fs.find? (fun g => g.id == f.up) with | some g => upChain fs n g | none => [])

/-- Faults of flow record i that relate it to others (R115, R118, R253, R321, R378, R383). -/
def flowLinks (e : IEnv) (it : Intent) (i : Nat) (f : FlowR) : List Nat :=
  let all := it.allFlows
  let low := all.take i
  let m := it.memberOf e f
  let okS := it.defined e f.sk f.si true
  let okD := it.defined e f.dk f.di false
  let up := all.find? (fun g => g.id == f.up)
  let members := match it.endMember e f.sk f.si true, it.endMember e f.dk f.di false with | some a, some b => a == b | _, _ => true
  let ringDir := fun (r : Nat) (src : Bool) => low.any (fun g => it.memberOf e g == m && ((src && g.dk == 4 && g.di == r) || (!src && g.sk == 4 && g.si == r)))
  let dual := (f.sk == 4 && (ringDir f.si true || (f.dk == 4 && f.di == f.si))) || (f.dk == 4 && ringDir f.di false)
  let upOk := f.up == 0xFFFF || (match up with | some g => f.sk == 6 && g.dk == 6 && g.di == f.si | none => true)
  let bad := low.any (fun g => g.id == f.id) || !members || dual || !upOk ||
    (okS && decide (it.size e m f.sk f.si true < f.sc + f.nch)) || (okD && decide (it.size e m f.dk f.di false < f.dc + f.nch))
  let dangling := !okS || !okD || (f.up != 0xFFFF && up.isNone)
  let clash := low.any (fun g => g.dk == f.dk && g.di == f.di && (f.dk == 0 || f.dk ≥ 5 || it.memberOf e g == m) &&
    decide (g.dc < f.dc + f.nch) && decide (f.dc < g.dc + g.nch))
  let last := fun (g : FlowR) => (all.idxOf g)
  let loop := all.any (fun g =>
    decide (16 < (upChain all 17 g).length) && (((upChain all all.length g).map last).foldl Nat.max 0 == i))
  let asrc := fun (k j : Nat) => k == 6 && (match it.node j with | some n => n.kernel == 0x0030 | none => false)
  let src := fun (k j : Nat) (s : Bool) => decide (1 ≤ k) && decide (k ≤ 3) && it.sideSrc e m (endSide k j s)
  let rates :=
    if okS && okD then
      (src f.sk f.si true && !asrc f.dk f.di) || (src f.dk f.di false && !asrc f.sk f.si) ||
      (match it.endHz e m f.sk f.si true, it.endHz e m f.dk f.di false with
       | some a, some b => a != b
       | _, _ =>
         match it.ringGives e f with
         | some (r, h) =>
           let set := it.ringSet e m 96 [r]
           low.any (fun g => it.memberOf e g == m && (match it.ringGives e g with | some (q, k) => set.contains q && k != h | none => false))
         | none => false)
    else false
  (if bad then [0x030] else []) ++ (if dangling then [0x031] else []) ++ (if clash then [0x032] else []) ++ (if loop then [0x033] else []) ++
  (if rates then [0x034] else [])

/-- Faults of stream record i, of node record i and of program record i that relate it to others. -/
def streamLinks (e : IEnv) (it : Intent) (i : Nat) (r : StreamR) : List Nat :=
  if (it.allStreams.take i).any (fun q => q.sid == r.sid && q.dir == r.dir) ∨
     (r.jumbo = true ∧ [0, 1].any (fun p => bit r.ports p && decide (it.maxFrame e (r.dev - 1) p < r.frame it.family)) = true)
  then [0x030] else []
def nodeLinks (e : IEnv) (it : Intent) (i : Nat) (n : NodeR) : List Nat :=
  let p := it.prog (n.kernel - 0x8000)
  let bad := (it.allNodes.take i).any (fun q => q.id == n.id) ||
    (n.kernel == 0x0030 && !it.nodeFits e n 0 0 0) ||
    (decide (0x8000 ≤ n.kernel) && (match p with
      | some g => !(bit g.modes 1 && (bit g.modes 0 || n.memf == 1) && it.nodeFits e n g.p.length g.x.length g.y.length)
      | none => false))
  (if bad then [0x030] else []) ++ (if 0x8000 ≤ n.kernel ∧ p.isNone then [0x031] else [])
def kernLinks (it : Intent) (i : Nat) (k : KernR) : List Nat :=
  if ((it.kerns.filterMap id).take i).any (fun q => q.p.prog == k.p.prog) then [0x030] else []

/-! ### Step 4 (R118) -/

/-- The faults of each record of a list, with a function of its index; a record that runs past its section is BAD_RECORD. -/
def recFaults {α : Type} (l : List (Option α)) (f : Nat → α → List Nat) : List (List Nat) :=
  (List.range l.length).map (fun i => match l[i]? with
    | some (some r) => f i r
    | _ => [0x030])

/-- Faults of the FIRMWARE header and of the DEVICE section (R108, R117). -/
def firmwareFaults (b : List Byte) : List Nat :=
  if 16 ≤ b.length ∧ leAt b 5 3 = 0 ∧ leAt b 0x0C 4 = 0 ∧ leAt b 8 4 + 16 = b.length then [] else [0x030]
def deviceFaults (b : List Byte) : List Nat :=
  if b.length = 64 ∧ leAt b 4 4 < 64 ∧ byteAt b 8 ≤ 4 ∧ 50 ≤ byteAt b 9 ∧ byteAt b 9 ≤ 95 ∧ byteAt b 0x0A < 2 ∧ byteAt b 0x0B ≤ 20 ∧
     (b.drop 0x0C).all (fun x => x == 0) = true then [] else [0x030]

/-- The faults of the records of a section in one pass. -/
def sectFaults (e : IEnv) (c : Cont) (it : Intent) (second : Bool) (x : Sect) : List (List Nat) :=
  let own := fun (l : List (List Nat)) => if second then [] else l
  if x.typ = 1 then own [firmwareFaults (c.sect x)]
  else if x.typ = 2 then own [deviceFaults (c.sect x)]
  else if x.typ = 3 ∨ x.typ = 4 then own (recFaults (readImages x.len (c.sect x)) (fun _ r => imageFaults e r))
  else if x.typ = 5 then recFaults it.streams (fun i r => if second then streamLinks e it i r else streamFaults e it.family r)
  else if x.typ = 6 then recFaults it.nodes (fun i r => if second then nodeLinks e it i r else nodeFaults e it r)
  else if x.typ = 7 then recFaults it.kerns (fun i r => if second then kernLinks it i r else kernFaults r)
  else if x.typ = 8 then recFaults it.flows (fun i r => if second then flowLinks e it i r else flowFaults e (it.memberOf e r == e.me) r)
  else if x.typ = 9 then own (recFaults it.policy (fun _ r => policyFaults e r))
  else []

/-- The first fault of a section's records: the lowest code of the first record that has one. -/
def firstFault (x : Sect) (l : List (List Nat)) : Except Rej Unit :=
  match l.findIdx? (fun q => !q.isEmpty) with
  | some i => .error ⟨(l.getD i []).foldl Nat.min 0xFFFF, i, 0, x.idx, 0, 0⟩
  | none => .ok ()

/-- Step 4: two passes over the sections in section-table order. -/
def applyStep4 (e : IEnv) (c : Cont) : Except Rej Intent := do
  let it := readIntent c
  c.sects.forM (fun x => firstFault x (sectFaults e c it false x))
  c.sects.forM (fun x => firstFault x (sectFaults e c it true x))
  pure it

end Sys2Proof.Machine
end

