-- ==== Sys2Proof/Machine/Place.lean ====
section
/-!
DEFINITION. The placement engine: step 6 of APPLY, which places every object and lays out the tables (R119 to R125, R440), and step 7, which
proves every bound (R126 to R129, R170).
-/
namespace Sys2Proof.Machine

/-! ### What a member places -/

/-- The inputs of placement on one member (R119): the records it applies, in the orders placement uses. -/
structure PlaceIn where
  e : IEnv
  it : Intent
  configId : Nat
  policyId : Nat
  buildId : Nat
  fwVersion : Nat
  signed : Bool
  anchored : Bool
  parityLo : Nat
  parityHi : Nat
  spareCount : Nat
  loadLimit : Nat
  maxSpread : Nat
  excluded : Nat                  -- PLACE.TILE_FAULT as APPLY reaches step 6 (R133)
  plan : List FabPlan             -- the fabric plan, in ascending entry order
deriving DecidableEq, Repr

/-- Insert into a list sorted by a comparison, and sort. -/
def insertBy {α : Type} (lt : α → α → Bool) (x : α) : List α → List α
  | [] => [x]
  | y :: r => if lt x y then x :: y :: r else y :: insertBy lt x r
def sortBy {α : Type} (lt : α → α → Bool) (l : List α) : List α := l.foldl (fun acc x => insertBy lt x acc) []

/-- The streams of one direction in SID order, the nodes in NODE_ID order, and the flows in flow order (R120), of this member. -/
def PlaceIn.streams (i : PlaceIn) (rx : Bool) : List StreamR :=
  sortBy (fun a b => decide (a.sid < b.sid)) (i.it.allStreams.filter (fun r => (r.dir == 1) == rx && devNames i.e i.e.me r.dev))
def PlaceIn.nodes (i : PlaceIn) : List NodeR :=
  sortBy (fun a b => decide (a.id < b.id)) (i.it.allNodes.filter (fun n => devNames i.e i.e.me n.dev))
def flowBefore (a b : FlowR) : Bool :=
  decide (b.prio < a.prio) || (a.prio == b.prio && (decide (a.boundNs < b.boundNs) || (a.boundNs == b.boundNs && decide (a.id < b.id))))
def PlaceIn.flows (i : PlaceIn) : List FlowR := sortBy flowBefore (i.it.allFlows.filter (fun f => i.it.memberOf i.e f == i.e.me))

/-- The base rate, and the value that the image records give an address. -/
def PlaceIn.base (i : PlaceIn) : Nat := famBase i.it.family
def PlaceIn.word (i : PlaceIn) (a : Nat) : Word := i.it.word i.e i.e.me a

/-- A list of pairs with running sums: each element with the sum of those before it. -/
def runSums {α : Type} (f : α → Nat) : Nat → List α → List (α × Nat)
  | _, [] => []
  | k, x :: r => (x, k) :: runSums f (k + f x) r
def total {α : Type} (f : α → Nat) (l : List α) : Nat := l.foldl (fun acc x => acc + f x) 0

/-- CH_BASE of the streams (R157, R181), IN_BASE and OUT_BASE of the nodes (R114), and the first IPv6 row of each stream (R160). -/
def PlaceIn.chBase (i : PlaceIn) (rx : Bool) : List (StreamR × Nat) := runSums StreamR.nch 0 (i.streams rx)
def PlaceIn.rowBase (i : PlaceIn) (rx : Bool) : List (StreamR × Nat) := runSums (fun r => if r.v6 then r.nports else 0) 0 (i.streams rx)
def baseOfSid (l : List (StreamR × Nat)) (sid : Nat) : Nat := match l.find? (fun x => x.1.sid == sid) with | some x => x.2 | none => 0
def PlaceIn.nodeIn (i : PlaceIn) (n : Nat) : Nat := total NodeR.nin (i.nodes.filter (fun x => decide (x.id < n)))
def PlaceIn.nodeOut (i : PlaceIn) (n : Nat) : Nat := total NodeR.nout (i.nodes.filter (fun x => decide (x.id < n)))

/-- Whether any flow names a ring, as a source or as a destination, and its NCH (R321). -/
def PlaceIn.ringFlows (i : PlaceIn) (r : Nat) (src : Bool) : List FlowR :=
  i.flows.filter (fun f => if src then f.sk == 4 && f.si == r else f.dk == 4 && f.di == r)
def PlaceIn.ringNch (i : PlaceIn) (r : Nat) : Nat :=
  Nat.max ((i.ringFlows r true).foldl (fun a f => Nat.max a (f.sc + f.nch)) 0) ((i.ringFlows r false).foldl (fun a f => Nat.max a (f.dc + f.nch)) 0)

/-- The defined rings, ascending, with their routing numbers. -/
def PlaceIn.rings (i : PlaceIn) : List RingP :=
  let ids := (List.range 96).filter (fun r => decide (0 < i.ringNch r))
  let mk := fun (r : Nat) => (⟨r, !(i.ringFlows r false).isEmpty, i.ringNch r, i.it.ringRate i.e i.e.me r, 0⟩ : RingP)
  ids.map (fun r =>
    let p := mk r
    { p with base := 6144 + total RingP.nch ((ids.map mk).filter (fun q => q.extract == p.extract && decide (q.ring < r))) })

/-- TX_BASE and RX_BASE of a fabric flow (R378). -/
def fabTxBase (l : List FabDef) (d : FabDef) : Nat := total FabDef.nch (l.filter (fun x => x.src == d.src && decide (x.f < d.f)))
def fabRxBase (l : List FabDef) (d : FabDef) : Nat := total FabDef.nch (l.filter (fun x => x.dst == d.dst && decide (x.f < d.f)))
def PlaceIn.fab (i : PlaceIn) : List FabDef := i.plan.map (fun p => p.1)

/-- The routing number of the first channel of an end (Table 1-5). -/
def PlaceIn.number (i : PlaceIn) (k x c : Nat) (src : Bool) : Nat :=
  if k = 0 then baseOfSid (i.chBase src) x + c
  else if k = 1 then 4096 + 32 * x + c else if k = 2 then 5120 + 2 * x + c else if k = 3 then 5136 + 64 * x + c
  else if k = 4 then (match i.rings.find? (fun r => r.ring == x) with | some r => r.base + c | none => 6144 + c)
  else if k = 5 then
    (match i.fab.find? (fun d => d.f == x) with
     | some d => 7168 + (if src then fabRxBase i.fab d else fabTxBase i.fab d) + c
     | none => 7168 + c)
  else 8192 + (if src then i.nodeOut x else i.nodeIn x) + c

/-! ### Checks over whole tables (R440 items 1 to 4) -/

/-- A rejection of step 6 that names no flow. -/
def rejPlace (code kind index : Nat) : Rej := ⟨code, 0xFFFF, kind, index, 0, 0⟩

/-- The plan of the fabric flows (R378, R381, R384): the paths of R125 in ascending entry order, and the read-out delays over the whole plan. -/
def fabPlan (edges : List (Nat × Nat × Nat)) (base spread : Nat) (defs : List FabDef) : Except Rej (List FabPlan) := do
  defs.forM (fun d => need (decide (fabTxBase defs d + d.nch ≤ 1024) && decide (fabRxBase defs d + d.nch ≤ 1024)) (rejPlace 0x044 21 d.f))
  let routed ← defs.foldlM (fun (acc : List FabPlan) d =>
    match fabPath edges (laneLoad base acc) d.src d.dst with
    | none => .error (rejBare 0x060)
    | some p =>
      let all := acc ++ [(d, p, 0)]
      match p.find? (laneFull base all) with
      | some x => .error (rejPlace 0x048 11 x.2)
      | none => .ok all) ([] : List FabPlan)
  routed.forM (fun p => do
    match p.2.1.find? (hopLong base routed) with
    | some x => .error (rejPlace 0x048 11 x.2)
    | none => need (decide (readDelay base spread routed p + p.1.g ≤ 512)) (rejPlace 0x048 21 p.1.f))
  pure (routed.map (fun p => (p.1, p.2.1, readDelay base spread routed p)))

/-- The spares and the eligible tiles (R121). -/
def PlaceIn.avail (i : PlaceIn) : List Nat := (List.range i.e.v.tiles).filter (fun t => !bit i.excluded t)
def PlaceIn.spares (i : PlaceIn) : List Nat := i.avail.drop (i.avail.length - i.spareCount)
def PlaceIn.eligible (i : PlaceIn) : List Nat := i.avail.take (i.avail.length - i.spareCount)

/-- Packets per second of a direction on a port (R28). -/
def PlaceIn.pps (i : PlaceIn) (rx : Bool) (p : Nat) : Nat :=
  total (fun r => 3000000000 / ptime3 r.ptime) ((i.streams rx).filter (fun r => bit r.ports p))

/-- Line time in bits of a stream's largest frame, and bits per second of the stream frames on a port (R124, R143). -/
def PlaceIn.lineBits (i : PlaceIn) (r : StreamR) : Nat := 8 * (r.frame i.it.family + 20)
def PlaceIn.bitRate (i : PlaceIn) (p : Nat) : Nat :=
  total (fun r => i.lineBits r * (3000000000 / ptime3 r.ptime)) ((i.streams false).filter (fun r => bit r.ports p))

/-- Line rate of a code in bits per second. -/
def lineRate (c : Nat) : Nat := if c = 0 then 1000000000 else if c = 1 then 10000000000 else 25000000000

/-- Items 2 to 4 of R440. -/
def PlaceIn.tables (i : PlaceIn) : Except Rej Unit := do
  let net := fun (rx : Bool) => total StreamR.nch (i.streams rx) ≤ 4096 ∧ total (fun r => r.nch * 2 ^ r.rate) (i.streams rx) ≤ i.e.v.netch
  let rows := fun (rx : Bool) => total (fun r => if r.v6 then r.nports else 0) (i.streams rx) ≤ 512
  need (i.spareCount == 0 || decide (i.spareCount < i.avail.length)) (rejPlace 0x042 13 0)
  need (decide (net false)) (rejPlace 0x044 6 0)
  need (decide (rows false)) (rejPlace 0x044 6 0)
  need (decide (net true)) (rejPlace 0x044 7 0)
  need (decide (rows true)) (rejPlace 0x044 7 0)
  need (decide (total NodeR.nin i.nodes ≤ 4096) && decide (total NodeR.nout i.nodes ≤ 4096)) (rejPlace 0x044 12 0)
  i.rings.forM (fun r => need (decide (r.base + r.nch ≤ 7168)) (rejPlace 0x044 22 r.ring))
  [0, 1].forM (fun p => need (decide (Nat.max (i.pps false p) (i.pps true p) ≤ 12000000)) (rejPlace 0x045 8 p))
  [0, 1].forM (fun p => need (decide (5 * i.bitRate p ≤ 4 * lineRate (i.it.portRate i.e i.e.me p))) (rejPlace 0x046 9 p))

/-! ### Launch offsets and gate lists (R124, R143, R144, R170) -/

/-- The gate cycle in µs and T_min in thirds of a nanosecond, from the packet times on a port. -/
def gateCycle (pts : List Nat) : Nat := if pts.contains 5 then 4000 else 1000
def gateTmin (pts : List Nat) : Nat := match pts with | [] => 3000000 | c :: r => r.foldl (fun a x => Nat.min a (ptime3 x)) (ptime3 c)

/-- The gate list: INTERVAL in ns and GATES, with the boundaries rounded to whole nanoseconds, halves up. -/
def gateRows (pts : List Nat) : List (Nat × Nat) :=
  let t := gateTmin pts
  let at15 := fun (n : Nat) => (2 * n + 15) / 30      -- n in units of 1/15 ns, rounded
  (List.range (gateCycle pts * 3000 / t)).flatMap (fun k =>
    [(at15 (5 * k * t + 4 * t) - at15 (5 * k * t), 0xFE), (at15 (5 * (k + 1) * t) - at15 (5 * k * t + 4 * t), 0xFF)])

/-- One launch instant of a stream on a port, in thirds of a nanosecond from the start of the cycle. -/
structure Slot where
  port : Nat
  at3 : Nat
  sid : Nat
  queue : Nat
  bits : Nat
deriving DecidableEq, Repr

/-- The packet times on a port. -/
def PlaceIn.ptimes (i : PlaceIn) (p : Nat) : List Nat := ((i.streams false).filter (fun r => bit r.ports p)).map StreamR.ptime

/-- The instants of offset O (in µs) within the cycle of a port. -/
def PlaceIn.instants (i : PlaceIn) (r : StreamR) (p o : Nat) : List Nat :=
  (List.range (gateCycle (i.ptimes p) * 3000 / ptime3 r.ptime)).map (fun k => 3000 * o + k * ptime3 r.ptime)

/-- Offset O meets both conditions of R124 on a port. -/
def PlaceIn.slotOk (i : PlaceIn) (used : List Slot) (r : StreamR) (p o : Nat) : Bool :=
  let t := gateTmin (i.ptimes p)
  (i.instants r p o).all (fun x => decide (5 * (x % t) < 4 * t) &&
    decide (total Slot.bits (used.filter (fun u => u.port == p && u.at3 == x)) + i.lineBits r ≤ 37500))

/-- The smallest offset that serves a list of ports. -/
def PlaceIn.launch (i : PlaceIn) (used : List Slot) (r : StreamR) (ps : List Nat) : Option Nat :=
  (List.range (cdiv (ptime3 r.ptime) 3000)).find? (fun o => ps.all (fun p => i.slotOk used r p o))

/-- Order of frames at the launch instants: earlier, then higher queue, then lower SID. -/
def slotBefore (a b : Slot) : Bool :=
  decide (a.at3 < b.at3) || (a.at3 == b.at3 && (decide (b.queue < a.queue) || (a.queue == b.queue && decide (a.sid < b.sid))))

/-- Bit time of a line rate code in 1/150 ns. -/
def bit150 (c : Nat) : Nat := if c = 0 then 150 else if c = 1 then 15 else 6

/-- The line with the frames of a sorted list from instant `off` on: free from `free`, largest time from launch to end for stream `sid`, in
1/150 ns. -/
def lineRun (c sid off : Nat) : List Slot → Nat → Nat → Nat × Nat
  | [], free, q => (free, q)
  | x :: r, free, q =>
    let due := off + 50 * x.at3
    let done := Nat.max free due + x.bits * bit150 c
    lineRun c sid off r done (if x.sid = sid then Nat.max q (done - due) else q)

/-- Q of a stream on a port (R170): over a second gate cycle, so that frames held over at its end meet its start. -/
def PlaceIn.q150 (i : PlaceIn) (used : List Slot) (sid p : Nat) : Nat :=
  let c := i.it.portRate i.e i.e.me p
  let l := sortBy slotBefore (used.filter (fun u => u.port == p))
  let one := lineRun c sid 0 l 0 0
  (lineRun c sid (150 * 1000 * gateCycle (i.ptimes p)) l one.1 0).2

/-! ### Objects (R120 to R122, R440 item 5) -/

/-- An object of placement. -/
inductive PObj
  | tx (sid : Nat) | rx (sid : Nat) | node (id : Nat) | side (x : Nat) | fab (f : Nat)
deriving DecidableEq, Repr

/-- A node on its tile: base offsets of its regions, in units of 16 bytes. -/
structure OnTile where
  id : Nat
  tile : Nat
  x : Nat
  y : Nat
  p : Nat
deriving DecidableEq, Repr

/-- What has been placed so far. -/
structure PRun where
  done : List PObj
  cur : Tbl Nat                   -- next free byte by region
  bufs : List BufP
  on : List OnTile
  modes : Tbl MemMode
  slots : List Slot
  launch : Tbl Nat
  rxBuf : Tbl (Nat × Nat)
  caps : Tbl Nat
  shared : Tbl Nat
deriving DecidableEq, Repr

/-- Sizes of the regions of Table 1-8 in bytes; of host staging, the part that placement allocates (R321). -/
def regionSize (r : Nat) : Nat :=
  if r = 0 then 25165824 else if r = 1 ∨ r = 2 then 4194304 else if r = 3 then 12582912 else if r = 4 then 1572864 else 2097152

/-- First fit in ascending address order. Nothing is freed during placement, so the next free byte is enough. -/
def PRun.alloc (r : PRun) (flow req region len align : Nat) : Except Rej (Nat × PRun) :=
  let off := cdiv (Tbl.getD r.cur region 0) align * align
  if regionSize region < off + len then .error ⟨0x043, flow, 5, region, 0, req⟩
  else .ok (off, { r with cur := Tbl.put r.cur region (off + len), bufs := r.bufs ++ [⟨region, off, len⟩] })

/-- Channel capacity C of a side (R122). -/
def PlaceIn.capOf (i : PlaceIn) (x : Nat) : Nat :=
  if 64 ≤ x ∧ x < 80 then 2
  else if 80 ≤ x then [64, 56, 32, 0].getD (APORT.SIDE_FMT_FORMAT.get (i.word (APORT.SIDE_FMT x))) 0
  else
    let fmt := i.word (APORT.SIDE_FMT x)
    let lim := 32 / 2 ^ i.it.sideRate i.e i.e.me x
    let slots := if APORT.SIDE_FMT_FORMAT.get fmt = 0 then limited 1 32 (APORT.SIDE_FMT_SLOTS.get fmt) else 2
    let act := (bitsOf (Nat.min slots lim) (i.word (APORT.MASK x)).toNat).length
    let named := i.flows.foldl (fun a f =>
      let a1 := if f.sk = 1 ∧ endSide 1 f.si true = x then Nat.max a (f.sc + f.nch) else a
      if f.dk = 1 ∧ endSide 1 f.di false = x then Nat.max a1 (f.dc + f.nch) else a1) 0
    Nat.min lim (Nat.max act named)

/-- Demand of a node in cycles per second (R121). -/
def PlaceIn.demand (i : PlaceIn) (n : NodeR) : Fr := (n.cycles * (i.base * n.rate), n.block)

/-- The nodes on a tile, with their records. -/
def PlaceIn.onTile (i : PlaceIn) (r : PRun) (t : Nat) : List NodeR :=
  (r.on.filter (fun o => o.tile == t)).filterMap (fun o => i.nodes.find? (fun n => n.id == o.id))

/-- Why a tile has no room for a node: kinds 2 to 4 for memory, 1 for cycles; none where it has room. -/
def PlaceIn.noRoom (i : PlaceIn) (r : PRun) (n : NodeR) (mode : MemMode) (t : Nat) : Option Nat :=
  let l := i.onTile r t
  let m := Tbl.getD r.modes t mode
  let x := total NodeR.xmem l + n.xmem
  let y := total NodeR.ymem l + n.ymem
  let p := total NodeR.pmem l + n.pmem
  let mem := match m with
    | .unified => if 12288 < x + y + p then some 4 else none
    | .split => if 4096 < x then some 2 else if 4096 < y then some 3 else if 4096 < p then some 4 else none
  match mem with
  | some k => some k
  | none =>
    let cap : Fr := ((match m with | .split => 1000000000 | .unified => 800000000) * i.loadLimit, 100)
    if frLe (frSum ((n :: l).map i.demand)) cap then none else some 1

/-- The tiles tried for a node, in the order of R121. -/
def PlaceIn.candidates (i : PlaceIn) (r : PRun) (n : NodeR) (mode : MemMode) (feeder : Option Nat) : List Nat :=
  let inMode := fun (m : MemMode) => i.eligible.filter (fun t => Tbl.find r.modes t == some m)
  let same := inMode mode
  let grouped := if n.group = 0 then [] else same.filter (fun t => (i.onTile r t).any (fun k => k.group == n.group))
  let fed := match feeder with
    | some f => (match r.on.find? (fun o => o.id == f) with
      | some o => if same.contains o.tile then [o.tile] else []
      | none => [])
    | none => []
  let empty := (i.eligible.filter (fun t => (Tbl.find r.modes t).isNone)).take 1
  grouped ++ fed ++ same ++ empty ++ (match mode with | .split => inMode .unified | .unified => [])

/-- Place a node on its tile, with its shared memory. Within a tile the regions of the nodes follow one another in the order of placement
(log entry 41): in SPLIT mode within each memory, in UNIFIED mode X, Y and P of each node. Where eligible tiles exist and none of them is one to try
(for a UNIFIED node, when each holds SPLIT nodes), R121 names no tile and no kind: TILE_MEMORY with KIND 4 and INDEX 0xFFFF is the model's choice
(DESIGN CHOICE, log entry 87). -/
def PlaceIn.placeNode (i : PlaceIn) (flow req : Nat) (feeder : Option Nat) (r : PRun) (n : NodeR) : Except Rej PRun :=
  let split := n.xmem ≤ 4096 ∧ n.ymem ≤ 4096 ∧ n.pmem ≤ 4096 ∧ n.memf ≠ 1
  if ¬ split ∧ 12288 < n.xmem + n.ymem + n.pmem then .error ⟨0x041, flow, 4, 0xFFFF, 0, req⟩
  else if i.eligible.isEmpty then .error ⟨0x040, flow, 1, 0xFFFF, 0, req⟩
  else
    let mode : MemMode := if split then .split else .unified
    let cs := i.candidates r n mode feeder
    match cs.find? (fun t => (i.noRoom r n mode t).isNone) with
    | some t =>
      let l := i.onTile r t
      let m := Tbl.getD r.modes t mode
      let x := total NodeR.xmem l
      let y := total NodeR.ymem l
      let p := total NodeR.pmem l
      let o : OnTile := match m with
        | .split => ⟨n.id, t, x, 4096 + y, 8192 + p⟩
        | .unified => ⟨n.id, t, x + y + p, x + y + p + n.xmem, x + y + p + n.xmem + n.ymem⟩
      let r1 := { r with on := r.on ++ [o], modes := Tbl.put r.modes t m }
      if n.shared = 0 then .ok r1
      else match r1.alloc flow req 3 (1024 * n.shared) 1024 with
        | .ok (off, r2) => .ok { r2 with shared := Tbl.put r2.shared n.id off }
        | .error x => .error x
    | none =>
      let why := cs.map (fun t => (t, (i.noRoom r n mode t).getD 0))
      match why.find? (fun w => w.2 == 1) with
      | some w => .error ⟨0x040, flow, 1, w.1, 0, req⟩
      | none => match why with
        | w :: _ => .error ⟨0x041, flow, w.2, w.1, 0, req⟩
        | [] => .error ⟨0x041, flow, 4, 0xFFFF, 0, req⟩

/-- Place an object once. `flow` names the flow that places it (0xFFFF for none) and `req` its BOUND_NS. -/
def PlaceIn.placeObj (i : PlaceIn) (flow req : Nat) (feeder : Option Nat) (r0 : PRun) (o : PObj) : Except Rej PRun :=
  if r0.done.contains o then .ok r0
  else
    let r := { r0 with done := o :: r0.done }
    match o with
    | .node id => match i.nodes.find? (fun n => n.id == id) with
      | some n => i.placeNode flow req feeder r n
      | none => .ok r
    | .rx sid => match (i.streams true).find? (fun q => q.sid == sid) with
      | some q =>
        let len := up16 q.linkOff
        match r.alloc flow req 0 (q.nch * len * 4) 64 with
        | .ok (off, r1) => .ok { r1 with rxBuf := Tbl.put r1.rxBuf sid (off, len) }
        | .error x => .error x
      | none => .ok r
    | .side x =>
      let c := i.capOf x
      if c = 0 then .ok r
      else match r.alloc flow req 2 (2 * i.it.sideB i.e i.e.me x * c * 4) 64 with
        | .ok (_, r1) => .ok { r1 with caps := Tbl.put r1.caps x c }
        | .error e => .error e
    | .fab f => match i.fab.find? (fun d => d.f == f) with
      | some d => .ok { r with bufs := r.bufs ++ [⟨5, fabRxBase i.fab d * 2048, d.nch * 2048⟩] }
      | none => .ok r
    | .tx sid => match (i.streams false).find? (fun q => q.sid == sid) with
      | some q =>
        let r1 : PRun := { r with bufs := r.bufs ++ [⟨1, sid * 4096, 4096⟩] }
        let ps := [0, 1].filter (fun p => bit q.ports p)
        match i.launch r1.slots q ps with
        | some v =>
          .ok { r1 with launch := Tbl.put r1.launch sid v
                        slots := r1.slots ++ ps.flatMap (fun p => (i.instants q p v).map (fun a => (⟨p, a, sid, 6 - q.ptime, i.lineBits q⟩ : Slot))) }
        | none =>
          let only := ps.filter (fun p => (i.launch r1.slots q [p]).isNone)
          .error ⟨0x047, flow, 10, (if only.isEmpty then 0 else only.headD 0), 0, req⟩
      | none => .ok r

/-- The object of an end. -/
def endObj (k x : Nat) (src : Bool) : Option PObj :=
  if k = 0 then some (if src then .rx x else .tx x) else if k = 6 then some (.node x) else if k = 5 then (if src then some (.fab x) else none)
  else if k = 4 then none else some (.side (endSide k x src))

/-- Place the objects of a flow: the source end, then the destination end. -/
def PlaceIn.placeFlow (i : PlaceIn) (r : PRun) (f : FlowR) : Except Rej PRun := do
  let r1 ← match endObj f.sk f.si true with
    | some o => i.placeObj f.id f.boundNs none r o
    | none => .ok r
  match endObj f.dk f.di false with
    | some o => i.placeObj f.id f.boundNs (if f.sk = 6 then some f.si else none) r1 o
    | none => .ok r1

/-- All objects: those of the flows in flow order, then those that no flow names, then the rings (R120, R321). -/
def PlaceIn.objects (i : PlaceIn) : Except Rej PRun := do
  let r0 : PRun := ⟨[], [], [], [], [], [], [], [], [], []⟩
  let r1 ← i.flows.foldlM (fun r f => i.placeFlow r f) r0
  let rest := (i.nodes.map (fun n => PObj.node n.id)) ++ ((i.streams false).map (fun q => PObj.tx q.sid)) ++
    ((i.streams true).map (fun q => PObj.rx q.sid)) ++
    (((List.range 88).filter (fun x => !sideAbsent i.e.v x && APORT.SIDE_CTL_EN.get (i.word (APORT.SIDE_CTL x)) == 1)).map PObj.side)
  let r2 ← rest.foldlM (fun r o => i.placeObj 0xFFFF 0 none r o) r1
  i.rings.foldlM (fun r g => match r.alloc 0xFFFF 0 4 (2 * ringB g.ring * g.nch * 4) 64 with
    | .ok (_, r3) => .ok r3
    | .error x => .error x) r2

/-! ### Bounds (R126 to R129) -/

/-- A latency term: its exact value in ns, and its resource kind and index; kind 0 for a term without a kind. -/
structure Term where
  v : Fr
  kind : Nat
  index : Nat
deriving DecidableEq, Repr

/-- Crossing costs of Table 1-2 in ns. -/
def portCross (family : Nat) : Fr := if family = 0 then (12 * 1000000000, 196608000) else (12 * 1000000000, 180633600)
def macCross (rate : Nat) : Fr := if rate = 2 then (3072, 100) else if rate = 1 then (768, 10) else (96, 1)

/-- n frames at a rate in ns. -/
def framesNs (n hz : Nat) : Fr := (n * 1000000000, Nat.max 1 hz)

/-- A value scaled by 1 ÷ (1 − MAX_SPREAD). -/
def PlaceIn.scaled (i : PlaceIn) (ns : Nat) : Fr := (ns * 1000, 1000 - i.maxSpread)

/-- The port term of an end, and the ring term. -/
def PlaceIn.sideTerm (i : PlaceIn) (k x : Nat) (src : Bool) : Term :=
  let sd := endSide k x src
  ⟨frAdd (framesNs (i.it.sideB i.e i.e.me sd + 1) (i.it.sideHz i.e i.e.me sd)) (portCross i.it.family), 17, x⟩
def PlaceIn.ringTerm (i : PlaceIn) (x : Nat) : Term :=
  ⟨frAdd (framesNs (ringB x) (i.base * 2 ^ i.it.ringRate i.e i.e.me x)) (24, 1), 22, x⟩

/-- The terms of a flow in the order of Table 5-15, given the exact bound of its upstream flow. -/
def PlaceIn.terms (i : PlaceIn) (r : PRun) (f : FlowR) (up : Fr) : List Term :=
  let fabOf := fun (x : Nat) => i.plan.find? (fun p => p.1.f == x)
  (if f.sk = 0 then (match i.it.stream true f.si with
    | some q => [⟨framesNs q.linkOff (i.base * 2 ^ q.rate), 16, f.si⟩]
    | none => []) else []) ++
  (if 1 ≤ f.sk ∧ f.sk ≤ 3 then [i.sideTerm f.sk f.si true] else []) ++
  (if f.sk = 4 then [i.ringTerm f.si] else []) ++
  (if f.sk = 5 then (match fabOf f.si with
    | some p => [⟨frAdd (3072, 100) (framesNs p.2.2 (i.base * 2 ^ p.1.rate)), 21, f.si⟩]
    | none => []) else []) ++
  (if f.up = 0xFFFF then [] else [⟨up, 23, f.up⟩]) ++
  (if f.sk = 6 then (match i.it.node f.si with
    | some n => [⟨frAdd (framesNs (2 * n.block) (i.base * n.rate)) (i.scaled 30), 18, f.si⟩]
    | none => []) else []) ++
  [⟨i.scaled 80, 0, 0⟩] ++
  (if 1 ≤ f.dk ∧ f.dk ≤ 3 then [i.sideTerm f.dk f.di false] else []) ++
  (if f.dk = 4 then [i.ringTerm f.di] else []) ++
  (if f.dk = 0 then (match i.it.stream false f.di with
    | some q =>
      let ps := [0, 1].filter (fun p => bit q.ports p)
      [⟨(ptime3 q.ptime, 3), 19, f.di⟩,
       ⟨frAdd (1000 * Tbl.getD r.launch f.di 0, 1) (ps.foldl (fun a p => Nat.max a (i.q150 r.slots f.di p)) 0, 150), 20, f.di⟩,
       ⟨(ps.map (fun p => macCross (i.it.portRate i.e i.e.me p))).foldl (fun a x => if frLt a x then x else a) (0, 1), 0, 0⟩]
    | none => []) else []) ++
  (if f.dk = 5 then (match fabOf f.di with
    | some p => [⟨frAdd (3072, 100) (hopsNs i.base i.plan p), 21, f.di⟩]
    | none => []) else [])

/-- The exact bound of a flow, its chain of at most 16 flows unrolled. -/
def PlaceIn.exact (i : PlaceIn) (r : PRun) : Nat → FlowR → Fr
  | 0, _ => (0, 1)
  | n + 1, f =>
    let up := match i.it.allFlows.find? (fun g => g.id == f.up) with
      | some g => if f.up = 0xFFFF then (0, 1) else i.exact r n g
      | none => (0, 1)
    frSum ((i.terms r f up).map Term.v)

/-- The terms of a flow with its upstream bound, and the largest of those that have a kind; of equal ones the first. -/
def PlaceIn.flowTerms (i : PlaceIn) (r : PRun) (f : FlowR) : List Term :=
  i.terms r f (match i.it.allFlows.find? (fun g => g.id == f.up) with | some g => i.exact r 16 g | none => (0, 1))
def largest (l : List Term) : Term :=
  (l.filter (fun t => t.kind != 0)).foldl (fun a t => if frLt a.v t.v then t else a) ⟨(0, 1), 0, 0⟩

/-- A flow as placed and proven. -/
def PlaceIn.flowP (i : PlaceIn) (r : PRun) (f : FlowR) : FlowP :=
  let ts := i.flowTerms r f
  let top := largest ts
  let hops := match i.plan.find? (fun p => f.dk == 5 && p.1.f == f.di) with | some p => hopsNs i.base i.plan p | none => (0, 1)
  let all := frSum (ts.map Term.v)
  { id := f.id, srcKind := f.sk, dstKind := f.dk, srcIdx := f.si, dstIdx := f.di, srcNum := i.number f.sk f.si f.sc true
    dstNum := i.number f.dk f.di f.dc false, srcCh := f.sc, dstCh := f.dc, nch := f.nch, prio := f.prio, routeSet := bit f.flags 0
    holdOnFault := bit f.flags 1, boundNs := f.boundNs, upstream := if f.up = 0xFFFF then none else some f.up, bound := frCeil all
    rest := (all.1 * hops.2 - hops.1 * all.2, all.2 * hops.2), kind := top.kind, index := top.index, affected := false }

/-- Step 7: every flow in flow order, up to the first whose bound fails. -/
def proveFlows : List FlowP → Except Rej Unit
  | [] => .ok ()
  | f :: r => if f.bound ≤ f.boundNs then proveFlows r else .error ⟨0x050, f.id, f.kind, f.index, f.bound % 2 ^ 32, f.boundNs⟩

/-! ### The placement -/

/-- The words of a stream's entry with its placement fields. -/
def PlaceIn.streamP (i : PlaceIn) (r : PRun) (q : StreamR) : StreamP :=
  let rx := q.dir == 1
  let row := baseOfSid (i.rowBase rx) q.sid
  let pa := q.ports % 2
  let rows : Word := if q.v6 then BitVec.ofNat 32 ((if pa = 1 then row else 0) + (if bit q.ports 1 then row + pa else 0) * 2 ^ 16) else 0
  let w := fun (k : Nat) =>
    let v := q.words.getD k 0
    if k = 0 then v ||| BitVec.ofNat 32 (2 * q.ports)
    else if k = 1 then
      (if rx then BitVec.ofNat 32 (baseOfSid (i.chBase true) q.sid + (Tbl.getD r.rxBuf q.sid (0, 0)).1 / 64 * 2 ^ 12)
       else BitVec.ofNat 32 (baseOfSid (i.chBase false) q.sid + (6 - q.ptime) * 2 ^ 12 + Tbl.getD r.launch q.sid 0 * 2 ^ 16))
    else if k = 2 ∧ rx then v ||| BitVec.ofNat 32 ((Tbl.getD r.rxBuf q.sid (0, 0)).2 * 2 ^ 16)
    else if (k = 14 ∧ rx = false) ∨ (k = 11 ∧ rx = true) then v ||| rows
    else v
  ⟨q.sid, !rx, q.ports, (List.range 16).map w, (List.range q.rows.length).map (fun k => (row + k, q.rows.getD k []))⟩

/-- A node as placed. -/
def PlaceIn.nodeP (i : PlaceIn) (r : PRun) (n : NodeR) : NodeP :=
  let t := match r.on.find? (fun o => o.id == n.id) with | some o => o.tile | none => 0
  { id := n.id, kernel := n.kernel, nin := n.nin, nout := n.nout, cycles := n.cycles, block := n.block, rate := n.rate, unifiedOnly := n.memf == 1
    xmem := n.xmem, ymem := n.ymem, pmem := n.pmem, shared := n.shared, params := n.params, group := n.group, inBase := 8192 + i.nodeIn n.id
    outBase := 8192 + i.nodeOut n.id, tile := t, sharedOff := Tbl.getD r.shared n.id 0 }

/-- A POLICY record by its addresses: for ROUTE, offsets address the shadow bank (R116). -/
def polRec (r : PolR) : PolRec := ⟨r.block * 0x100000 + r.off, r.carry, r.count, BitVec.ofNat 32 r.mask⟩

/-- Steps 6 and 7: the placement and the regions of its nodes, or the first failure. -/
def PlaceIn.place (i : PlaceIn) : Except Rej (Placed × List OnTile) := do
  i.tables
  let r ← i.objects
  let flows := i.flows.map (i.flowP r)
  proveFlows flows
  let tx := i.streams false
  let tail := r.bufs.flatMap (fun b => [b.region, b.off]) ++
    tx.flatMap (fun q => [6 - q.ptime, Tbl.getD r.launch q.sid 0]) ++
    i.plan.flatMap (fun p => p.2.1.length :: p.2.1.flatMap (fun h => [h.1, h.2]))
  let p : Placed :=
    { configId := i.configId, policyId := i.policyId, buildId := i.buildId, fwVersion := i.fwVersion, signed := i.signed, anchored := i.anchored
      parityLo := i.parityLo, parityHi := i.parityHi, loadLimit := i.loadLimit, family := i.it.family, maxSpread := i.maxSpread
      spares := i.spares, nodes := i.nodes.map (i.nodeP r), flows := flows
      streams := (tx ++ i.streams true).map (i.streamP r), bufs := r.bufs, caps := r.caps
      progs := (i.it.kerns.filterMap id).map (fun k => k.p), rings := i.rings
      images := i.it.images.filterMap (fun x => match x with
        | some m => if devNames i.e i.e.me m.dev then some ⟨m.block * 0x100000 + m.off, m.vals⟩ else none
        | none => none)
      policy := (i.it.policy.filterMap id).map polRec, tileMode := r.modes, hashTail := tail, hash := 0 }
  pure ({ p with hash := placeHash p }, r.on)

end Sys2Proof.Machine
end

