-- ==== Sys2Proof/Machine/Effects.lean ====
section
/-!
DEFINITION. What a software write of a register does beside storing its bits: the values stored for values out of range (R65), and the
effects that the chapters of the blocks give a write. Host writes, image records and mirrored writes share it.
-/
namespace Sys2Proof.Machine

/-! ### Values as stored -/

/-- Put a field of a word at the nearest value of a range. -/
def Fld.limit (f : Fld) (lo hi : Nat) (w : Word) : Word := f.put w (limited lo hi (f.get w))

/-- A signed field at the nearest value of a range. -/
def Fld.limitS (f : Fld) (lo hi : Int) (w : Word) : Word :=
  let x := sgn f.w (f.get w)
  f.put w (lowBits f.w (if x < lo then lo else if hi < x then hi else x))

/-- PTP_INTV within the limits of Table 9-3. -/
def ptpIntvValue (w : Word) : Word :=
  TIME.PTP_INTV_LOG_SYNC.limitS (-7) 1 (TIME.PTP_INTV_LOG_ANN.limitS (-3) 3 (TIME.PTP_INTV_LOG_DREQ.limitS (-7) 5
    (TIME.PTP_INTV_ANN_TIMEOUT.limit 2 10 w)))

/-- TIME registers within their stated ranges (R206). -/
def timeValue (o : Nat) (w : Word) : Word :=
  if o = 0x110 then TIME.SEL_CTL_WTR_S.limit 10 720 (TIME.SEL_CTL_AGREE.limit 1 255 w)
  else if o = 0x114 then TIME.SERVO_CTL_SLOPE.limit 1 1000 (TIME.SERVO_CTL_VOTE_NS.limit 1 1000 w)
  else if o = 0x118 then TIME.QUAL_CTL_SOFT.limit 1 2047 (TIME.QUAL_CTL_HARD.limit 1 2047 (TIME.QUAL_CTL_PERSIST.limit 1 255 w))
  else if 0x200 ≤ o ∧ o < 0x2C0 ∧ o % 32 = 4 then ptpIntvValue w
  else if 0x300 ≤ o ∧ o < 0x340 ∧ o % 16 = 4 then TIME.FPG_OFF_OFF.limitS (-500000000) 500000000 w
  else w

/-- The value stored for a value written to the register at an address (Tables 6-11, 7-2, 8-2, 8-8 to 8-10, 9-6 to 9-8, 10-4, 10-6, 11-4,
11-5, 13-5, 14-7, 14-12, 15-4, 16-3). -/
def storedValue (s : State) (a : Nat) (old w : Word) : Word :=
  let b := blkOf a
  let o := offOf a
  if a = SYS.ARB_CTL then (if s.chip.straps.arbEn then SYS.ARB_CTL_SETTLE_MS.limit 1 255 w else old)
  else if a = PWR.DOM_REQ then w &&& BitVec.ofNat 32 (2 ^ 32 - 1 - ofBits ((List.range 12).filter (fun d => !domHere s d)))
  else if b = bCLK then
    (if a = CLK.SSY_CTL then ssyCtlValue w
     else if 0x400 ≤ o ∧ o < 0x500 ∧ o % 16 = 4 then clkoutDivValue s ((o - 0x400) / 16) w else w)
  else if b = bTIME then timeValue o w
  else if b = bMACA ∨ b = bMACB ∨ b = bMACM then
    (if o = 0x100 then macCtlValue s (b - 4) old w
     else if o = 0x118 then MAC.MAX_FRAME_BYTES.limit 64 9216 w else if o = 0x11C then MAC.TX_THRESH_STEPS.limit 1 32 w else w)
  else if b = bSRX then
    (if 0x10000 ≤ o ∧ o < 0x20000 ∧ o % 64 = 24 then SRX.RXS_W6_POL_BURST.limit 1 63 w
     else if 0x110 ≤ o ∧ o < 0x11C then SRX.MGMT_POL_BURST.limit 1 32 w
     else if a = SRX.UNM_CTL then SRX.UNM_CTL_BURST.limit 1 63 w
     else if 0x800 ≤ o ∧ o < 0xC00 ∧ o % 64 = 0 then SRX.KILL_CTL_OFF.limit 0 112 w else w)
  else if b = bAPORT then
    (if 0x1000 ≤ o ∧ o < 0x1000 + 88 * 64 then
       (if o % 64 = 0 ∧ 64 ≤ (o - 0x1000) / 64 then APORT.SIDE_CTL_MASTER.put w (APORT.SIDE_CTL_MASTER.get old)
        else if o % 64 = 16 ∧ 64 ≤ (o - 0x1000) / 64 then 0
        else sideValue ((o - 0x1000) / 64) (o % 64 / 4) w)
     else w)
  else if b = bDMA ∧ 0x10000 ≤ o ∧ o < 0x14000 then
    (let r := (o - 0x10000) / 64
     let k := o % 64 / 4
     if (k = 1 ∨ k = 2 ∨ k = 3 ∨ k = 6) ∧ ringStopped s r = false then old else ringValue r k w)
  else if a = TWIN.TWIN_CTL then TWIN.TWIN_CTL_ECC_LIMIT.limit 1 255 w
  else if a = FAB.CTL then FAB.CTL_EXPECT.limit 0 64 w
  else if a = STORE.STORE_CTL then STORE.STORE_CTL_PATROL_DAYS.limit 1 255 w
  else if a = SEC.CTL then old ||| w
  else w

/-! ### Effects of TWIN writes (R361, R364) -/

/-- The first whole millisecond of the STC at least n ms ahead. -/
def epochAhead (s : State) (n : Nat) : Nat := cdiv (s.time.stc + stcMs n) (stcMs 1)

/-- TWIN_FORCE has been stored over `old`: forcing ACTIVE is accepted only after GANDER and the peer have been lost for 1 s. -/
def twinForceWritten (s : State) (old : Word) : State :=
  let f := s.fld TWIN.TWIN_FORCE TWIN.TWIN_FORCE_FORCE
  let lost := s.twin.gander == .lost && !s.twin.peerSeen && decide (s.twin.lostFrom + secs 1 ≤ s.now)
  let s1 :=
    if f = 2 then
      if lost then ({ s with twin := { s.twin with forced := true } }).emit .fabric 0xB00F sevWARNING 0 []
      else (({ s with twin := { s.twin with forced := false } }).setFld TWIN.TWIN_FORCE TWIN.TWIN_FORCE_FORCE 0).emit .fabric 0xB00E sevWARNING 0 []
    else if f = 1 then ({ s with twin := { s.twin with forced := false } }).emit .fabric 0xB00F sevWARNING 0 []
    else { s with twin := { s.twin with forced := false } }
  let s2 := refreshRole s1 (if TWIN.TWIN_FORCE_EN.get old = s.fld TWIN.TWIN_FORCE TWIN.TWIN_FORCE_EN then 13 else 14)
  if TWIN.TWIN_FORCE_EN.get old = s.fld TWIN.TWIN_FORCE TWIN.TWIN_FORCE_EN then s2
  else (let s3 := pairCheck s2; if fabTwin s3 then fabLeave s3 else fabTopology s3)

/-- STATE_RESET has been written at 1: the ACTIVE unit schedules the restart on both units and the bit clears; a unit whose
resynchronisation failed tries again. -/
def stateResetWritten (s : State) : State :=
  let s0 := s.setFld TWIN.RESYNC_CTL TWIN.RESYNC_CTL_STATE_RESET 0
  let s1 := if s0.twin.resync = .failed then { s0 with twin := { s0.twin with resync := .idle } } else s0
  if s1.twin.role = .active then
    mirrorOut { s1 with twin := { s1.twin with stateAt := some (epochAhead s1 2) } } (.stateReset (epochAhead s1 2))
  else s1

/-! ### Effects of PWR writes (R419) -/

/-- Sources of a domain's blocks, as ranges of source numbers (Table 1-5). -/
def domSources (s : State) (d n : Nat) : Bool :=
  if d = 9 then decide (4096 ≤ n) && decide (n < 5392)
  else if d = 10 then decide (6144 ≤ n) && decide (n < 7168)
  else if d = 11 then decide (7168 ≤ n) && decide (n < 8192)
  else if d = 7 ∨ d = 8 then (placedNodes s).any (fun p => decide (p.outBase ≤ n) && decide (n < p.outBase + p.nout) && (p.tile / 16 == d - 7))
  else d == 5 || d == 6

/-- The sources of a domain carry zero samples marked invalid from now on. -/
def domSilence (s : State) (d : Nat) : State :=
  (s.way.src.map (fun e => e.1)).foldl (fun st n => if domSources s d n then srcPut st n s.time.stc smpBad else st) s

/-- The frames queued on the ports of a domain that switches off end as at a fall of LINK: ring frames complete with the link-down status (R138; log
entry 97). -/
def portsEnd (s : State) (d : Nat) : State :=
  ([0, 1, 2].filter (fun p => domainOf (4 + p) == d && bit s.pwr.on d)).foldl (fun st p => dropAll (txSettle st p) p) s

/-- The domains that are no longer due switch off. -/
def domainsEnd (s : State) : State :=
  domainsOff ((List.range 12).foldl (fun st d => if 3 ≤ d && !domDue st d then portsEnd st d else st) s)

/-- A domain in use is forced off. -/
def domForceOff (s' : State) (d : Nat) : State :=
  let s := portsEnd s' d
  if bit s.pwr.forcedOff d then s
  else
    let s1 := ({ domSilence s d with pwr := { s.pwr with forcedOff := setBit s.pwr.forcedOff d true } }.raise PWR.CAUSE 0).emit .control 0x1002 sevWARNING d []
    if bit s1.pwr.on d then domSwitchOff s1 d else s1

/-- DOM_FORCE has been stored over `old`. -/
def domForceWritten (s : State) (old : Word) : State :=
  domainsEnd ((List.range 12).foldl (fun st d =>
    if 3 ≤ d && bit (st.rd PWR.DOM_FORCE).toNat d && !bit old.toNat d && domHere st d && domInUse st d then domForceOff st d else st) s)

/-! ### Effects of a stored word -/

/-- ATTN_MASK has been stored: an EN bit set over a block with a cause flag raises attention (R25). -/
def attnMaskWritten (s : State) (old : Word) : State :=
  if (List.range 19).any (fun b => bit (s.rd SYS.ATTN_MASK).toNat b && !bit old.toNat b && s.causeBit b) then s.attend else s

/-- What a register does once a new word stands in it over `old`: the effects that hold for a software write and for a restored value. -/
def regChanged (s : State) (a : Nat) (old : Word) : State :=
  let b := blkOf a
  let o := offOf a
  let new := s.rd a
  if b = bSYS then
    (if a = SYS.ATTN_MASK then attnMaskWritten s old
     else if a = SYS.BOOT_CTL then { s with aon := { s.aon with prefCfg := some (SYS.BOOT_CTL_PREF_CFG.get new) } } else s)
  else if b = bPWR then
    (if a = PWR.DOM_FORCE then domForceWritten s old else if a = PWR.DOM_REQ then domainsEnd s else s)
  else if b = bCLK then
    (if o = 0x210 ∨ o = 0x220 ∨ o = 0x230 then msyCtlWritten s ((o - 0x200) / 16) old
     else if a = CLK.SSY_CTL then ssyCtlWritten s
     else if 0x400 ≤ o ∧ o < 0x500 then
       (if o % 16 = 0 then clkoutCtlWritten s ((o - 0x400) / 16) old else clkoutSetWritten s ((o - 0x400) / 16) a old)
     else if a = CLK.SOLO_MAP then soloMapWritten s old else s)
  else if b = bTIME then
    (if 0x140 ≤ o ∧ o < 0x180 then (if new = old then s else slotRestart s ((o - 0x140) / 4))
     else if 0x200 ≤ o ∧ o < 0x2C0 ∧ o % 32 < 8 then (if new = old then s else ptpRestart s ((o - 0x200) / 32))
     else if 0x300 ≤ o ∧ o < 0x340 then fpgWritten s ((o - 0x300) / 16) (o % 16 / 4) old else s)
  else if b = bSRX then
    (if 0x110 ≤ o ∧ o < 0x11C then { s with srx := { s.srx with mgmtPol := Tbl.del s.srx.mgmtPol ((o - 0x110) / 4) } }
     else if a = SRX.UNM_CTL then { s with srx := { s.srx with unmPol := [] } } else s)
  else if b = bAPORT then
    (if 0x1000 ≤ o ∧ o < 0x1000 + 88 * 64 then
       (let x := (o - 0x1000) / 64
        sideWritten true (if o % 64 = 16 then maskWritten s x old else s) x (o % 64 / 4) old)
     else if 0x10000 ≤ o ∧ o < 0x11440 then gainWritten s ((o - 0x10000) / 4) else s)
  else if b = bFAB then
    (if 0x10000 ≤ o ∧ o < 0x11000 ∧ o % 16 = 0 then fabFlowWritten s ((o - 0x10000) / 16) old else s)
  else s

/-- What only a software write of the bits `m` does: requests that its bits make. -/
def regWritten (s : State) (a : Nat) (m old : Word) : State :=
  let o := offOf a
  if a = TIME.SEC_LOAD_HI then
    (if TIME.SEC_LOAD_HI_GO.get m = 0 then s
     else if s.fld TIME.SEC_LOAD_HI TIME.SEC_LOAD_HI_GO = 1 then secLoadGo s else s.setFld TIME.SEC_LOAD_HI TIME.SEC_LOAD_HI_REFUSED 0)
  else if a = DSPC.CW_APPLY then cwApply s old
  else if a = TWIN.TWIN_FORCE then twinForceWritten s old
  else if a = TWIN.RESYNC_CTL then (if s.fld TWIN.RESYNC_CTL TWIN.RESYNC_CTL_STATE_RESET = 1 then stateResetWritten s else s)
  else if a = TWIN.TWIN_CTL then
    (if s.fld TWIN.TWIN_CTL TWIN.TWIN_CTL_REJOIN = 1 then
       { s with twin := { s.twin with rejoinOk := true, rejoinHeld := false } } else s)
  else if a = FAB.CTL then
    (let s1 := if fabPart s then fabTopology s else fabLeave s
     if s1.fld FAB.CTL FAB.CTL_FORM = 1 then fabFlood (fabForm s1) true else s1)
  else if blkOf a = bDMA ∧ 0x10000 ≤ o ∧ o < 0x14000 then
    (let r := (o - 0x10000) / 64
     if o % 64 = 0 then ringCtlWritten s r old else if o % 64 = 16 then ringTailWritten s r old else s)
  else if blkOf a = bDMA ∧ 0x2000 ≤ o ∧ o < 0x2400 ∧ o % 16 = 12 then vectorWritten s ((o - 0x2000) / 16)
  else s

/-! ### Double-banked tables (R102) -/

/-- The entry of a double-banked table that a shadow address belongs to, by its first address. -/
def entryOf (a : Nat) : Nat :=
  if blkOf a = bROUTE then a else if 0x30000 ≤ offOf a then a / 32 * 32 else a / 64 * 64

/-- A shadow entry that software writes during the copy after a swap keeps what is written. -/
def noteShadow (s : State) (a : Nat) : State :=
  if isShadow a && s.cmd.copying && !s.cmd.copySkip.contains (entryOf a) then
    { s with cmd := { s.cmd with copySkip := entryOf a :: s.cmd.copySkip } }
  else s

/-! ### A software write -/

/-- A line rate above MEDIA_MAX is recorded (R40). -/
def noteLimit (s : State) (a : Nat) (w : Word) : State :=
  if (blkOf a = bMACA ∨ blkOf a = bMACB) ∧ offOf a = 0x100 ∧ s.variant.media < MAC.MAC_CTL_RATE.get w then s.emit (portIsl (blkOf a - 4)) 0x0003 sevNOTICE 0 []
  else s

/-- A mismatch after a write of bytes `be`: their parity is restored. -/
def Corrupt.heal (c : Corrupt) (be : Nat) (w : Word) : Corrupt :=
  { c with stored := ((w &&& beMask be) ||| (BitVec.ofNat 32 c.stored &&& ~~~ beMask be)).toNat
           bad := ofBits ((bitsOf 4 c.bad).filter (fun k => !bit be k)) }

/-- A write of bytes `be` of a register, given the word it produces, restores their parity and stores what R65 lets it store. Under HOLD_LAST the
word is held until the first commit epoch after the block is sound (R73); the answer tells whether the write goes no further now. -/
def healBytes (s : State) (a be : Nat) (w : Word) : Bool × State :=
  match corruptAt s a with
  | none => (false, s)
  | some c =>
    let x := c.heal be (storedValue s a (BitVec.ofNat 32 c.stored) w)
    if bit s.host.polHold (blkOf a) then (true, putCorrupt (noteLimit s a w) x)
    else if x.bad = 0 then (false, dropCorrupt s none x.addr) else (false, putCorrupt s x)

/-- A write of bytes `be` of a path's copy of a register. -/
def pathWrite (s : State) (p : Path) (a be : Nat) (v : Word) : State :=
  let merge := fun (o : Nat) => ((v &&& beMask be) ||| (BitVec.ofNat 32 o &&& ~~~ beMask be)).toNat
  match corruptOf s (some p) a with
  | none => s.setPathWord p a (merge (s.pathWord p a))
  | some c =>
    let x := c.heal be v
    let s1 := if x.bad = 0 then dropCorrupt s (some p) x.addr else putCorrupt s x
    if bit s.host.polHold (blkOf a) then putCorrupt s x else s1.setPathWord p a (merge (s.pathWord p a))

/-- The counters that software may preload (RWH): what hardware counts in the cycle of the write is added (Table 3-8). -/
def preloadFlds (a : Nat) : List Fld :=
  let b := blkOf a
  let o := offOf a
  if (b = bMACA ∨ b = bMACB ∨ b = bMACM) ∧ o = 0x130 then [MAC.TS_STATUS_TS_LOST_CNT]
  else if b = bAPORT ∧ 0x1000 ≤ o ∧ o < 0x1000 + 88 * 64 ∧ o % 64 = 0x28 then [APORT.SIDE_COUNT_SLIPS, APORT.SIDE_COUNT_DIG_ERR]
  else if b = bDSPC ∧ 0x200 ≤ o ∧ o < 0x400 ∧ o % 16 = 8 then [DSPC.TILE_ECC_CORR, DSPC.TILE_ECC_UNCORR]
  else []
def preloads (s : State) (a : Nat) (m w : Word) : Word :=
  (preloadFlds a).foldl (fun x f => if f.get m = 0 then x else s.preload a f x) w

/-- Store the bits `m` of `v`, clear the flags `c0` that hardware does not set in the same cycle, and do what the write does; `runTime` is false for
an image record. -/
def storeWrite (runTime : Bool) (s : State) (a : Nat) (m v c0 : Word) : State :=
  let c := c0 &&& ~~~ s.setNow a
  let s := (s.clearMeets a c0).noteWrote a m v
  let old := s.rd a
  let raw := (old &&& ~~~ m ||| v &&& m) &&& ~~~ c
  if (blkOf a = bMACA ∨ blkOf a = bMACB ∨ blkOf a = bMACM) ∧ offOf a = 0x100 then macCtlWrite runTime s (blkOf a - 4) raw
  else if a = MAC.MDIO_CMD then mdioWrite s raw
  else if a = STORE.XFER_CTL then xferCtlWrite s raw.toNat
  else if a = STORE.KEYED then keyedWrite s raw.toNat
  else
    let s0 := if blkOf a = bSTX ∧ 0x200 ≤ offOf a ∧ offOf a < 0x280 then txUnkill s ((offOf a - 0x200) / 4) (c &&& old).toNat else s
    let s1 := noteShadow (s0.wr a (preloads s a m (storedValue s a old raw))) a
    if c0 ≠ 0 ∧ m = 0 then (if blkOf a = bAPORT then regChanged s1 a old else s1) else regWritten (regChanged s1 a old) a m old

/-- A software write of the bytes `be`. -/
def softWrite (runTime : Bool) (s : State) (a be : Nat) (m v c : Word) : State :=
  let h := healBytes s a be (((s.rdStored a &&& ~~~ m) ||| (v &&& m)) &&& ~~~ c)
  if h.1 then h.2 else storeWrite runTime h.2 a m v c

/-- HOLD_LAST and MUTE end at a commit epoch for every block without a corrupt register: the words held are applied (R73). -/
def policiesEnd (s : State) : State :=
  let sound := fun (st : State) (b : Nat) => st.host.corrupt.all (fun c => blkOf c.addr != b || c.bad == 0)
  (List.range 19).foldl (fun st b =>
    if (bit st.host.polHold b || bit st.host.polMute b) && sound st b then
      let s1 := (st.host.corrupt.filter (fun c => blkOf c.addr == b)).foldl (fun x c =>
        let a := phys x.bankSel c.addr
        match c.own with
        | some p => (dropCorrupt x c.own c.addr).setPathWord p a c.stored
        | none => storeWrite true (dropCorrupt x none c.addr) a (typeMask a (fun t => t == .rw || t == .rwh || t == .rwp)) (BitVec.ofNat 32 c.stored) 0) st
      { s1 with host := { s1.host with polHold := setBit s1.host.polHold b false, polMute := setBit s1.host.polMute b false } }
    else st) s

end Sys2Proof.Machine
end

