-- ==== Sys2Proof/Machine/Images.lean ====
section
/-!
DEFINITION. Retained state: journal images and checkpoints (R103, R404, R405), and the restore (R86, R107, R116, R159).
-/
namespace Sys2Proof.Machine

/-! ### What an image holds (R404) -/

/-- The address under which an image holds the register stored at a physical address: an active-bank entry under its shadow-bank address; a
shadow-bank entry is not held. -/
def imageAddr (sel : Bool) (pa : Nat) : Option Nat :=
  let a := phys sel pa
  if isShadow a then none else some (if isActive a then swapBank a else a)

/-- The retained bits of the active banks and of the other registers that differ from their printed values; NAMED is kept by the time
island. -/
def retainedBody (s : State) : Tbl Word :=
  let b := s.regs.foldl (fun (acc : Tbl Word) e => match imageAddr s.bankSel e.1 with
    | some a => Tbl.set acc (resetWord a &&& keptMask a) a (e.2 &&& keptMask a)
    | none => acc) ([] : Tbl Word)
  Tbl.set b 0 TIME.CLK_STATE (TIME.CLK_STATE_NAMED.put 0 s.time.named)

/-- The retained bits of a register in an image. -/
def Image.word (i : Image) (a : Nat) : Word := Tbl.getD i.body a (resetWord a &&& keptMask a)

/-- The CRC-32 of an image, over its body and its trailer words (log entry 42). -/
def imageCrc (body : Tbl Word) (kind seq cfg pol op : Nat) : Nat :=
  crc32 (body.flatMap (fun e => leBytes 4 e.1 ++ leBytes 4 e.2.toNat) ++ bytesOfWords [0x5A394A4E, kind + 256, seq, cfg, pol, op])

/-- The journal images whose trailers read, newest first (R405). -/
def journalImages (s : State) : List Image := s.nand.images.filter (fun i => i.trailer)

/-- The COMMIT_SEQ of the newest journal image; 0 where there is none. -/
def newestSeqNo (s : State) : Nat := match journalImages s with | i :: _ => i.seq | [] => 0

/-- An image of the retained state as it stands. -/
def makeImage (s : State) (kind seq page : Nat) : Image :=
  let b := retainedBody s
  { kind := kind, seq := seq, configId := configId s, policyId := policyId s, opsec := s.recorder.opsec, body := b
    crc := imageCrc b kind seq (configId s) (policyId s) s.recorder.opsec, page := page, good := true, trailer := true }

/-! ### Writing images (R103, R404, R405) -/

/-- Blocks of the STATE partition that a write of an image's pages reclaims: those it enters that are not erased. -/
def reclaimed (s : State) (page : Nat) : List Nat :=
  (((List.range (imagePages s)).filter (fun k => (page + k) % blkPages s == 0)).map (fun k => (page + k) / blkPages s)).filter (fun b =>
    !(blockPages s 4 b).isEmpty)

/-- Whether an image has a page in a block of the list. -/
def inBlocks (s : State) (l : List Nat) (i : Image) : Bool :=
  (List.range (imagePages s)).any (fun k => l.contains ((i.page + k) / blkPages s))

/-- The page at which the next journal image starts: after the last one, or at the start of the ring where the rest is too short. -/
def journalPage (s : State) : Nat :=
  let base := 2 ^ 21 / pageLen s
  let p := Nat.max base s.nand.jPage
  if partPages s 4 < p + imagePages s then base else p

/-- Erase the blocks that a write reclaims, with the journal images they held, and program the pages of an image. -/
def reclaim (s : State) (page kind : Nat) : State :=
  let l := reclaimed s page
  let s1 := l.foldl (fun st b => eraseLogical st 4 b) s
  let s2 := { s1 with nand := { s1.nand with images := s1.nand.images.filter (fun i => !inBlocks s l i) } }
  (List.range (imagePages s)).foldl (fun st k => programMeta st 4 (page + k) kind) s2

/-- A journal image is stored; the always-on island takes its COMMIT_SEQ and CRC. -/
def storeJournal (s : State) (i : Image) : State :=
  let p := journalPage s
  let s1 := reclaim s p 2
  { s1 with nand := { s1.nand with images := { i with page := p } :: s1.nand.images, jPage := p + imagePages s }
            aon := { s1.aon with journal := some (i.seq, i.crc) } }

/-- A checkpoint is stored in the slot that was not written last. -/
def storeCheckpoint (s : State) (i : Image) : State :=
  let one := s.nand.slot0.isSome && !s.nand.lastSlot
  let p := if one then 2 ^ 20 / pageLen s else 0
  let s1 := reclaim s p 3
  { s1 with nand := { s1.nand with slot0 := if one then s1.nand.slot0 else some { i with page := p }
                                   slot1 := if one then some { i with page := p } else s1.nand.slot1, lastSlot := one } }

/-- SNAPSHOT commands that have not completed. -/
def snapshotsOpen (s : State) : List Cmd := (s.cmd.started.filter (fun x => x.cmd.op == 0x0F)).map (fun x => x.cmd)

/-- Begin writing the image that waits: a journal image of the newest state, then the checkpoints of the open SNAPSHOT commands in their
order. During SLEEP entry no further checkpoint is begun (R89). -/
def startImage (s : State) : State :=
  if s.cmd.imgJob.isSome || !s.nand.ready then s
  else match s.cmd.imgWait with
    | some _ =>
      { s with cmd := { s.cmd with imgWait := none, imgJob := some ⟨makeImage s 1 (newestSeqNo s + 1) 0, none⟩ } }
    | none => if s.cmd.sleeping then s else match snapshotsOpen s with
      | c :: _ => { s with cmd := { s.cmd with imgJob := some ⟨makeImage s 2 (newestSeqNo s) 0, some c⟩ } }
      | [] => s

/-- A journal image is due (R103): at most one waits. -/
def wantJournal (s : State) : State :=
  startImage { s with cmd := { s.cmd with imgWait := some ⟨makeImage s 1 (newestSeqNo s + 1) 0, none⟩ } }

/-- COMMIT_STATUS.JOURNAL_BUSY (Table 4-14, R405). -/
def journalBusy (s : State) : Bool :=
  s.cmd.imgWait.isSome || (match s.cmd.imgJob with | some j => j.image.kind == 1 | none => false) ||
  (s.nand.fault && !(snapshotsOpen s).isEmpty)

/-- The image being written is stored. -/
def imageStored (s : State) : State :=
  match s.cmd.imgJob with
  | some j =>
    let s1 := { s with cmd := { s.cmd with imgJob := none } }
    let s2 := if j.image.kind = 1 then storeJournal s1 j.image else storeCheckpoint s1 j.image
    startImage (match j.cmd with | some c => finishStarted s2 c cOK 0 | none => s2)
  | none => s

/-- The image being written could not be written: the medium has failed, and the image waits (R405). -/
def imageFailed (s : State) : State :=
  match s.cmd.imgJob with
  | some j =>
    { s with cmd := { s.cmd with imgJob := none
                                 imgWait := if j.image.kind = 1 ∧ s.cmd.imgWait.isNone = true then some j else s.cmd.imgWait } }
  | none => s

/-! ### Reading images (R86, R405) -/

/-- The last checkpoint: of those whose trailers read, the one with the higher COMMIT_SEQ, of equal ones the one written last. -/
def lastCheckpoint (s : State) : Option Image :=
  match s.nand.slot0.filter (fun i => i.trailer), s.nand.slot1.filter (fun i => i.trailer) with
  | some a, some b => some (if a.seq = b.seq then (if s.nand.lastSlot then b else a) else if a.seq < b.seq then b else a)
  | some a, none => some a
  | none, b => b

/-- An image that reads with its CRC-32 correct while the medium is in use. -/
def readable (s : State) (i : Option Image) : Option Image := if s.nand.ready then i.filter (fun x => x.good) else none

/-- The image that the restore accepts, with STATE_SRC (R86, steps 1 to 3), and the records of what was not accepted. -/
def acceptImage (s : State) : Option Image × State :=
  let src := fun (st : State) (n : Nat) => { st with cmd := { st.cmd with stateSrc := n } }
  let bad := fun (st : State) =>
    let st1 := st.emit .control 0x000B sevWARNING 0 []
    match readable s (lastCheckpoint s) with
    | some c => (some c, src st1 1)
    | none => (none, src (st1.emit .control 0x000C sevERROR 0 []) 2)
  match readable s (journalImages s).head?, s.aon.journal with
  | some j, some c => if c = (j.seq, j.crc) then (some j, src s 0) else bad s
  | some j, none => (some j, src (s.emit .control 0x000A sevNOTICE 0 []) 3)
  | none, _ => bad s

/-- PREF_CFG for a boot (R84): the always-on copy; without one that of the newest journal image, then that of the last checkpoint, then 0. -/
def bootPref (s : State) : Nat :=
  match s.aon.prefCfg with
  | some p => p
  | none => match readable s (journalImages s).head?, readable s (lastCheckpoint s) with
    | some j, _ => SYS.BOOT_CTL_PREF_CFG.get (j.word SYS.BOOT_CTL)
    | none, some c => SYS.BOOT_CTL_PREF_CFG.get (c.word SYS.BOOT_CTL)
    | none, none => 0

/-! ### The restore -/

/-- Registers whose retained fields have the Reset "Image/J" and take image bits from register image records (R107). -/
def imageReg (a : Nat) : Bool :=
  let o := offOf a
  if blkOf a = bTIME then
    o == 0x110 || o == 0x114 || o == 0x118 || (decide (0x140 ≤ o) && decide (o < 0x180)) ||
    (decide (0x200 ≤ o) && decide (o < 0x2C0) && o % 32 == 0) || (decide (0x300 ≤ o) && decide (o < 0x340))
  else if blkOf a = bAPORT then decide (0x1000 ≤ o) && decide (o < 0x2600) && o % 64 == 16
  else a == FAB.CTL

/-- The word of a stream table entry or IPv6 row as its record gives it; 0 where none defines it (R159, R160). -/
def tableWord (p : Placed) (tx : Bool) (o : Nat) : Word :=
  if o < 0x30000 then
    match p.streams.find? (fun q => q.tx == tx && q.sid == (o - 0x10000) / 64) with
    | some q => q.image.getD (o % 64 / 4) 0
    | none => 0
  else
    match (p.streams.filter (fun q => q.tx == tx)).findSome? (fun q => q.rows.find? (fun r => r.1 == (o - 0x30000) / 32)) with
    | some r => r.2.getD (o % 32 / 4) 0
    | none => 0

/-- The value a retained field takes where no image gives it one (R86, R107, R159, R309). The address is that of the shadow bank. -/
def defaultWord (p : Placed) (a : Nat) : Word :=
  let o := offOf a
  if (blkOf a = bSTX ∨ blkOf a = bSRX) ∧ 0x10000 ≤ o then tableWord p (blkOf a == bSTX) o
  else if blkOf a = bDSPC ∧ 0x10000 ≤ o then
    (match p.nodes.find? (fun n => n.id == (o - 0x10000) / 64) with
     | some n => BitVec.ofNat 32 (leAt n.params (o % 64) 4)
     | none => 0)
  else if imageReg a then (imageVal p.images a).getD (resetWord a)
  else resetWord a

/-- The bits of a register that policy records let an image of another bitstream give (R116). -/
def policyMask (p : Placed) (i : Image) (a : Nat) : Word :=
  p.policy.foldl (fun acc r =>
    if r.addr ≤ a ∧ a < r.addr + 4 * r.count ∧ (a - r.addr) % 4 = 0 then
      (if r.carry = 1 ∨ (r.carry = 0 ∧ i.policyId = p.policyId) then acc ||| r.mask else acc &&& ~~~ r.mask)
    else acc) 0

/-- The bits of a register taken from the accepted image. -/
def carryMask (p : Placed) (im : Option Image) (a : Nat) : Word :=
  match im with
  | some i => if i.configId = p.configId then ~~~ (0 : Word) else policyMask p i a
  | none => 0

/-- The retained bits that a register takes. -/
def restoredBits (p : Placed) (im : Option Image) (a : Nat) : Word :=
  let c := carryMask p im a
  let v := match im with | some i => i.word a | none => 0
  ((v &&& c) ||| (defaultWord p a &&& ~~~ c)) &&& keptMask a

/-- Restore one register, named by its shadow-bank address: both banks of the tables. -/
def restoreReg (p : Placed) (im : Option Image) (s : State) (a : Nat) : State :=
  if keptMask a = 0 then s
  else if a = TIME.CLK_STATE then { s with time := { s.time with named := TIME.CLK_STATE_NAMED.get (restoredBits p im a) } }
  else
    let old := s.rd a
    let new := storedValue s a old ((old &&& ~~~ keptMask a) ||| restoredBits p im a)
    if swapBank a ≠ a then (s.wr a new).wr (swapBank a) new
    else if new = old then s else regChanged (s.wr a new) a old

/-- The registers whose retained bits may differ from their printed values: those stored now, those of the image, and those with defaults of
their own. -/
def restoreAddrs (s : State) (p : Placed) (im : Option Image) : List Nat :=
  (s.regs.map (fun e => let a := phys s.bankSel e.1; if isActive a then swapBank a else a)) ++
  (match im with | some i => i.body.map (fun e => e.1) | none => []) ++
  p.streams.flatMap (fun q =>
    let b := if q.tx then bSTX else bSRX
    ((List.range 16).map (fun w => b * 0x100000 + 0x10000 + 64 * q.sid + 4 * w)) ++
    q.rows.flatMap (fun r => (List.range 8).map (fun w => b * 0x100000 + 0x30000 + 32 * r.1 + 4 * w))) ++
  p.images.flatMap (fun r => ((List.range r.vals.length).map (fun i => r.addr + 4 * i)).filter imageReg) ++
  p.nodes.flatMap (fun n => (List.range 16).map (fun w => DSPC.CW n.id w)) ++ [TIME.CLK_STATE]

/-- The restore of R86, with the placement p; the copy of PREF_CFG follows it (R84). -/
def restoreState (s : State) (p : Placed) : Option Image × State :=
  let r := acceptImage s
  let s1 := (restoreAddrs r.2 p r.1).foldl (restoreReg p r.1) r.2
  (r.1, { s1 with aon := { s1.aon with prefCfg := some (s1.fld SYS.BOOT_CTL SYS.BOOT_CTL_PREF_CFG) } })

end Sys2Proof.Machine
end

