-- ==== Sys2Proof/Machine/Apply.lean ====
section
/-!
DEFINITION. APPLY as a whole: the environment of the checks (R342, R383), step 9 (R107, R109, R115, R143, R309), what a failed load leaves (R83,
R129), and the agreement of a fabric (R384, R385). The commands stand in Sequencer.
-/
namespace Sys2Proof.Machine

/-! ### Steps 1 to 8 -/

/-- The environment of step 4. -/
def memberEnv (s : State) : IEnv := ⟨s.variant, if fabFormed s then some (myId s, s.fab.formed.length) else none⟩

/-- A container that has passed steps 1 to 4. -/
structure Checked where
  c : Cont
  signed : Bool
  anchored : Bool
  it : Intent
deriving DecidableEq, Repr

/-- Steps 1 to 4. -/
def applyFront (s : State) (l : LoadS) : Except Rej Checked := do
  let c ← applyStep1 s l
  applyStep2 s c
  let sg ← applyStep3 s c
  let it ← applyStep4 (memberEnv s) c
  pure ⟨c, sg.1, sg.2, it⟩

/-- A twinned unit takes over the tile faults of its peer's last hello before step 6 (R342). -/
def adoptPeerFaults (s : State) (config : Nat) : State :=
  match s.twin.hello with
  | some h =>
    if twinned s && (s.twin.paired || h.configId == config) then (bitsOf 32 h.tileFault).foldl (fun st t => st.raise PLACE.TILE_FAULT t) s else s
  | none => s

/-- The inputs of steps 6 and 7. -/
def placeInOf (s : State) (k : Checked) (plan : List FabPlan) : PlaceIn :=
  let d := k.c.data 2
  { e := memberEnv s, it := k.it, configId := k.c.configId, policyId := k.c.policy, buildId := k.c.build, fwVersion := leAt (k.c.data 1) 0 4
    signed := k.signed, anchored := k.anchored, parityLo := leAt d 0 4, parityHi := leAt d 4 4, spareCount := byteAt d 8
    loadLimit := byteAt d 9, maxSpread := byteAt d 0x0B, excluded := (s.rd PLACE.TILE_FAULT).toNat, plan := plan }

/-- Whether the firmware image starts (step 8; log entry 39). -/
def fwStarts (k : Checked) : Bool := !Config.fwFails (crc32 ((k.c.data 1).drop 16))

/-- The fabric plan of a container: computed by the coordinator over the topology as it stands (R384). -/
def planOf (s : State) (k : Checked) : Except Rej (List FabPlan) :=
  fabPlan (fabEdges s) (famBase k.it.family) (byteAt (k.c.data 2) 0x0B) (k.it.fab (memberEnv s))

/-- A plan as received, with the definitions of the container. -/
def planFrom (s : State) (k : Checked) (l : List (Nat × List (Nat × Nat) × Nat)) : List FabPlan :=
  (k.it.fab (memberEnv s)).filterMap (fun d => (l.find? (fun x => x.1 == d.f)).map (fun x => (d, x.2.1, x.2.2)))

/-- The plan as it is sent, and its CRC-32 (R384; log entry 44). -/
def planSent (l : List FabPlan) : List (Nat × List (Nat × Nat) × Nat) := l.map (fun p => (p.1.f, p.2.1, p.2.2))
def planCrc (l : List (Nat × List (Nat × Nat) × Nat)) : Nat :=
  crc32 (bytesOfWords (l.flatMap (fun p => [p.1, p.2.2, p.2.1.length] ++ p.2.1.flatMap (fun h => [h.1, h.2]))))

/-! ### Step 9: image records -/

/-- Registers that image records store without the effects of a software write: side registers 0 to 3, judged once all of them stand, and the
fabric flow table, whose flows the plan starts. -/
def storedPlain (a : Nat) : Bool :=
  (blkOf a == bAPORT && decide (0x1000 ≤ offOf a) && decide (offOf a < 0x2600) && decide (offOf a % 64 < 16)) ||
  (blkOf a == bFAB && decide (0x10000 ≤ offOf a))

/-- One word of an image record: its bits in volatile RW, RWH and RWP fields (R107). Nothing happens where the block is off or absent. -/
def applyImageWord (s : State) (a : Nat) (v : Word) : State :=
  let m := typeMask a (fun t => t == .rw || t == .rwh || t == .rwp) &&& ~~~ keptMask a
  if m = 0 ∨ s.blkOn (blkOf a) = false then s
  else if storedPlain a then s.wr a (storedValue s a (s.rd a) (s.rd a &&& ~~~ m ||| v &&& m))
  else softWrite false s a 15 m v 0

/-- One image record, in ascending address order. -/
def applyImage (s : State) (r : ImgRec) : State :=
  (List.range r.vals.length).foldl (fun st i => applyImageWord st (r.addr + 4 * i) (r.vals.getD i 0)) s

/-- The sides are judged against registers 0 to 3 as they stand now; `old` held them before. -/
def sidesJudge (old s : State) : State :=
  if !s.blkOn bAPORT then s
  else
    sidesRefresh ((List.range 88).foldl (fun st x =>
      if sideHere st x then
        (List.range 4).foldl (fun st2 r =>
          let a := APORT.SIDE_CTL x + 4 * r
          if st2.rd a = old.rd a then st2 else sideWritten false st2 x r (old.rd a)) st
      else st) s)

/-! ### Step 9: placement results -/

/-- The gate list of a media port (R124, R143). -/
def placeGates (s : State) (p : Placed) (port : Nat) : State :=
  let pts := (p.streams.filter (fun q => q.tx && bit q.ports port)).map (fun q => STX.TXS_W0_PTIME.get (q.image.headD 0))
  let rows := gateRows pts
  let s1 := ((List.range rows.length).zip rows).foldl (fun st e =>
    st.wr (MAC.GCL_ENTRY port e.1) (MAC.GCL_ENTRY_GATES.put (MAC.GCL_ENTRY_INTERVAL.put 0 e.2.1) e.2.2)) s
  s1.wr (MAC.GCL_STATUS port)
    (MAC.GCL_STATUS_CYCLE_US.put (MAC.GCL_STATUS_ACTIVE.put (MAC.GCL_STATUS_LEN.put 0 rows.length) 1) (gateCycle pts))

/-- A word of a stream table: the volatile bits of both banks. -/
def placeTableWord (s : State) (a : Nat) (w : Word) : State :=
  [a, swapBank a].foldl (fun st b => st.wr b ((w &&& ~~~ keptMask b) ||| (st.rd b &&& keptMask b))) s

/-- The entries of a stream table and their IPv6 rows. -/
def placeStreams (s : State) (p : Placed) (tx : Bool) : State :=
  let base := if tx then bSTX * 0x100000 else bSRX * 0x100000
  (p.streams.filter (fun q => q.tx == tx)).foldl (fun st q =>
    let s1 := (List.range 16).foldl (fun st2 w => placeTableWord st2 (base + 0x10000 + 64 * q.sid + 4 * w) (q.image.getD w 0)) st
    q.rows.foldl (fun st2 r => (List.range 8).foldl (fun st3 w => placeTableWord st3 (base + 0x30000 + 32 * r.1 + 4 * w) (r.2.getD w 0)) st2) s1) s

/-- The volatile bits of every entry of a stream table return to their reset values, in both banks. -/
def clearTable (s : State) (b : Nat) : State :=
  { s with regs := s.regs.filterMap (fun e =>
      if blkOf e.1 = b ∧ 0x10000 ≤ offOf e.1 then
        let v := (resetWord e.1 &&& ~~~ keptMask e.1) ||| (e.2 &&& keptMask e.1)
        if v = resetWord e.1 then none else some (e.1, v)
      else some e) }

/-- A node starts on its tile from its images, its parameter block and its control words, at its next block boundary. -/
def startNode (s : State) (n : NodeP) : State :=
  let s1 := loadNode s n n.tile
  copyWords (setNode s1 n.id { nodeOf s1 n.id with lastK := nodeBlocks s1 n, xrun := [] }) n (fun w => s1.rd (DSPC.CW n.id w))

/-- A tile after APPLY, or after its domain has come up: RUN with its nodes, IDLE as a spare, OFF otherwise. -/
def startTile (s : State) (p : Placed) (t : Nat) : State :=
  let l := p.nodes.filter (fun n => n.tile == t)
  let x := { TileS.init with secAt := s.stcSecs, msAt := s.stcMsec }
  if !l.isEmpty then l.foldl startNode (setTile s t { x with st := .run, mode := Tbl.getD p.tileMode t .split })
  else if p.spares.contains t then setTile s t { x with st := .idle }
  else { s with dsp := { s.dsp with tiles := s.dsp.tiles.del t } }

/-- The regions of the nodes, as placement laid them out. -/
def placeNodes (s : State) (on : List OnTile) : State :=
  { s with dsp := { tiles := [], nodes := on.foldl (fun t o =>
      Tbl.put t o.id { NodeS.init with xbase := 16 * o.x, ybase := 16 * o.y, pbase := 16 * o.p }) [] } }

/-- What placement writes into a block's registers. -/
def placeRegs (s : State) (p : Placed) (b : Nat) : State :=
  if b = bMACA ∨ b = bMACB then placeGates s p (b - 4)
  else if b = bSTX then placeStreams s p true
  else if b = bSRX then placeStreams s p false
  else if b = bAPORT then (List.range 88).foldl (fun st x =>
    st.wr (APORT.SIDE_BLOCK x) (APORT.SIDE_BLOCK_CH_CAP.put (st.rd (APORT.SIDE_BLOCK x)) (Tbl.getD p.caps x 0))) s
  else s

/-- A block as the placement and the retained values in force make it (R100, R419). -/
def rebuildBlock (s : State) (b : Nat) : State :=
  let s1 := clearBlock (blankRegs s b) b
  match s1.place.now with
  | some p =>
    let s2 := placeRegs ((p.images.filter (fun r => blkOf r.addr == b)).foldl applyImage s1) p b
    if b = bAPORT then sidesRefresh s2 else if b = bDSPC then (List.range 32).foldl (fun st t => startTile st p t) s2 else s2
  | none => s1

/-- The domains that a placement gives work, buffers, lanes or ports (R419; log entry 43). -/
def placedDomains (p : Placed) : Nat :=
  let port := fun (k : Nat) => decide (1 ≤ k) && decide (k ≤ 3)
  let tile := fun (t : Nat) => p.nodes.any (fun n => n.tile / 16 == t) || p.spares.any (fun x => x / 16 == t)
  ofBits ((List.range 12).filter (fun d =>
    p.images.any (fun r => domainOf (blkOf r.addr) == d) ||
    (d == 3 && !p.streams.isEmpty) || d == 5 || (d == 6 && !p.bufs.isEmpty) || (d == 7 && tile 0) || (d == 8 && tile 1) ||
    (d == 9 && (!p.caps.isEmpty || p.flows.any (fun f => port f.srcKind || port f.dstKind))) || (d == 10 && !p.rings.isEmpty)))

/-- The fabric flows of a plan (R378). -/
def placeFabFlows (s : State) (plan : List FabPlan) : State :=
  let defs := plan.map (fun p => p.1)
  let at_ := fun (d : FabDef) => s.time.stc * fabHz s d / stcSec 1 + 1
  { s with fab := { s.fab with
      flows := plan.foldl (fun t p => Tbl.put t p.1.f
        { FabFlowS.init with d := p.1, st := 1, path := p.2.1, lF := p.2.2, txBase := fabTxBase defs p.1, rxBase := fabRxBase defs p.1
                             sent := at_ p.1, read := at_ p.1 - p.2.2 }) []
      planHash := if fabFormed s then planCrc (planSent plan) else s.fab.planHash } }

/-- The ROUTE_SET routes, in both banks (R115). -/
def placeRoutes (s : State) (p : Placed) : State :=
  (p.flows.filter (fun f => f.routeSet)).foldl (fun st f => (List.range f.nch).foldl (fun st2 k =>
    [ROUTE.ENTRY_SHADOW (f.dstNum + k), ROUTE.ENTRY_ACTIVE (f.dstNum + k)].foldl (fun st3 a =>
      st3.wr a (ROUTE.ENTRY_SHADOW_MUTE.put (ROUTE.ENTRY_SHADOW_SRC.put (st3.rd a) (f.srcNum + k)) 0)) st2) st) s

/-- A successful APPLY from CFG_A or CFG_B writes PREF_CFG (Table 4-3). The re-placement of R83 counts as an APPLY for R79 and R133 only, and writes
none (log entry 86). -/
def notePref (s : State) (src : Nat) : State :=
  if src = 1 ∨ src = 2 then
    { s.setFld SYS.BOOT_CTL SYS.BOOT_CTL_PREF_CFG (src - 1) with aon := { s.aon with prefCfg := some (src - 1) } }
  else s

/-- The twin unit after an APPLY: solo roles, the outcome in the hello, pairing anew; a resynchronisation may run again (R356, R340, R361). -/
def twinApplied (s : State) (p : Placed) : State :=
  let s1 := outsSolo { s with twin := { s.twin with solo := true, applyHash := p.hash
                                                    resync := if s.twin.resync = .failed then .idle else s.twin.resync } } (soloRole s)
  pairCheck (helloSend (refreshRole s1 14))

/-- Step 9 but for the mode change: the new bitstream takes effect. -/
def applyStep9 (s : State) (src : Nat) (p : Placed) (on : List OnTile) (plan : List FabPlan) : State :=
  let s1 := { s with place := { s.place with st := 2, now := some p, replacing := none, waiting := [], freeSpares := p.spares, used := []
                                             safeTiles := [], dead := [] }
                     pwr := { s.pwr with placed := placedDomains p }
                     cmd := { s.cmd with cfgSrc := src, swaps := s.cmd.swaps, copying := false, copySkip := [] }
                     way := ⟨[], []⟩ }
  let s2 := setMaxSpread (msyFamily (domainsSettle s1) p.family) p.maxSpread
  let s3 := p.images.foldl applyImage (clearTable (clearTable s2 bSTX) bSRX)
  let s4 := (s3.wr SYS.PARITY_POLICY_LO (BitVec.ofNat 32 p.parityLo)).wr SYS.PARITY_POLICY_HI (BitVec.ofNat 32 p.parityHi)
  let s5 := placeNodes ((List.range 19).foldl (fun st b => if st.blkOn b then placeRegs st p b else st) s4) on
  let r := restoreState (placeFabFlows s5 plan) p
  let same := match r.1 with | some i => i.configId == p.configId | none => false
  let s6 := if same then r.2 else placeRoutes r.2 p
  let s7 := (List.range 32).foldl (fun st t => startTile st p t) (sidesJudge s s6)
  let s8 := srxSwap { s7 with banks := [] }
  let s9 := clearCause (clearCause s8 scNOCONFIG) scTILE
  (twinApplied s9 p).emit .control 0xE001 sevNOTICE 0 [p.buildId, p.configId, p.fwVersion]

/-! ### Rejection (R129) -/

/-- The four REJECT words, and a rejection read back from them. -/
def Rej.words (r : Rej) : Nat × Nat × Nat × Nat := (r.code + r.flow * 2 ^ 16, r.kind + r.index * 2 ^ 16, r.bound, r.req)
def Rej.ofWords (w : Nat × Nat × Nat × Nat) : Rej := ⟨w.1 % 2 ^ 11, w.1 / 2 ^ 16, w.2.1 % 2 ^ 8, w.2.1 / 2 ^ 16, w.2.2.1, w.2.2.2⟩

/-- A failed step is reported in the PLACE registers and recorded. -/
def rejected (s : State) (r : Rej) : State :=
  let s1 := { s with place := { s.place with st := 3, rejCode := r.code, rejFlow := r.flow, rejKind := r.kind, rejIndex := r.index
                                             rejBound := r.bound, rejReq := r.req } }
  (s1.raise PLACE.CAUSE 0).emit .control 0xE002 sevERROR 0 [r.words.1, r.words.2.1, r.words.2.2.1, r.words.2.2.2]

/-- The REJECT registers of the last APPLY clear as the next one starts. -/
def applyBegins (s : State) : State :=
  { s with place := { s.place with st := 1, rejCode := 0, rejFlow := 0, rejKind := 0, rejIndex := 0, rejBound := 0, rejReq := 0 } }

/-! ### The end of a load (R83, R84) -/

/-- Reading a partition with uncorrectable pages takes free values (log entry 21). -/
def readSpent (s : State) (l : LoadS) : State :=
  if l.src < 4 ∧ s.nand.bad.isEmpty = false then { s with free := s.free + 2 ^ 25 } else s

/-- The load is over: the sequencer is released, and what was exchanged for a fabric APPLY is forgotten. -/
def loadOver (s : State) : State :=
  { s with cmd := { s.cmd with loading := none, applying := false }
           fab := { s.fab with waitCfg := none, late := false, plan := none, outcomes := [], reports := [] } }

/-- The data plane stops as the placement is rebuilt (R83). For a host source the media store is kept on (Table 4-10). -/
def stopDataPlane (s : State) (src : Nat) : State :=
  let keep := s.place
  let s1 := { s with
    place := { PlaceS.init with rejCode := keep.rejCode, rejFlow := keep.rejFlow, rejKind := keep.rejKind, rejIndex := keep.rejIndex
                                rejBound := keep.rejBound, rejReq := keep.rejReq }
    way := ⟨[], []⟩
    stx := { s.stx with next := [], lastK := [], clearK := [] }
    srx := { s.srx with rxs := [], pol := [] }
    dsp := { tiles := s.dsp.tiles.filter (fun e => e.2.st == .faulted), nodes := [] }
    fab := { s.fab with flows := [] }
    pwr := { s.pwr with placed := if 4 ≤ src then 64 else 0 } }
  domainsSettle s1

/-- SAFE with NO_CONFIG, with every other cause that stands. -/
def noConfig (s : State) : State :=
  safeCause { s with cmd := { s.cmd with cfgSrc := 0 }, pwr := { s.pwr with placed := 0 } } scNOCONFIG true

/-- A whole load from a source outside the sequencer's LOAD: steps 1 to 9, with the placement in force elsewhere in a fabric (log entry 45). -/
def placeFrom (s : State) (src : Nat) : Except Rej State := do
  let l : LoadS := ⟨src, partBytes s src, false, s.cmd.mode, 0, none, 0, [], []⟩
  let k ← applyFront s l
  let plan ←
    if fabPart s then
      (if fabFormed s && s.fab.recs.any (fun r => (fabId s r.serial).isSome && r.configId == k.c.configId) then
         planOf s k else .error (rejBare 0x061))
    else .ok []
  let s1 := adoptPeerFaults s k.c.configId
  let r ← (placeInOf s1 k plan).place
  need (fwStarts k) (rejBare 0x070)
  pure (applyStep9 s1 src r.1 r.2 plan)

/-- The sources of automatic boot, in order; none where the device waits for LOAD (R84, R90). -/
def bootOrder (s : State) : Option (List Nat) :=
  let std := if bootPref s = 0 then [1, 2, 3] else [2, 1, 3]
  if s.cmd.wakeBoot ∧ s.aon.bootSrc ≠ 0 then (if 4 ≤ s.aon.bootSrc then none else some (s.aon.bootSrc :: std))
  else if s.chip.straps.bootSel = 0 then some std else if s.chip.straps.bootSel = 1 then some [3] else none

/-- A source of automatic boot has failed: the record, the _FAIL bit, and the next source; after the last one SAFE with NO_CONFIG (R84). A failed
attempt leaves the mode LOAD as it is: neither MODE_CHG nor MODE_CHANGE follows (log entry 86). -/
def autoFails (s : State) (l : LoadS) (code : Nat) : State :=
  let s1 := ({ s with cmd := { s.cmd with cfgFail := setBit s.cmd.cfgFail (l.src - 1) true } }).emit .control 0x0009
    sevERROR 0 [code]
  match l.order with
  | x :: r => { s1 with cmd := { s1.cmd with loading := some { l with src := x, len := partBytes s1 x, order := r }, applying := false } }
  | [] => domainsOff (noConfig (loadOver s1))

/-- The device leaves LOAD without the new bitstream. From BOOT it waits for LOAD again; from HOLD or SAFE the bitstream that ran before is placed
again from its partition, or SAFE with NO_CONFIG follows. The LOAD or APPLY in progress completes as the mode has changed. -/
def loadEnds (s : State) (l : LoadS) (status detail : Nat) : State :=
  let s0 := loadOver (readSpent s l)
  let s1 :=
    if l.begun = .boot then
      let b := changeMode s0 .boot
      { b with cmd := { b.cmd with waitLoad := true, safeCause := setBit b.cmd.safeCause scNOCONFIG true, cfgSrc := 0 }
               pwr := { b.pwr with placed := 0 } }
    else if 1 ≤ l.prevSrc ∧ l.prevSrc ≤ 3 then
      match placeFrom s0 l.prevSrc with
      | .ok x => changeMode x (if x.cmd.safeCause = 0 then .hold else .safe)
      | .error _ => noConfig s0
    else noConfig s0
  let s2 := if s1.place.now.isNone then domainsOff s1 else s1
  match l.cmd with
  | some c => finish s2 c status detail
  | none => s2

/-- The failure of an APPLY, or of a LOAD. -/
def applyFails (s : State) (l : LoadS) (r : Rej) : State :=
  if l.auto then autoFails (readSpent (rejected s r) l) l r.code else loadEnds (rejected s r) l cFAILED r.code

/-- AUTOSTART, or the stored resume mode of a wake, moves HOLD to RUN after a load that began in BOOT; not after an over-temperature SLEEP (R87,
R90, R437). -/
def autoStarts (s : State) (l : LoadS) : Bool :=
  l.begun == .boot && !(s.cmd.wakeBoot && s.pwr.hotSleep) && (s.flag SYS.BOOT_CTL SYS.BOOT_CTL_AUTOSTART || (s.cmd.wakeBoot && s.aon.resumeRun))

/-- Step 9, and HOLD. A SAFE cause that still stands shows in SAFE_CAUSE (Table 4-5, R109). -/
def applySucceeds (s : State) (l : LoadS) (p : Placed) (on : List OnTile) (plan : List FabPlan) : State :=
  let s1 := notePref (applyStep9 (loadOver (readSpent s l)) l.src p on plan) l.src
  let s2 := { s1 with cmd := { s1.cmd with autoStart := autoStarts s1 l, startWait := if autoStarts s1 l then some s1.now else none
                                           waitLoad := false } }
  let s3 := changeMode s2 .hold
  match l.cmd with
  | some c => finish s3 c cOK 0
  | none => s3

/-- Steps 6 to 9 of a container that has passed step 5. -/
def applyTail (s : State) (l : LoadS) (k : Checked) (plan : List FabPlan) : State :=
  let s1 := adoptPeerFaults s k.c.configId
  match (placeInOf s1 k plan).place with
  | .error r => applyFails s1 l r
  | .ok (p, on) => if fwStarts k then applySucceeds s1 l p on plan else applyFails s1 l (rejBare 0x070)

/-! ### Agreement in a fabric (R384, R385) -/

/-- A message to another member leaves by its routing entry. -/
def fabTell (s : State) (d : Nat) (m : FabMsg) : State :=
  match routeOf (fabEdges s) (myId s) d with
  | some (lane, _) => fabSend s lane m
  | none => s

/-- The other members of the formed fabric, and a message to each. -/
def fabOthers (s : State) : List Nat := (List.range s.fab.formed.length).filter (fun d => d != myId s)
def fabTellAll (s : State) (m : FabMsg) : State := (fabOthers s).foldl (fun st d => fabTell st d m) s

/-- Every formed member is present. -/
def fabWhole (s : State) : Bool := fabFormed s && (fabPresent s).length == s.fab.formed.length

/-- The CONFIG_ID a member's record shows; 0 where it runs nothing. -/
def memberConfig (s : State) (d : Nat) : Nat :=
  match s.fab.recs.find? (fun r => fabId s r.serial == some d) with | some r => r.configId | none => 0

/-- APPLY fails on every member with the values of one (R384). -/
def fabFails (s : State) (l : LoadS) (dev : Nat) (r : Rej) : State :=
  applyFails (s.wr FAB.REJECT_DEV (BitVec.ofNat 32 dev)) l r

/-- What this member's own steps 6 and 7 give under a plan. -/
def fabOutcome (s : State) (k : Checked) (plan : List FabPlan) : Nat × Nat × Nat × Nat :=
  if s.fab.rebuilt then (rejBare 0x060).words
  else match (placeInOf s k plan).place with
    | .ok _ => (0, 0, 0, 0)
    | .error r => r.words

/-- The coordinator's verdict once every outcome is in: the lowest-ID failure decides. -/
def fabVerdict (s : State) (l : LoadS) (k : Checked) : State :=
  let all := (List.range s.fab.formed.length).map (fun d => (d, s.fab.outcomes.find d))
  if all.any (fun x => x.2.isNone) then s
  else match all.find? (fun x => x.2 != some (0, 0, 0, 0)) with
    | some (d, w) =>
      let w := w.getD (0, 0, 0, 0)
      fabFails (fabTellAll s (.outcome d w.1 w.2.1 w.2.2.1 w.2.2.2)) l d (Rej.ofWords w)
    | none => applyTail (fabTellAll s (.outcome (myId s) 0 0 0 0)) l k (planFrom s k (s.fab.plan.getD []))

/-- Every member has reported the same CONFIG_ID: the coordinator makes and sends the plan. -/
def fabAgreed (s : State) (l : LoadS) (k : Checked) : State :=
  if myId s ≠ fabCoord s then s
  else
    let s1 := adoptPeerFaults s k.c.configId
    match planOf s1 k with
    | .error r =>
      let w := r.words
      fabFails (fabTellAll s1 (.outcome (myId s) w.1 w.2.1 w.2.2.1 w.2.2.2)) l (myId s) r
    | .ok plan =>
      let x := planSent plan
      let s2 := fabTellAll { s1 with fab := { s1.fab with plan := some x, planHash := planCrc x } } (.plan x (planCrc x))
      fabVerdict { s2 with fab := { s2.fab with outcomes := Tbl.put s2.fab.outcomes (myId s) (fabOutcome s2 k plan) } } l k

/-- Judge the reports that are in (R384). -/
def fabJudge (s : State) (l : LoadS) (k : Checked) : State :=
  if (fabOthers s).any (fun d => match s.fab.reports.find d with | some c => c != k.c.configId | none => false) then fabFails s l (myId s) (rejBare 0x061)
  else if (fabOthers s).all (fun d => (s.fab.reports.find d).isSome) then fabAgreed s l k
  else s

/-- Step 5 begins. A member that joins a running fabric waits for the plan in force only (R385). -/
def fabBegins (s : State) (l : LoadS) (k : Checked) : State :=
  if !fabWhole s then fabFails s l (myId s) (rejBare 0x060)
  else
    let late := (fabOthers s).all (fun d => memberConfig s d != 0)
    let s1 := fabTellAll { s with fab := { s.fab with waitCfg := some s.now, late := late && !(fabOthers s).isEmpty, rebuilt := false, outcomes := [], plan := none } }
      (.config (myId s) k.c.configId)
    if s1.fab.late then
      (if (fabOthers s).any (fun d => memberConfig s d != k.c.configId) then fabFails s1 l (myId s) (rejBare 0x061) else s1)
    else fabJudge s1 l k

/-- APPLY from step 1 on, with the command that asked for it. In a fabric it goes on as the members' reports arrive. -/
def runApply (s : State) (l : LoadS) : State :=
  let s0 := applyBegins { s with cmd := { s.cmd with loading := some l, applying := true } }
  match applyFront s0 l with
  | .error r => applyFails s0 l r
  | .ok k => if fabPart s0 then fabBegins s0 l k else applyTail s0 l k []

/-- A plan arrives: this member places its share and reports, or joins the running fabric. -/
def planArrives (s : State) (l : LoadS) (k : Checked) (x : List (Nat × List (Nat × Nat) × Nat)) : State :=
  let s1 := adoptPeerFaults { s with fab := { s.fab with plan := some x, planHash := planCrc x } } k.c.configId
  let plan := planFrom s1 k x
  if s1.fab.late then applyTail s1 l k plan
  else
    let w := fabOutcome s1 k plan
    fabTell { s1 with fab := { s1.fab with outcomes := Tbl.put s1.fab.outcomes (myId s1) w } } (fabCoord s1)
      (.outcome (myId s1) w.1 w.2.1 w.2.2.1 w.2.2.2)

/-- An outcome arrives: at the coordinator that of a member, elsewhere the verdict. -/
def outcomeArrives (s : State) (l : LoadS) (k : Checked) (member : Nat) (w : Nat × Nat × Nat × Nat) : State :=
  if myId s = fabCoord s then fabVerdict { s with fab := { s.fab with outcomes := Tbl.put s.fab.outcomes member w } } l k
  else if w = (0, 0, 0, 0) then
    (if s.fab.rebuilt then fabFails s l (myId s) (rejBare 0x060) else applyTail s l k (planFrom s k (s.fab.plan.getD [])))
  else fabFails s l member (Rej.ofWords w)

/-- The plan in force, with the paths as they stand (R385, R386). -/
def planInForce (s : State) : List (Nat × List (Nat × Nat) × Nat) :=
  (s.fab.flows.filter (fun e => e.2.st != 0)).map (fun e => (e.1, e.2.path, e.2.lF))

/-- What arrives from a member (R384, R385). A member that runs the bitstream gives a joining one the plan; the lowest-ID one does so. -/
def fabReport (s : State) (member : Nat) (r : FabReport) : State :=
  if !fabFormed s || member == myId s || s.fab.formed.length ≤ member then s
  else match s.cmd.loading, s.cmd.applying && s.fab.waitCfg.isSome with
    | some l, true =>
      match applyFront s l with
      | .error e => applyFails s l e
      | .ok k =>
        if s.fab.late then (match r with | .plan x => planArrives s l k x | _ => s)
        else match r with
          | .configId c =>
            if s.fab.plan.isSome then s else fabJudge { s with fab := { s.fab with reports := Tbl.put s.fab.reports member c } } l k
          | .plan x => if myId s = fabCoord s then s else planArrives s l k x
          | .outcome c res bound req => outcomeArrives s l k member (c, res, bound, req)
    | _, _ =>
      match r with
      | .configId c =>
        let s1 := { s with fab := { s.fab with reports := Tbl.put s.fab.reports member c } }
        if s.place.now.isSome && configId s == c && (fabPresent s).find? (fun d => d != member) == some (myId s) then
          fabTell s1 member (.plan (planInForce s) (planCrc (planInForce s)))
        else s1
      | _ => s

/-- One second after step 5 began, a member has not reported, or a rebuild has come in between (R384). -/
def fabTimeout (s : State) : State :=
  match s.cmd.loading, s.fab.waitCfg with
  | some l, some a =>
    if s.cmd.applying && !s.fab.late && decide (a + secs 1 ≤ s.now) && (s.fab.rebuilt || !(fabOthers s).all (fun d => (s.fab.reports.find d).isSome)) then
      fabFails s l (myId s) (rejBare 0x060)
    else s
  | _, _ => s

end Sys2Proof.Machine
end

