-- ==== Sys2Proof/Machine/Sequencer.lean ====
section
/-!
DEFINITION. The command sequencer (chapter 4): intake, judging and legality (R80, R91, R92, R94, R98, R99, R441), what each command does (R87 to
R103, R210, R214, R347, R363, R402, R415), commit epochs and bank swaps (R101, R102), lockstep (R31) and automatic boot (R84).
-/
namespace Sys2Proof.Machine

/-! ### Legality (R80, R84, R98, R99, R347) -/

/-- What a mode says of a command: accepted, deferred, rejected. -/
inductive Verdict
  | a | d | r
deriving DecidableEq, Repr

/-- Table 4-11 by opcode: SLEEP, BOOT, LOAD, RUN, HOLD, SAFE. -/
def legality : Nat → List Verdict
  | 0x01 => [.r, .a, .r, .r, .a, .a]
  | 0x02 => [.r, .r, .a, .r, .r, .r]
  | 0x03 => [.r, .r, .d, .a, .a, .d]
  | 0x04 => [.r, .r, .a, .a, .a, .a]
  | 0x05 => [.r, .d, .d, .a, .a, .r]
  | 0x06 => [.r, .d, .d, .a, .a, .a]
  | 0x07 => [.r, .d, .d, .a, .a, .a]
  | 0x08 => [.r, .d, .d, .a, .a, .r]
  | 0x09 => [.r, .d, .d, .a, .a, .a]
  | 0x0A => [.r, .r, .r, .a, .a, .r]
  | 0x0B => [.r, .r, .r, .a, .a, .r]
  | 0x0C => [.r, .r, .r, .a, .a, .a]
  | 0x0D => [.r, .r, .r, .a, .a, .a]
  | 0x0E => [.a, .r, .r, .r, .r, .r]
  | 0x0F => [.r, .r, .d, .a, .a, .r]
  | 0x10 => [.r, .a, .a, .a, .a, .a]
  | 0x11 => [.r, .a, .a, .a, .a, .a]
  | 0x12 => [.r, .d, .d, .a, .a, .a]
  | 0x13 => [.r, .r, .r, .a, .a, .a]
  | _ => []

/-- Whether an opcode is known. -/
def opKnown (op : Nat) : Bool := decide (1 ≤ op) && decide (op ≤ 0x13)

/-- Table 4-11 in the present mode, with R80 and the APPLY of R84. -/
def modeVerdict (s : State) (op : Nat) : Verdict :=
  if (bit s.cmd.safeCause scFUSE || bit s.cmd.safeCause scTEST) && (op == 0x01 || op == 0x02 || op == 0x06 || op == 0x0D) then .r
  else if op = 0x02 ∧ s.cmd.mode = .load ∧ (match s.cmd.loading with | some l => l.auto | none => false) = true then .d
  else (legality op).getD s.cmd.mode.code .r

/-- The mirrored commands (R347). -/
def isMirrored (op : Nat) : Bool := op == 0x03 || (decide (5 ≤ op) && decide (op ≤ 0x0A))

/-- What the sequencer makes of a command that has passed the checks on its words. -/
def verdict (s : State) (c : Cmd) : Verdict :=
  if isMirrored c.op && c.src != .mirror && twinned s && s.twin.role != .active then .r else modeVerdict s c.op

/-- Blocks that RESET_BLOCK accepts (R100). -/
def resettable (b : Nat) : Bool := b == bMACA || b == bMACB || b == bMACM || b == bAPORT || b == bDMA || b == bFAB || b == bSTORE

/-- Arguments outside the ranges of Table 4-10; a word given as 0 must be 0 (log entry 46). -/
def argBad (s : State) (op a0 a1 : Nat) : Bool :=
  if op = 0x01 then decide (a0 < 1) || decide (4 < a0) || (a0 == 4 && decide (25165824 < a1)) || (a0 != 4 && a1 != 0)
  else if op = 0x03 then decide (999 < a1 % 1024) || a1 / 1024 % 2 ^ 21 != 0
  else if op = 0x07 ∨ op = 0x08 then decide (31 < a0) || a1 != 0
  else if op = 0x09 then decide (15 < a0) || a1 != 0
  else if op = 0x0A then decide (1 < a1)
  else if op = 0x0C then decide (1 < a0) || a1 != 0
  else if op = 0x12 then decide (5 < a0) || a1 != 0
  else if op = 0x13 then a1 != 0 || decide (18 < a0) || (s.present a0 && !resettable a0)
  else a0 != 0 || a1 != 0

/-- A command aimed at an absent block. -/
def argAbsent (s : State) (op a0 : Nat) : Bool := (op == 0x13 && !s.present a0) || ((op == 0x0B || op == 0x0C) && !s.present bTWIN)

/-! ### Epochs (R22, R93, R347) -/

/-- How far ahead an epoch must lie: 100 µs, and 2 ms for a mirrored command on a twinned ACTIVE unit. -/
def marginOf (s : State) (c : Cmd) : Nat :=
  if isMirrored c.op && twinned s && s.twin.role == .active then stcMs 2 else 100000 * 2 ^ 56

/-- The first eligible epoch for a command, in milliseconds of the STC; epochs taken before a backward step are not taken again (R215). -/
def epochFor (s : State) (c : Cmd) : Nat := Nat.max (cdiv (s.time.stc + marginOf s c) (stcMs 1)) (s.time.epoch + 1)

/-- A command waits as started. -/
def hold (s : State) (c : Cmd) (e : Option Nat) : State := { s with cmd := { s.cmd with started := s.cmd.started ++ [⟨c, e⟩] } }

/-- It waits for an epoch, which the ACTIVE unit forwards with the command. -/
def holdEpoch (s : State) (c : Cmd) (e : Nat) : State :=
  let s1 := hold s c (some e)
  if isMirrored c.op then mirrorOut s1 (.cmd ⟨c.op, c.arg0, c.arg1, e⟩) else s1

/-! ### Banks (R95, R102) -/

/-- Shadow-bank addresses of the table words that either bank lists. -/
def tableAddrs (s : State) : List Nat :=
  sortNat ((s.regs.map (fun e => phys s.bankSel e.1)).filterMap (fun a =>
    if isShadow a then some a else if isActive a then some (swapBank a) else none))

/-- The active banks are copied into the shadow banks, but for the entries of a list; an entry copied has its parity restored. -/
def copyBanks (s : State) (skip : List Nat) : State :=
  let s1 := { s with host := { s.host with corrupt := s.host.corrupt.filter (fun c =>
    !isShadow (phys s.bankSel c.addr) || skip.contains (entryOf (phys s.bankSel c.addr))) } }
  (tableAddrs s1).foldl (fun st a => if skip.contains (entryOf a) then st else st.wr a (st.rd (swapBank a))) s1

/-- The CRC-32 of the three active banks (Table 14-2; log entry 47). -/
def banksCrc (s : State) : Nat :=
  crc32 (((tableAddrs s).filter (fun a => s.rd (swapBank a) != resetWord a)).flatMap (fun a => leBytes 4 a ++ leBytes 4 (s.rd (swapBank a)).toNat))

/-- The bank swap of an epoch in milliseconds (R102, R103, R183). -/
def swapBanks (s : State) (e : Nat) : State :=
  let s1 := { s with bankSel := !s.bankSel, banks := (⟨stcMs e, s.bankSel, s.regs⟩ :: s.banks).take 16
                     cmd := { s.cmd with lastMs := e % 1000, swaps := (s.cmd.swaps + 1) % 65536, copying := true, copySkip := [] } }
  let s2 := wantJournal (paritySwap (srxSwap s1))
  mirrorOut s2 (.banks s2.cmd.swaps (banksCrc s2))

/-- The row BANK_COPY_DONE. -/
def execBankCopyDone (t : Nat) (s : State) : Host.Outcome State Fault Refusal :=
  .next (
    let s0 := s.at t
    if s0.cmd.copying then
      let s1 := copyBanks s0 s0.cmd.copySkip
      parityClear { s1 with cmd := { s1.cmd with copying := false, copySkip := [] } }
    else s0)

/-! ### SLEEP entry (R89, R421, R422) -/

/-- A wake source is true: it is latched in SLEEP and during its entry, and in SLEEP the wake starts. Once it has started only sources of the same
cycle are added (R421). -/
def wakeOn (s : State) (code : Nat) : State :=
  if (s.pwr.waking && s.pwr.wakeAt != s.now) || !(s.cmd.mode == .sleep || s.cmd.sleeping) then s
  else { s with pwr := { s.pwr with wakeLatch := setBit s.pwr.wakeLatch (code - 1) true, waking := s.cmd.mode == .sleep, wakeAt := s.now } }

/-- The level of WAKE_IN that PIN_POL selects stands. -/
def pinTrue (level : Bool) (en : Nat) : Bool := bit en 0 && level != bit en 1

/-- The sources latched as the last domain goes off: WAKE_IN counts while its level stands (R421). -/
def pinLatch (s : State) : Nat := if pinTrue s.pwr.wakeInPin (s.rd PWR.WAKE_EN).toNat then setBit s.pwr.wakeLatch 0 true else s.pwr.wakeLatch

/-- Step 6: every domain but PD0 goes off. What the always-on island keeps stays: the recorder, the log registers, its copies, SEC.CTL (R112), the STC in
holdover at the learned frequency, and the twin role that R33 gives. -/
def powerDown (s : State) : State :=
  let s1 := if twinned s then setRole s .isolated 16 else setRole s .solo 16
  let s2 := { s1 with
    regs := s1.regs.filter (fun e => blkOf e.1 == bLOG || e.1 == SEC.CTL), bankSel := false, banks := [], mem := []
    pwr := { s1.pwr with on := 1, placed := 0, forcedOff := 0, wakeLatch := pinLatch s1, waking := pinLatch s1 != 0, wakeAt := s1.now, tj := none }
    recorder := { s1.recorder with degraded := false }
    host := { HostS.init with spi := { HostS.init.spi with csLow := s1.host.spi.csLow }, cpls := s1.host.cpls }
    cmd := { CmdS.boot s1.cmd.mode.code with mode := .sleep, safeCause := s1.cmd.safeCause % 4, nextOrder := s1.cmd.nextOrder }
    aon := { s1.aon with wakeEn := (s1.rd PWR.WAKE_EN).toNat, tempCtl := (s1.rd PWR.TEMP_CTL).toNat
                         station := (s1.rd (MAC.STATION_ADDR_LO 2)).toNat + (s1.rd (MAC.STATION_ADDR_HI 2)).toNat % 2 ^ 16 * 2 ^ 32
                         wakeRegs := s1.regs.filter (fun e => blkOf e.1 == bMACM) }
    nand := { s1.nand with present := false, ready := false, fault := false, failAt := none, retrying := false, xfer := none, xferBusy := false
                           geomErr := false, xferStatus := 0, scrub := none, ctr := [] }
    macA := .init, macB := .init, macM := .init, stx := .init, srx := .init, way := ⟨[], []⟩, place := .init
    time := { TimeS.init with stc := s1.time.stc, epoch := s1.time.epoch, st := .holdover, learned := s1.time.learned, learnAge := s1.time.learnAge
                              hoFreq := yFor s1 0, y := yFor s1 0 }
    clk := .init, aport := .init, dsp := .init
    dma := { DmaS.init with hostMem := s1.dma.hostMem, msix := s1.dma.msix }
    twin := { TwinS.init with role := s1.twin.role, solo := s1.twin.solo, clash := s1.twin.clash, out := s1.twin.out, lostFrom := s1.now }
    gander := .init, fab := { FabS.init with out := s1.fab.out } }
  s2.emit .aon 0x0007 sevNOTICE 0 [s2.modeWord]

/-- Every command that has not completed is cancelled, but for the SLEEP itself and a SNAPSHOT whose checkpoint is being written (step 5). -/
def cancelOpen (s : State) : State :=
  let writing := fun (c : Cmd) => match s.cmd.imgJob with | some j => (match j.cmd with | some x => x.order == c.order | none => false) | none => false
  let stays := fun (c : Cmd) => c.op == 0x0D || writing c
  let gone := (s.cmd.started.map (fun x => x.cmd)).filter (fun c => !stays c)
  let s1 := finishAll { s with cmd := { s.cmd with queue := [], deferred := [], heldAborts := [], mode := s.cmd.mode
                                                   started := s.cmd.started.filter (fun x => stays x.cmd), resetting := [], startWait := none, autoStart := false }
                               time := { s.time with selQ := [] }
                               twin := { s.twin with takeover := [], yield := [] } }
    (gone ++ s.cmd.deferred ++ s.cmd.heldAborts ++ s.cmd.queue) cCANCELLED
  { s1 with nand := { s1.nand with scrub := none } }

/-- Step 4: the source of the running bitstream and the mode to resume are stored, and the entry is recorded. After an over-temperature the mode to
resume is HOLD (R437). -/
def sleepStore (s : State) : State :=
  ({ s with aon := { s.aon with bootSrc := s.cmd.sleepSrc.getD s.cmd.cfgSrc, resumeRun := s.cmd.mode == Mode.run && !s.pwr.hotSleep } }).emit
    .control 0x000E sevNOTICE 0 []

/-- Steps 4 to 6. -/
def sleepFinish (s : State) : State :=
  let s0 := thawDrain (sleepStore s)
  let s1 := cancelOpen (if logReady s0 then programPage s0 else s0)
  let s2 := match s1.cmd.started.find? (fun x => x.cmd.op == 0x0D) with
    | some x => finishStarted s1 x.cmd cOK 0
    | none => s1
  powerDown s2

/-- The retained state of the active banks differs from the newest journal image. Before a bitstream has been applied no retained state is in
force, and nothing is to be written. -/
def journalStale (s : State) : Bool :=
  s.place.now.isSome && match journalImages s with
  | i :: _ => i.body != retainedBody s || i.configId != configId s || i.policyId != policyId s
  | [] => true

/-- The journal write of step 3 has failed. -/
def sleepUnwritten (s : State) : State := sleepFinish (s.emit .control 0x000B sevWARNING 0 [])

/-- Steps 2 and 3. Pending commits end, and the shadow banks are discarded. The entry goes on once the
image is stored. -/
def sleepBegin (s : State) : State :=
  let s1 := { copyBanks s [] with cmd := { s.cmd with sleeping := true, copying := false, copySkip := []
                                                      started := s.cmd.started.filter (fun x => x.cmd.op != 0x03) } }
  let s2 := finishAll s1 ((s.cmd.started.filter (fun x => x.cmd.op == 0x03)).map (fun x => x.cmd)) cCANCELLED
  if s2.cmd.imgJob.isNone && s2.cmd.imgWait.isNone && !journalStale s2 then sleepFinish s2
  else if s2.nand.ready then (if journalStale s2 then wantJournal s2 else s2)
  else sleepUnwritten s2

/-- SLEEP starts: in RUN the outputs are muted at the next eligible epoch (step 1). `hot` and `src`: after an over-temperature, and the source that is
then stored (R437). -/
def sleepStart (s : State) (c : Cmd) (hot : Bool) (src : Option Nat) : State :=
  let s1 := { s with cmd := { s.cmd with sleeping := true, sleepSrc := src }, pwr := { s.pwr with hotSleep := hot } }
  if s.cmd.mode = .run then hold s1 c (some (epochFor s1 c)) else sleepBegin (hold s1 c none)

/-! ### The commands -/

/-- The output groups muted by MUTE change (Table 4-10). -/
def setGroups (s : State) (g : Nat) : State :=
  if g = s.cmd.groups then s
  else noteOuts s { s with cmd := { s.cmd with groups := g, groupsStc := s.time.stc } }

/-- The media clock lets START act (R87). -/
def clockReady (s : State) : Bool := s.time.st == .locked || s.time.st == .holdover

/-- STOP takes effect in the mode that stands. -/
def actStop (s : State) (c : Cmd) : State :=
  if s.cmd.mode = .run then finish (changeMode s .hold) c cOK 0
  else if s.cmd.mode = .safe then
    (if s.cmd.safeCause = 0 then finish (changeMode s .hold) c cOK 0 else finish s c cFAILED (s.cmd.safeCause % 64))
  else finish s c cOK 0

/-- The target of a COMMIT in milliseconds (R101): with ABS, the seconds nearest to the STC, the later of two equally near. -/
def commitTarget (s : State) (c : Cmd) : Nat :=
  if bit c.arg1 31 then
    let now := s.stcNs / 1000000000 / 2 ^ 32
    let at_ := fun (h : Nat) => (h * 2 ^ 32 + c.arg0) * 1000 + c.arg1 % 1024
    let dist := fun (h : Nat) => (((at_ h * 1000000 * 2 ^ 56 : Nat) : Int) - (s.time.stc : Int)).natAbs
    at_ (([now - 1, now, now + 1] : List Nat).foldl (fun b h => if dist h ≤ dist b then h else b) (now - 1))
  else epochFor s c

/-- A block reset by RESET_BLOCK: its outputs are silent and its rings and links stop; it resumes at the next eligible epoch (R100). A STORE reset
starts a retry of a failed medium at once (R412). -/
def resetBlock (s : State) (c : Cmd) : State :=
  let b := c.arg0
  let s1 := if b = bDMA then dmaReset s else if b = bAPORT ∨ b = bFAB then domSilence s (domainOf b)
            else if bMACA ≤ b ∧ b ≤ bMACM ∧ linkUp s (b - 4) = true then linkFall s (b - 4) else s
  let s2 := rebuildBlock s1 b
  let s3 := if b = bSTORE ∧ s2.nand.fault = true then { s2 with nand := { s2.nand with retrying := true } } else s2
  hold { s3 with cmd := { s3.cmd with resetting := b :: s3.cmd.resetting } } c (some (epochFor s3 c))

/-- LOAD (R83, R84, Table 4-10). -/
def startLoad (s : State) (c : Cmd) : State :=
  let src := if c.arg0 = 4 then (if c.src = .spi then 5 else 4) else c.arg0
  let begun := s.cmd.mode
  let len := if c.arg0 = 4 then c.arg1 else partBytes s src
  let l : LoadS := ⟨src, len, false, begun, s.cmd.cfgSrc, none, s.free, [], []⟩
  let s1 := changeMode (stopDataPlane { s with free := if c.arg0 = 4 then s.free + len else s.free } src) .load
  let s2 := { s1 with cmd := { s1.cmd with loading := some l, waitLoad := false, cfgSrc := 0, autoStart := false, startWait := none } }
  if src < 4 ∧ s.nand.ready = false then applyFails (applyBegins s2) { l with cmd := some c } (rejBare 0x019)
  else finish s2 c cOK 0

/-- ABORT (R95). -/
def doAbort (s : State) (c : Cmd) : State :=
  match s.cmd.mode, s.cmd.loading with
  | .load, some l => finish (loadEnds s l cCANCELLED 0) c cOK 0
  | _, _ =>
    let pend := (s.cmd.started.filter (fun x => x.cmd.op == 0x03)).map (fun x => x.cmd) ++
      (s.cmd.deferred ++ s.cmd.queue).filter (fun x => x.op == 0x03)
    let s1 := finishAll { s with cmd := { s.cmd with started := s.cmd.started.filter (fun x => x.cmd.op != 0x03)
                                                     deferred := s.cmd.deferred.filter (fun x => x.op != 0x03)
                                                     queue := s.cmd.queue.filter (fun x => x.op != 0x03) } } pend cCANCELLED
    finish { copyBanks s1 [] with cmd := { s1.cmd with copying := false, copySkip := [] } } c cOK 0

/-- TAKEOVER (Table 14-10). -/
def doTakeover (s : State) (c : Cmd) : State :=
  match s.twin.role with
  | .active => finish s c cOK 0
  | .solo => finish s c cFAILED 1
  | .isolated => finish s c cFAILED 2
  | .standby =>
    if s.twin.lanes = 0 then finish s c cFAILED 4
    else if s.twin.gander = .lost then finish s c cFAILED 3
    else hold { s with twin := { s.twin with takeover := s.twin.takeover ++ [(c, s.now)] } } c none

/-- YIELD (Table 14-10). -/
def doYield (s : State) (c : Cmd) : State :=
  let iso := bit c.arg0 0
  match s.twin.role with
  | .active => hold { s with twin := { s.twin with yield := s.twin.yield ++ [(some c, s.now)], yieldIso := iso || (!s.twin.yield.isEmpty && s.twin.yieldIso), rejoinHeld := s.twin.rejoinHeld || iso } } c none
  | .standby => if iso then finish (setRole { s with twin := { s.twin with rejoinHeld := true } } .isolated 12) c cOK 0 else finish s c cOK 0
  | .isolated => finish { s with twin := { s.twin with rejoinHeld := s.twin.rejoinHeld || iso } } c cOK 0
  | .solo => finish s c cOK 0

/-- An accepted command runs. -/
def runCmd (s : State) (c : Cmd) : State :=
  if c.op = 0x01 then startLoad s c
  else if c.op = 0x02 then
    (match s.cmd.loading with
     | some l => runApply s { l with cmd := some c }
     | none => finish s c cILLEGAL 0)
  else if c.op = 0x03 then
    (let e := commitTarget s c
     if stcMs e < s.time.stc + marginOf s c ∨ e ≤ s.time.epoch then finish s c cLATE 0 else holdEpoch s c e)
  else if c.op = 0x04 then doAbort s c
  else if c.op = 0x05 then
    (if s.cmd.mode = .run then finish s c cOK 0
     else holdEpoch { s with cmd := { s.cmd with startWait := some (s.cmd.startWait.getD s.now) } } c (epochFor s c))
  else if c.op = 0x06 then (if s.cmd.mode = .run then holdEpoch s c (epochFor s c) else actStop s c)
  else if c.op = 0x07 then (if s.cmd.groups ||| c.arg0 = s.cmd.groups then finish s c cOK 0 else holdEpoch s c (epochFor s c))
  else if c.op = 0x08 then (if s.cmd.groups &&& c.arg0 = 0 then finish s c cOK 0 else holdEpoch s c (epochFor s c))
  else if c.op = 0x0A ∧ bit c.arg1 0 = false ∧ (twinned s && s.twin.role == .active) = false then finish (stepPhase s c.arg0 c.arg1) c cOK 0
  else if c.op = 0x09 ∨ c.op = 0x0A then holdEpoch s c (if twinned s && s.twin.role == .active then epochFor s c else s.stcMsec + 1)
  else if c.op = 0x0B then doTakeover s c
  else if c.op = 0x0C then doYield s c
  else if c.op = 0x0D then sleepStart s c false none
  else if c.op = 0x0E then wakeOn (finish s c cOK 0) 2
  else if c.op = 0x0F then startImage (hold s c none)
  else if c.op = 0x10 then finish (freezeLog s) c cOK 0
  else if c.op = 0x11 then finish (thawLog s) c cOK 0
  else if c.op = 0x12 then
    (let s1 := hold s c none
     if s1.nand.scrub.isSome then s1 else { s1 with nand := { s1.nand with scrub := some c.arg0 } })
  else resetBlock s c

/-! ### Mode changes (R94, R441) -/

/-- What a started command leaves behind when it is taken back before it completes. -/
def dropWork (s : State) (c : Cmd) : State :=
  let s1 := dropStarted s c
  if c.op = 0x0B then { s1 with twin := { s1.twin with takeover := s1.twin.takeover.filter (fun x => x.1 != c) } }
  else if c.op = 0x0C then { s1 with twin := { s1.twin with yield := s1.twin.yield.filter (fun x => x.1 != some c) } }
  else if c.op = 0x0F then
    (match s1.cmd.imgJob with
     | some j => if j.cmd = some c then startImage { s1 with cmd := { s1.cmd with imgJob := none } } else s1
     | none => s1)
  else if c.op = 0x12 then { s1 with nand := { s1.nand with scrub := (s1.cmd.started.find? (fun y => y.cmd.op == 0x12)).map (fun y => y.cmd.arg0) } }
  else if c.op = 0x13 then { s1 with cmd := { s1.cmd with resetting := s1.cmd.resetting.filter (fun b => b != c.arg0) } }
  else s1

/-- Insert a command into the deferred list in arrival order. -/
def deferIn (c : Cmd) : List Cmd → List Cmd
  | [] => [c]
  | x :: r => if c.order < x.order then c :: x :: r else x :: deferIn c r

/-- A started command is judged against the new mode (R441). -/
def rejudgeOne (s : State) (x : Started) : State :=
  if !(s.cmd.started.any (fun y => y.cmd.order == x.cmd.order)) then s
  else match modeVerdict s x.cmd.op with
    | .a =>
      if x.cmd.op = 0x06 ∧ s.cmd.mode ≠ .run then actStop (dropStarted s x.cmd) x.cmd
      else if x.cmd.op = 0x0D ∧ s.cmd.mode ≠ .run ∧ x.epoch.isSome = true then
        sleepBegin { s with cmd := { s.cmd with started := s.cmd.started.map (fun y => if y.cmd.order = x.cmd.order then { y with epoch := none } else y) } }
      else s
    | .d =>
      let s1 := dropWork s x.cmd
      if x.cmd.nodefer then finish s1 x.cmd cCANCELLED 0
      else { s1 with cmd := { s1.cmd with deferred := deferIn x.cmd s1.cmd.deferred } }
    | .r => finish (dropWork s x.cmd) x.cmd cCANCELLED 0

/-- SAFE entered from LOAD ends the load: the APPLY in progress is cancelled and no bitstream runs (R441, Table 4-2; log entry 48). -/
def endLoadInSafe (s : State) : State :=
  match s.cmd.mode, s.cmd.loading with
  | .safe, some l =>
    let s1 := loadOver s
    let s2 := { s1 with cmd := { s1.cmd with safeCause := setBit s1.cmd.safeCause scNOCONFIG true, cfgSrc := 0 } }
    match l.cmd with
    | some c => finish s2 c cCANCELLED 0
    | none => s2
  | _, _ => s

/-- A deferred command is judged again (R94). -/
def rejudgeDeferred (s : State) (c : Cmd) : State :=
  if !(s.cmd.deferred.any (fun y => y.order == c.order)) then s
  else
    let s1 := { s with cmd := { s.cmd with deferred := s.cmd.deferred.filter (fun y => y.order != c.order) } }
    match verdict s c with
    | .d => s
    | .a => if s.cmd.applying || s.cmd.sleeping then s else runCmd s1 c
    | .r => reject s1 c cILLEGAL

/-- The 10 s of R87 end with the START or AUTOSTART that they belong to. -/
def waitOff (s : State) : State :=
  if s.cmd.autoStart || s.cmd.started.any (fun x => x.cmd.op == 0x05) then s else { s with cmd := { s.cmd with startWait := none } }

/-- After a mode change the started commands are judged (R441), then the deferred list (R94), until the mode stands. While the control cores restart
no command is taken, so the deferred list waits (R92). -/
def settle : Nat → State → State
  | 0, s => s
  | n + 1, s =>
    if !s.cmd.dirty || s.cmd.mode == .sleep then s
    else
      let s0 := endLoadInSafe { s with cmd := { s.cmd with dirty := s.cmd.restarting, autoStart := s.cmd.autoStart && s.cmd.mode == .hold } }
      let s1 := waitOff (s0.cmd.started.foldl rejudgeOne s0)
      if s.cmd.restarting then s1 else settle n (s1.cmd.deferred.foldl rejudgeDeferred s1)

/-! ### Intake (R88, R91, R92, R98) -/

/-- The checks of R98 in order; an accepted command runs. -/
def judge (s : State) (c : Cmd) : State :=
  if !opKnown c.op then reject s c cBADOP
  else if argBad s c.op c.arg0 c.arg1 then reject s c cBADARG
  else if argAbsent s c.op c.arg0 then reject s c cABSENT
  else match verdict s c with
    | .a => runCmd s c
    | .d => if c.nodefer then reject s c cILLEGAL else { s with cmd := { s.cmd with deferred := s.cmd.deferred ++ [c] } }
    | .r => reject s c cILLEGAL

/-- The sequencer takes commands from the head of the queue until a LOAD or APPLY, a restart or SLEEP entry holds it. -/
def pump : Nat → State → State
  | 0, s => settle 64 s
  | n + 1, s =>
    let s1 := settle 64 s
    if s1.cmd.applying || s1.cmd.restarting || s1.cmd.sleeping || s1.cmd.mode == .sleep then s1
    else match s1.cmd.queue with
      | [] => s1
      | c :: r => pump n (judge { s1 with cmd := { s1.cmd with queue := r } } c)

/-- What every row of the sequencer does last. -/
def sequence (s : State) : State := pump 40 (parityClear s)

/-- Entries of the queue that are occupied: queued and deferred commands. -/
def queueDepth (s : State) : Nat := s.cmd.queue.length + s.cmd.deferred.length

/-- A command arrives. ABORT is judged at once, or first after a restart; during SLEEP entry every command is cancelled. -/
def submit (s : State) (op tag : Nat) (nodefer : Bool) (src : CmdSrc) (a0 a1 : Nat) : State :=
  let s0 := if s.cmd.mode = .sleep then s else sequence s
  let c : Cmd := ⟨op % 256, tag % 256, nodefer, src, a0 % 2 ^ 32, a1 % 2 ^ 32, s0.cmd.nextOrder⟩
  let s1 := { s0 with cmd := { s0.cmd with nextOrder := s0.cmd.nextOrder + 1 } }
  if s1.cmd.sleeping then finish s1 c cCANCELLED 0
  else if s1.cmd.mode = .sleep then judge s1 c
  else if c.op = 0x04 then
    (if s1.cmd.restarting then { s1 with cmd := { s1.cmd with heldAborts := s1.cmd.heldAborts ++ [c] } } else sequence (judge s1 c))
  else if 32 ≤ queueDepth s1 then reject s1 c cQFULL
  else sequence { s1 with cmd := { s1.cmd with queue := s1.cmd.queue ++ [c] } }

/-- Whether commands reach the sequencer: SYS is up, or the device sleeps and the command comes over SPI (R88). -/
def canSubmit (s : State) (src : CmdSrc) : Bool :=
  s.live && src != .mirror && (if s.cmd.mode = .sleep then src == .spi else s.domOn 1)

/-- A write of SYS.CMD by a path, as one row. -/
def command (t : Nat) (src : CmdSrc) (op tag : Nat) (nodefer : Bool) (a0 a1 : Nat) (s : State) : State :=
  if canSubmit (s.at t) src then submit (s.at t) op tag nodefer src a0 a1 else s.at t

/-- The row LOAD. -/
def execLoad (t : Nat) (src : CmdSrc) (tag : Nat) (nodefer : Bool) (arg0 arg1 : Nat) (s : State) : Host.Outcome State Fault Refusal :=
  .next (command t src 0x01 tag nodefer arg0 arg1 s)
/-- The row APPLY. -/
def execApply (t : Nat) (src : CmdSrc) (tag : Nat) (nodefer : Bool) (arg0 arg1 : Nat) (s : State) : Host.Outcome State Fault Refusal :=
  .next (command t src 0x02 tag nodefer arg0 arg1 s)
/-- The row COMMIT. -/
def execCommit (t : Nat) (src : CmdSrc) (tag : Nat) (nodefer : Bool) (arg0 arg1 : Nat) (s : State) : Host.Outcome State Fault Refusal :=
  .next (command t src 0x03 tag nodefer arg0 arg1 s)
/-- The row ABORT. -/
def execAbort (t : Nat) (src : CmdSrc) (tag : Nat) (nodefer : Bool) (arg0 arg1 : Nat) (s : State) : Host.Outcome State Fault Refusal :=
  .next (command t src 0x04 tag nodefer arg0 arg1 s)
/-- The row START. -/
def execStart (t : Nat) (src : CmdSrc) (tag : Nat) (nodefer : Bool) (arg0 arg1 : Nat) (s : State) : Host.Outcome State Fault Refusal :=
  .next (command t src 0x05 tag nodefer arg0 arg1 s)
/-- The row STOP. -/
def execStop (t : Nat) (src : CmdSrc) (tag : Nat) (nodefer : Bool) (arg0 arg1 : Nat) (s : State) : Host.Outcome State Fault Refusal :=
  .next (command t src 0x06 tag nodefer arg0 arg1 s)
/-- The row MUTE. -/
def execMute (t : Nat) (src : CmdSrc) (tag : Nat) (nodefer : Bool) (arg0 arg1 : Nat) (s : State) : Host.Outcome State Fault Refusal :=
  .next (command t src 0x07 tag nodefer arg0 arg1 s)
/-- The row UNMUTE. -/
def execUnmute (t : Nat) (src : CmdSrc) (tag : Nat) (nodefer : Bool) (arg0 arg1 : Nat) (s : State) : Host.Outcome State Fault Refusal :=
  .next (command t src 0x08 tag nodefer arg0 arg1 s)
/-- The row SELECT_REF. -/
def execSelectRef (t : Nat) (src : CmdSrc) (tag : Nat) (nodefer : Bool) (arg0 arg1 : Nat) (s : State) : Host.Outcome State Fault Refusal :=
  .next (command t src 0x09 tag nodefer arg0 arg1 s)
/-- The row STEP_PHASE. -/
def execStepPhase (t : Nat) (src : CmdSrc) (tag : Nat) (nodefer : Bool) (arg0 arg1 : Nat) (s : State) : Host.Outcome State Fault Refusal :=
  .next (command t src 0x0A tag nodefer arg0 arg1 s)
/-- The row TAKEOVER. -/
def execTakeover (t : Nat) (src : CmdSrc) (tag : Nat) (nodefer : Bool) (arg0 arg1 : Nat) (s : State) : Host.Outcome State Fault Refusal :=
  .next (command t src 0x0B tag nodefer arg0 arg1 s)
/-- The row YIELD. -/
def execYield (t : Nat) (src : CmdSrc) (tag : Nat) (nodefer : Bool) (arg0 arg1 : Nat) (s : State) : Host.Outcome State Fault Refusal :=
  .next (command t src 0x0C tag nodefer arg0 arg1 s)
/-- The row SLEEP. -/
def execSleep (t : Nat) (src : CmdSrc) (tag : Nat) (nodefer : Bool) (arg0 arg1 : Nat) (s : State) : Host.Outcome State Fault Refusal :=
  .next (command t src 0x0D tag nodefer arg0 arg1 s)
/-- The row WAKE. -/
def execWake (t : Nat) (src : CmdSrc) (tag : Nat) (nodefer : Bool) (arg0 arg1 : Nat) (s : State) : Host.Outcome State Fault Refusal :=
  .next (command t src 0x0E tag nodefer arg0 arg1 s)
/-- The row SNAPSHOT. -/
def execSnapshot (t : Nat) (src : CmdSrc) (tag : Nat) (nodefer : Bool) (arg0 arg1 : Nat) (s : State) : Host.Outcome State Fault Refusal :=
  .next (command t src 0x0F tag nodefer arg0 arg1 s)
/-- The row LOG_FREEZE. -/
def execLogFreeze (t : Nat) (src : CmdSrc) (tag : Nat) (nodefer : Bool) (arg0 arg1 : Nat) (s : State) : Host.Outcome State Fault Refusal :=
  .next (command t src 0x10 tag nodefer arg0 arg1 s)
/-- The row LOG_THAW. -/
def execLogThaw (t : Nat) (src : CmdSrc) (tag : Nat) (nodefer : Bool) (arg0 arg1 : Nat) (s : State) : Host.Outcome State Fault Refusal :=
  .next (command t src 0x11 tag nodefer arg0 arg1 s)
/-- The row SCRUB. -/
def execScrub (t : Nat) (src : CmdSrc) (tag : Nat) (nodefer : Bool) (arg0 arg1 : Nat) (s : State) : Host.Outcome State Fault Refusal :=
  .next (command t src 0x12 tag nodefer arg0 arg1 s)
/-- The row RESET_BLOCK. -/
def execResetBlock (t : Nat) (src : CmdSrc) (tag : Nat) (nodefer : Bool) (arg0 arg1 : Nat) (s : State) : Host.Outcome State Fault Refusal :=
  .next (command t src 0x13 tag nodefer arg0 arg1 s)

/-- The row COMMAND_RING_FETCH (R92, R328): the descriptor at HEAD of a command ring; the rings with posted slots take turns. A descriptor
with non-zero reserved bits completes with BAD_ARG and is not queued. -/
def execCommandRingFetch (t : Nat) (ring : Nat) (desc : List Byte) (s : State) : Host.Outcome State Fault Refusal :=
  .next (
    let s0 := s.at t
    let mode0 := fun (r : Nat) => decide (224 ≤ r) && decide (r < 256) && s0.fld (ringParam r) DMA.RING_PARAM_CE_MODE == 0
    let may := fun (r : Nat) => ringLive s0 r && mode0 r && ringPosted s0 r != 0 && canSubmit s0 (.ring r 0 0)
    if !(may ring && decide (queueDepth s0 < 32) && nextTurn s0.dma.cmdLast ((List.range 256).filter may) == some ring) then s0
    else
      let slot := ringHead s0 ring
      let src : CmdSrc := .ring ring slot (s0.ring ring).gen
      let s1 := takeHead { s0 with dma := { s0.dma with cmdLast := ring } } ring
      let w := descWord desc 0
      if w / 2 ^ 17 ≠ 0 ∨ ([3, 4, 5, 6] : List Nat).any (fun i => descWord desc i != 0) = true ∨ descWord desc 7 % 2 ^ 31 ≠ 0 then
        reject s1 ⟨w % 256, w / 256 % 256, bit w 16, src, 0, 0, s1.cmd.nextOrder⟩ cBADARG
      else submit s1 (w % 256) (w / 256 % 256) (bit w 16) src (descWord desc 1) (descWord desc 2))

/-! ### Commit epochs (R22, R93, R101, R102, R215) -/

/-- A mirrored command takes effect on this unit (R347), where the mode accepts it. -/
def runMirrored (s : State) (m : MirCmd) (swapped : Bool) : State × Bool :=
  if modeVerdict s m.op ≠ .a then (s, swapped)
  else if m.op = 0x03 then (if swapped then s else swapBanks s m.epoch, true)
  else if m.op = 0x05 then (if s.cmd.mode = .hold then changeMode s .run else s, swapped)
  else if m.op = 0x06 then
    (if s.cmd.mode = .run ∨ (s.cmd.mode = .safe ∧ s.cmd.safeCause = 0) then changeMode s .hold else s, swapped)
  else if m.op = 0x07 then (setGroups s (s.cmd.groups ||| m.arg0), swapped)
  else if m.op = 0x08 then (setGroups s (s.cmd.groups - (s.cmd.groups &&& m.arg0)), swapped)
  else if m.op = 0x09 then ({ s with time := { s.time with selQ := s.time.selQ ++ [(m.arg0, none)] } }, swapped)
  else (stepPhase s m.arg0 m.arg1, swapped)

/-- A started command reaches its epoch e. -/
def atEpoch (e : Nat) (acc : State × Bool) (x : Started) : State × Bool :=
  let s := acc.1
  let c := x.cmd
  if !(s.cmd.started.any (fun y => y.cmd.order == c.order)) then acc
  else if c.op = 0x03 then
    (if modeVerdict s 0x03 = .a then (finishStarted (if acc.2 then s else swapBanks s e) c cOK (e % 1000), true) else acc)
  else if c.op = 0x05 then
    (if s.cmd.mode = .run then (finishStarted s c cOK 0, acc.2)
     else if s.cmd.mode = .hold ∧ clockReady s = true then (settle 64 (finishStarted (changeMode { s with cmd := { s.cmd with startWait := none } } .run) c cOK 0), acc.2)
     else acc)
  else if c.op = 0x06 then (settle 64 (actStop (dropStarted s c) c), acc.2)
  else if c.op = 0x07 then (finishStarted (setGroups s (s.cmd.groups ||| c.arg0)) c cOK 0, acc.2)
  else if c.op = 0x08 then (finishStarted (setGroups s (s.cmd.groups - (s.cmd.groups &&& c.arg0))) c cOK 0, acc.2)
  else if c.op = 0x0A then
    (if bit c.arg1 0 then acc else (finishStarted (stepPhase s c.arg0 c.arg1) c cOK 0, acc.2))
  else if c.op = 0x0D then
    (sleepBegin (noteOuts s { s with cmd := { s.cmd with
        sleepQuiet := true
        started := s.cmd.started.map (fun y => if y.cmd.order = c.order then { y with epoch := none } else y) } }), acc.2)
  else if c.op = 0x13 then
    (finishStarted { s with cmd := { s.cmd with resetting := s.cmd.resetting.filter (fun b => b != c.arg0) } } c cOK 0, acc.2)
  else acc

/-- AUTOSTART, or a wake that resumes RUN, acts at an eligible epoch once the clock is ready (R87). -/
def autoStartAt (s : State) (e : Nat) : State :=
  if s.cmd.autoStart && s.cmd.mode == .hold && clockReady s && decide (s.cmd.modeStc + 100000 * 2 ^ 56 ≤ stcMs e) then
    settle 64 (changeMode { s with cmd := { s.cmd with autoStart := false, startWait := none } } .run)
  else s

/-- Everything that targets one epoch takes effect, in the order in which it started; mirrored commands after the unit's own. -/
def takeEpoch (s : State) (e : Nat) : State :=
  let own := s.cmd.started.filter (fun x => x.epoch == some e)
  let mir := (s.twin.mirCmds.filter (fun m => m.1.epoch == e && !(m.1.op == 0x0A && bit m.1.arg1 0))).map (fun m => m.1)
  let r := own.foldl (atEpoch e) (autoStartAt s e, false)
  (mir.foldl (fun (acc : State × Bool) m => let q := runMirrored acc.1 m acc.2; (settle 64 q.1, q.2))
    ({ r.1 with twin := { r.1.twin with mirCmds := r.1.twin.mirCmds.filter (fun m => !(m.1.epoch == e && !(m.1.op == 0x0A && bit m.1.arg1 0))) } }, r.2)).1

/-- STATE_RESET at its epoch: every node restarts (R361). -/
def stateResetAt (s : State) : State :=
  match s.twin.stateAt, s.place.now with
  | some e, some p =>
    if e ≤ s.stcMsec then (p.nodes.filter (fun n => (tileOf s n.tile).st == .run)).foldl startNode { s with twin := { s.twin with stateAt := none } } else s
  | some e, none => if e ≤ s.stcMsec then { s with twin := { s.twin with stateAt := none } } else s
  | none, _ => s

/-- Every epoch up to the present STC that has not been taken is taken, in order. A START that waits for lock counts at the newest one. -/
def takeEpochs (s : State) : State :=
  let m := s.stcMsec
  if m ≤ s.time.epoch then s
  else
    let s0 := { s with time := { s.time with epoch := m }
                       cmd := { s.cmd with started := s.cmd.started.map (fun x =>
                         match x.epoch with
                         | some e => if x.cmd.op = 0x05 ∧ e < m then { x with epoch := some m } else x
                         | none => x) } }
    let due := sortNat (((s0.cmd.started.filterMap (fun x => x.epoch)) ++ s0.twin.mirCmds.map (fun x => x.1.epoch)).filter (fun e => decide (e ≤ m)) ++ [m])
    stateResetAt (due.foldl takeEpoch (if s0.cmd.sleeping then s0 else policiesEnd s0))

/-- The row COMMIT_EPOCH. -/
def execCommitEpoch (t : Nat) (s : State) : Host.Outcome State Fault Refusal :=
  .next (
    let s0 := s.at t
    if s0.domOn 1 && s0.domOn 2 then sequence (takeEpochs (settle 64 s0)) else s0)

/-- The row START_UNLOCKED_TIMEOUT: 10 s have passed without lock or holdover, and an eligible epoch has come. -/
def execStartUnlockedTimeout (t : Nat) (s : State) : Host.Outcome State Fault Refusal :=
  .next (
    let s0 := settle 64 (s.at t)
    match s0.cmd.startWait with
    | some a =>
      if s0.domOn 1 && s0.cmd.mode == .hold && !clockReady s0 && decide (a + secs 10 ≤ s0.now) then
        let l := (s0.cmd.started.filter (fun x => x.cmd.op == 0x05)).map (fun x => x.cmd)
        let s1 := (changeMode { s0 with cmd := { s0.cmd with startWait := none, autoStart := false } } .run).emit .control 0x000D sevNOTICE 0 []
        sequence (l.foldl (fun st c => finishStarted st c cOK 0) s1)
      else s0
    | none => s0)

/-- The row JOURNAL_IMAGE_STORED: the image being written is stored, or its write fails. During SLEEP entry a failure lets the entry go on. -/
def execJournalImageStored (t : Nat) (ok : Bool) (s : State) : Host.Outcome State Fault Refusal :=
  .next (
    let s0 := startImage (s.at t)
    if s0.cmd.imgJob.isNone then s0
    else if ok && s0.nand.ready then
      let s1 := imageStored s0
      if s1.cmd.sleeping && s1.cmd.imgJob.isNone && s1.cmd.imgWait.isNone then sleepFinish s1 else s1
    else if s0.cmd.sleeping then
      (match s0.cmd.imgJob with
       | some j =>
         let s1 := { s0 with cmd := { s0.cmd with imgJob := none } }
         match j.cmd with
         | some c =>
           let s2 := startImage (finishStarted s1 c cFAILED 0)
           if s2.cmd.imgJob.isNone && s2.cmd.imgWait.isNone then sleepFinish s2 else s2
         | none => sleepUnwritten { s1 with cmd := { s1.cmd with imgWait := none } }
       | none => s0)
    else imageFailed s0)

/-! ### Steps at once (R214, R215) -/

/-- The STC steps by d (2⁻⁸ ns): every part reacts, the clock outputs and sides follow, and epochs passed over are taken. -/
def stepNow (s : State) (d : Int) : State := sequence (takeEpochs (rephase (sidesStep (stcStep s d)) none))

/-- STEP_PHASE commands at once whose epoch has come join the step. -/
def stepsDue (s : State) : State :=
  let own := (s.cmd.started.filter (fun x => x.cmd.op == 0x0A && bit x.cmd.arg1 0 && (match x.epoch with | some e => decide (e ≤ s.stcMsec) | none => false))).map (fun x => x.cmd)
  let due := fun (m : MirCmd × Nat) => m.1.op == 0x0A && bit m.1.arg1 0 && decide (m.1.epoch ≤ s.stcMsec)
  let s1 := own.foldl (fun st c => finishStarted (stepPhase st c.arg0 c.arg1) c cOK 0) s
  (s.twin.mirCmds.filter due).foldl (fun st m => stepPhase st m.1.arg0 m.1.arg1)
    { s1 with twin := { s1.twin with mirCmds := s1.twin.mirCmds.filter (fun m => !due m) } }

/-- The row PHASE_STEP_AT_ONCE: the STC has reached a whole millisecond. -/
def execPhaseStepAtOnce (t : Nat) (s : State) : Host.Outcome State Fault Refusal :=
  .next (
    let s0 := s.at t
    if !s0.blkOn bTIME then s0
    else
      let s1 := stepsDue (settle 64 s0)
      if s1.time.step.isNone && s1.time.steps.isEmpty then s1
      else stepNow (takeSteps s1).1 (takeSteps s1).2)

/-- SELECT_REF commands whose evaluation has come are taken by it. -/
def selectsDue (s : State) : State :=
  let own := (s.cmd.started.filter (fun x => x.cmd.op == 0x09 && (match x.epoch with | some e => decide (e ≤ s.stcMsec) | none => false))).map (fun x => x.cmd)
  { s with time := { s.time with selQ := s.time.selQ ++ own.map (fun c => (c.arg0, some c)) } }

/-- The row BELLWETHER_EVALUATION (R210), at a whole millisecond. -/
def execBellwetherEvaluation (t : Nat) (lanes : List Int) (phases : List (Nat × Int)) (s : State) : Host.Outcome State Fault Refusal :=
  .next (if (s.at t).blkOn bTIME then fabMaster (evaluate (selectsDue (settle 64 (s.at t))) lanes phases) else s.at t)

/-- The row SEC_LOAD_APPLY: NS has rolled over to 0 with a load armed (R201). OFF does not change. -/
def execSecLoadApply (t : Nat) (s : State) : Host.Outcome State Fault Refusal :=
  .next (
    let s0 := s.at t
    if s0.blkOn bTIME && s0.flag TIME.SEC_LOAD_HI TIME.SEC_LOAD_HI_GO then
      let d := ((secLoadValue s0 : Nat) : Int) - ((s0.stcSecs : Nat) : Int)
      stepNow (s0.hwFld TIME.SEC_LOAD_HI TIME.SEC_LOAD_HI_GO 0) (d * sec8)
    else s0)

/-! ### Lockstep (R31, Table 4-6) -/

/-- The row LOCKSTEP_MISMATCH: the control cores stop and restart; a second mismatch within 1 s enters SAFE. -/
def execLockstepMismatch (t : Nat) (s : State) : Host.Outcome State Fault Refusal :=
  .next (
    let s0 := s.at t
    if !s0.domOn 1 then s0
    else
      let second := match s0.cmd.mismatchAt with | some a => decide (s0.now ≤ a + secs 1) | none => false
      let s1 := indicate ({ s0 with cmd := { s0.cmd with restarting := true, mismatchAt := some s0.now } }.emit .control 0x0006 sevCRITICAL 0 []) 0
      if second then safeCause s1 scLOCKSTEP true else s1)

/-- The row CONTROL_CORE_RESTART_DONE: the held ABORTs are judged, then the commands in arrival order. -/
def execControlCoreRestartDone (t : Nat) (s : State) : Host.Outcome State Fault Refusal :=
  .next (
    let s0 := s.at t
    if s0.domOn 1 && s0.cmd.restarting then
      let s1 := settle 64 { s0 with cmd := { s0.cmd with restarting := false, restartAt := some s0.now, heldAborts := [] } }
      sequence (s0.cmd.heldAborts.foldl judge s1)
    else s0)

/-- The row LOCKSTEP_CAUSE_EXPIRY. -/
def execLockstepCauseExpiry (t : Nat) (s : State) : Host.Outcome State Fault Refusal :=
  .next (
    let s0 := s.at t
    match s0.cmd.restartAt with
    | some a => if !s0.cmd.restarting && decide (a + secs 1 ≤ s0.now) then clearCause s0 scLOCKSTEP else s0
    | none => s0)

/-! ### Automatic boot (R84, R90) -/

/-- BOOT waits for LOAD with a host source: NO_CONFIG sets and attention is raised through MODE_CHG. -/
def bootWaits (s : State) : State :=
  { s with cmd := { s.cmd with waitLoad := true, safeCause := setBit s.cmd.safeCause scNOCONFIG true } }.raise SYS.CMD_STATUS 18

/-- PREF_CFG can be told, or does not matter: without the copy of the always-on island it is read from the NAND device, once that is up (R84). -/
def prefKnown (s : State) : Bool :=
  s.aon.prefCfg.isSome || s.nand.present || s.nand.fault || (!s.cmd.wakeBoot && s.chip.straps.bootSel != 0)

/-- From BOOT the first source is taken and LOAD entered; in LOAD the source is read and applied. -/
def autoBoot (s : State) : State :=
  if s.cmd.mode = .boot ∧ s.cmd.waitLoad = false ∧ s.cmd.loading = none ∧ s.cmd.safeCause % 4 = 0 then
    if prefKnown s then
      match bootOrder s with
      | some (x :: r) =>
        let s1 := changeMode s .load
        { s1 with cmd := { s1.cmd with loading := some ⟨x, partBytes s x, true, .boot, 0, none, 0, [], r⟩ } }
      | _ => bootWaits s
    else s
  else match s.cmd.loading with
    | some l =>
      if s.cmd.mode = .load ∧ l.auto = true ∧ s.nand.present = true ∧ s.cmd.applying = false then runApply s { l with len := partBytes s l.src } else s
    | none => s

/-- The row AUTOMATIC_BOOT. -/
def execAutomaticBoot (t : Nat) (s : State) : Host.Outcome State Fault Refusal :=
  .next (
    let s0 := s.at t
    if s0.domOn 1 && !s0.cmd.restarting then sequence (autoBoot (settle 64 s0)) else s0)

/-! ### Fabric APPLY (R384, R385) -/

/-- The row FABRIC_CONFIG_REPORT: a member's CONFIG_ID, outcome, or the coordinator's plan. -/
def execFabricConfigReport (t : Nat) (member : Nat) (report : FabReport) (s : State) : Host.Outcome State Fault Refusal :=
  .next (if (s.at t).blkOn bFAB then sequence (fabReport (settle 64 (s.at t)) member report) else s.at t)

/-- The row FABRIC_AGREE_TIMEOUT. -/
def execFabricAgreeTimeout (t : Nat) (s : State) : Host.Outcome State Fault Refusal :=
  .next (if (s.at t).blkOn bFAB then sequence (fabTimeout (settle 64 (s.at t))) else s.at t)

end Sys2Proof.Machine
end

