-- ==== Sys2Proof/Machine/HostMap.lean ====
section
/-!
DEFINITION. What a host reads: every register of the map as a word, with the fields that show state of the block in place (R37 to R39, R51, R52, R73,
R75, R96, R134, R403, R417, R419 and the register tables of the chapters).
-/
namespace Sys2Proof.Machine

/-! ### Identity (R37) -/

/-- BLOCK.ID of a present block. -/
def idWord (b : Nat) : Word := BitVec.ofNat 32 (b + 2 ^ 8 + 2 ^ 31)

/-- SYS.VARIANT and SYS.FUSE_CAP (Tables 2-4 and 2-5, R36). -/
def variantWord (s : State) : Word :=
  let v := s.variant
  if Fuses.ok s.chip.fuses then
    BitVec.ofNat 32 (s.chip.fuses.code + 16 * b2n v.pkgM + 32 * b2n v.twin + 64 * b2n (v.ubley != 0) + 128 * v.media + 2 ^ 16 * v.netch)
  else 0xF
def fuseCapWord (s : State) : Word :=
  let v := s.variant
  BitVec.ofNat 32 (v.tiles + 2 ^ 6 * v.tdm + 2 ^ 12 * v.aes + 2 ^ 16 * v.madi + 2 ^ 19 * v.ubley + 2 ^ 23 * v.lanes)

/-- SYS.STRAP (Table 2-15). -/
def strapWord (s : State) : Word :=
  let x := s.chip.straps
  BitVec.ofNat 32 (x.bootSel % 4 + 4 * (x.mgmtSel % 4) + 16 * (x.unitSel % 2) + 32 * b2n x.arbEn + 2 ^ 8 * (s.chip.iov % 512) + 2 ^ 17 * (s.chip.pwrd % 512))

/-! ### SYS -/

/-- Whether a path is armed for one protected write (R71). -/
def armed (s : State) (p : Path) : Bool := match (s.path p).armedTill with | some t => decide (s.now < t) | none => false

/-- SYS.ATTN_SUMMARY (Table 1-3). ATTN reads as it stood before the cycle (Table 3-8). -/
def attnWord (s : State) : Word :=
  BitVec.ofNat 32 (ofBits ((List.range 19).filter (fun b => s.causeBit b)) + 2 ^ 31 * b2n (if s.inst.attn then s.inst.seen else s.host.attnSeen))

/-- SYS.BOOT_STATUS (Table 4-4). -/
def bootStatusWord (s : State) : Word :=
  let c := s.cmd
  BitVec.ofNat 32 (c.cfgSrc % 8 + 8 * (c.cfgFail % 8) + 2 ^ 6 * (c.stateSrc % 4) + 2 ^ 8 * b2n c.wakeBoot + 2 ^ 12 * (c.wakeSrc % 16))

/-- SYS.COMMIT_STATUS (Table 4-14). -/
def commitStatusWord (s : State) : Word :=
  BitVec.ofNat 32 (b2n (s.cmd.started.any (fun x => x.cmd.op == 0x03)) + 2 * b2n s.cmd.copying + 4 * b2n (journalBusy s) + 2 ^ 4 * (s.cmd.lastMs % 1024) +
    2 ^ 16 * s.cmd.swaps)

/-- A SYS register as read. -/
def readSys (s : State) (p : Path) (a : Nat) : Word :=
  if a = SYS.CHIP then 0x5A010009
  else if a = SYS.VARIANT then variantWord s
  else if a = SYS.FUSE_CAP then fuseCapWord s
  else if a = SYS.DIE_SERIAL_LO then BitVec.ofNat 32 s.chip.fuses.serial
  else if a = SYS.DIE_SERIAL_HI then BitVec.ofNat 32 (s.chip.fuses.serial / 2 ^ 32)
  else if a = SYS.FUSE_STATUS then BitVec.ofNat 32 (Fuses.status s.chip.fuses)
  else if a = SYS.STRAP then strapWord s
  else if a = SYS.UNLOCK then BitVec.ofNat 32 (2 ^ 16 * b2n (armed s .spi) + 2 ^ 17 * b2n (armed s .pcie))
  else if a = SYS.ATTN_SUMMARY then attnWord s
  else if a = SYS.MODE then BitVec.ofNat 32 s.modeWord
  else if a = SYS.SAFE_CAUSE then BitVec.ofNat 32 (s.cmd.safeCause % 64)
  else if a = SYS.BOOT_STATUS then bootStatusWord s
  else if perPath a = true then BitVec.ofNat 32 (s.pathStored p a)
  else if a = SYS.CMD then 0
  else if a = SYS.CMD_STATUS then s.rdStored a ||| BitVec.ofNat 32 (queueDepth s % 64 + 2 ^ 6 * (s.cmd.done.length % 64))
  else if a = SYS.CMD_DONE then (match s.cmd.done with | c :: _ => if s.inst.done = 0 then 0 else BitVec.ofNat 32 c.word | [] => 0)
  else if a = SYS.COMMIT_STATUS then commitStatusWord s
  else if a = SYS.ARB_STATUS then arbStatusWord s
  else if a = SYS.ARB_CTL ∧ s.chip.straps.arbEn = false then 0
  else s.rdStored a

/-! ### PWR (Table 17-2) -/

/-- A PWR register as read. -/
def readPwr (s : State) (a : Nat) : Word :=
  if a = PWR.DOM_STATUS then
    BitVec.ofNat 32 (s.pwr.on % 4096 + 2 ^ 16 * ofBits ((List.range 12).filter (fun d => domHere s d && domInUse s d)))
  else if a = PWR.WAKE_SEEN then BitVec.ofNat 32 (s.cmd.wakeSeen % 32)
  else if a = PWR.TEMP then (match s.pwr.tj with | some x => BitVec.ofNat 32 (lowBits 11 x + 2 ^ 11) | none => 0)
  else s.rdStored a

/-! ### Clocks and time -/

/-- A CLK register as read: MSY_CTL0 shows the family in force (R225). -/
def readClk (s : State) (a : Nat) : Word :=
  if a = CLK.STATUS then clkStatusWord s
  else if a = 0x0200200 then s.rdStored a ||| BitVec.ofNat 32 (4 * s.family)
  else s.rdStored a

/-- A TIME register as read. -/
def readTime (s : State) (a : Nat) : Word :=
  let o := offOf a
  if a = TIME.CLK_STATE then clkStateWord s
  else if 0x180 ≤ o ∧ o < 0x1C0 then refStatusWord s ((o - 0x180) / 4)
  else if 0x200 ≤ o ∧ o < 0x2C0 ∧ o % 32 = 8 then BitVec.ofNat 32 (ptpOf s ((o - 0x200) / 32)).st.code
  else if 0x300 ≤ o ∧ o < 0x340 ∧ o % 16 = 0 then TIME.FPG_CTL_ALIGNED.put (s.rdStored a) (b2n (fpgAligned s ((o - 0x300) / 16)))
  else s.rdStored a

/-! ### Ports and streams -/

/-- A MAC register as read. -/
def readMac (s : State) (port a : Nat) : Word :=
  let o := offOf a
  if o = 0x104 then
    MAC.MAC_STATUS_PAUSED.put (s.rdStored a) (pausedBits s port)
  else if o = 0x100 ∧ port = 2 then MAC.MAC_CTL_IF_1G.put (s.rdStored a) (b2n (rgmii s 2))
  else if o = 0x130 then MAC.TS_STATUS_LEVEL.put (s.rdStored a) (s.mac port).fifo.length
  else if a = MAC.MDIO_STATUS then MAC.MDIO_STATUS_BUSY.put (s.rdStored a) (b2n s.macM.mdioBusy)
  else s.rdStored a

/-- An SRX register as read. -/
def readSrx (s : State) (a : Nat) : Word :=
  let o := offOf a
  if a = SRX.STATUS then
    BitVec.ofNat 32 ((rxEnabledAll s).length % 2048 + 2 ^ 16 * ((s.srx.rxs.filter (fun e => e.2.locked)).length % 2048))
  else if 0x120 ≤ o ∧ o < 0x12C then BitVec.ofNat 32 (rsvFree s ((o - 0x120) / 4) % 64 + 2 ^ 8 * (sharedFree s ((o - 0x120) / 4) % 128))
  else if 0x1000 ≤ o ∧ o < 0x2000 then rxsStatus s ((o - 0x1000) / 4)
  else s.rdStored a

/-- A side register as read. -/
def readSide (s : State) (x k a : Nat) : Word :=
  if k = 0 then (if 64 ≤ x then APORT.SIDE_CTL_MASTER.put (s.rdStored a) (b2n (isTx x)) else s.rdStored a)
  else if k = 5 then BitVec.ofNat 32 (sideOf s x).maskAct
  else if k = 7 then sideStatusWord s x
  else if k = 11 then levelStatWord s x
  else s.rdStored a

/-- An APORT register as read. -/
def readAport (s : State) (a : Nat) : Word :=
  let o := offOf a
  if a = APORT.PORT_PRESENT then BitVec.ofNat 32 (2 ^ s.variant.tdm - 1)
  else if a = APORT.DIG_PRESENT then BitVec.ofNat 32 (2 ^ s.variant.aes - 1 + 2 ^ 8 * (2 ^ s.variant.madi - 1))
  else if a = APORT.GRP_MUTE then BitVec.ofNat 32 (s.cmd.groups % 4)
  else if 0x1000 ≤ o ∧ o < 0x1000 + 88 * 64 then readSide s ((o - 0x1000) / 64) (o % 64 / 4) a
  else if 0x3200 ≤ o ∧ o < 0x3300 then
    (let p := (o - 0x3200) / 32
     if o % 32 = 24 then BitVec.ofNat 32 (b2n (bit s.aport.csValid p) + 2 * b2n (bit s.aport.csDiff p) + 4 * b2n (bit s.aport.csConsumer p))
     else if o % 32 < 24 then BitVec.ofNat 32 (leAt (Tbl.getD s.aport.csIn p []) (o % 32) 4) else 0)
  else if 0x10000 ≤ o ∧ o < 0x11440 then
    APORT.OUT_GAIN_PENDING.put (s.rdStored a) (b2n (Tbl.getD s.aport.gains ((o - 0x10000) / 4) .init).target.isSome)
  else s.rdStored a

/-! ### DSP, DMA, TWIN, FAB -/

/-- A DSPC register as read. -/
def readDspc (s : State) (a : Nat) : Word :=
  let o := offOf a
  if a = DSPC.TILE_PRESENT then BitVec.ofNat 32 (2 ^ s.variant.tiles - 1)
  else if a = DSPC.CW_APPLY then cwApplyWord s
  else if 0x124 ≤ o ∧ o < 0x130 then nodeRegWord s ((o - 0x124) / 4)
  else if 0x200 ≤ o ∧ o < 0x400 then
    (let t := (o - 0x200) / 16
     if o % 16 = 0 then tileStatusWord s t else if o % 16 = 4 then tileFinfoWord s t else if o % 16 = 12 then tileLoadWord s t else s.rdStored a)
  else s.rdStored a

/-- A DMA register as read. -/
def readDma (s : State) (a : Nat) : Word :=
  let o := offOf a
  if a = DMA.DMA_STATUS then dmaStatusWord s
  else if 0x200 ≤ o ∧ o < 0x220 then ringSumWord s ((o - 0x200) / 4)
  else if o = 0x3000 then BitVec.ofNat 32 s.dma.pend
  else if o = 0x3004 then BitVec.ofNat 32 (s.dma.pend / 2 ^ 32)
  else if 0x10000 ≤ o ∧ o < 0x14000 ∧ o % 64 = 0 then ringCtlWord s ((o - 0x10000) / 64)
  else if 0x10000 ≤ o ∧ o < 0x14000 ∧ o % 64 = 0x20 then ringInfoWord s ((o - 0x10000) / 64)
  else s.rdStored a

/-- A TWIN register as read. -/
def readTwin (s : State) (a : Nat) : Word :=
  let h := s.twin.hello
  if a = TWIN.TWIN_STATUS then twinStatusWord s
  else if a = TWIN.TWIN_CHECK then BitVec.ofNat 32 (s.twin.ind % 512)
  else if a = TWIN.PEER_SERIAL_LO then BitVec.ofNat 32 (match h with | some x => x.serial | none => 0)
  else if a = TWIN.PEER_SERIAL_HI then BitVec.ofNat 32 (match h with | some x => x.serial / 2 ^ 32 | none => 0)
  else if a = TWIN.APPLY_HASH 0 then BitVec.ofNat 32 s.twin.applyHash
  else if a = TWIN.APPLY_HASH 1 then BitVec.ofNat 32 (match h with | some x => x.applyHash | none => 0)
  else s.rdStored a

/-- A FAB register as read. -/
def readFab (s : State) (a : Nat) : Word :=
  let o := offOf a
  if a = FAB.LANE_PRESENT then BitVec.ofNat 32 (2 ^ s.variant.ubley - 1)
  else if a = FAB.STATUS then fabStatusWord s
  else if a = FAB.PLAN_HASH then BitVec.ofNat 32 s.fab.planHash
  else if 0x200 ≤ o ∧ o < 0x220 then laneStatusWord s ((o - 0x200) / 4)
  else if 0x300 ≤ o ∧ o < 0x310 then membersWord s ((o - 0x300) / 4)
  else if 0x400 ≤ o ∧ o < 0x500 then routeWord s ((o - 0x400) / 4)
  else if 0x10000 ≤ o ∧ o < 0x11000 ∧ o % 16 ≠ 0 then fabFlowWord s ((o - 0x10000) / 16) (o % 16 / 4)
  else s.rdStored a

/-! ### LOG, STORE, PLACE, SEC -/

/-- A LOG register as read (Table 16-8). -/
def readLog (s : State) (p : Path) (a : Nat) : Word :=
  let r := s.recorder
  if a = LOG.LOG_STATUS then
    BitVec.ofNat 32 (b2n (logReady s) + 2 * b2n r.frozen + 4 * b2n r.degraded + 2 ^ 3 * (r.hold.length % 128) + 2 ^ 10 * (r.fbFirst.length % 256) +
      2 ^ 18 * (r.fbCirc.length % 512) + 2 ^ 27 * b2n r.snapSpi.isSome + 2 ^ 28 * b2n r.snapPcie.isSome)
  else if a = LOG.RD_SEQ then BitVec.ofNat 32 (s.pathStored p a)
  else if a = LOG.NEXT_SEQ then BitVec.ofNat 32 r.nextSeq
  else if a = LOG.OPSEC then BitVec.ofNat 32 r.opsec
  else if a = LOG.PCYC then BitVec.ofNat 32 r.pcyc
  else s.rdStored a

/-- A STORE register as read (Table 16-3). -/
def readStore (s : State) (a : Nat) : Word :=
  let n := s.nand
  let o := offOf a
  if a = STORE.STORE_STATUS then
    BitVec.ofNat 32 (b2n n.ready + 2 * b2n n.fault + 4 * b2n n.geomErr + (if n.present then 8 * (n.iface % 4) + 32 * (n.tmode % 8) + 256 * b2n n.ce1 else 0) +
      512 * b2n n.scrub.isSome)
  else if a = STORE.STORE_GEOM then
    (if n.present then BitVec.ofNat 32 (b2n (n.pageSize == 4096) + 2 * b2n (n.ppb == 128) + 4 * (n.blocks % 2 ^ 17)) else 0)
  else if a = STORE.XFER_CTL then BitVec.ofNat 32 ((s.rdStored a).toNat % 16 + 32 * b2n n.xferBusy + 256 * (n.xferStatus % 16))
  else if a = STORE.KEYED then 0
  else if a = STORE.SPARE_FREE then (if n.present then BitVec.ofNat 32 ((spareBlocks s).length % 2 ^ 18) else 0)
  else if 0x144 ≤ o ∧ o < 0x15C then
    (let p := (o - 0x140) / 4
     if n.present then BitVec.ofNat 32 (partBase n.gbit p % 65536 + 65536 * (partSize n.gbit p % 65536)) else 0)
  else s.rdStored a

/-- PLACE.STATUS, SPARE_MAP and SPARE_USE. -/
def placeStatusWord (s : State) : Word :=
  let tot := match s.place.now with | some p => p.spares.length | none => 0
  BitVec.ofNat 32 (s.place.st % 4 + 4 * b2n s.place.replacing.isSome + 8 * (s.place.freeSpares.length % 8) + 64 * (tot % 8))
def spareUseWord (s : State) : Word :=
  match s.place.now with
  | some p => BitVec.ofNat 32 (((sortNat p.spares).zip (List.range 4)).foldl (fun acc e =>
      match s.place.used.find? (fun u => u.1 == e.1) with
      | some u => acc + 2 ^ (8 * e.2) * (128 + u.2 % 32)
      | none => acc) 0)
  | none => 0

/-- FLOW_BOUND and FLOW_INFO of the flow in FLOW_SEL. -/
def flowBoundWord (s : State) : Word :=
  match s.place.now with
  | some p => (match p.flows.find? (fun f => f.id == s.fld PLACE.FLOW_SEL PLACE.FLOW_SEL_FLOW) with | some f => BitVec.ofNat 32 f.bound | none => 0)
  | none => 0
def flowInfoWord (s : State) : Word :=
  match s.place.now with
  | some p =>
    (match p.flows.find? (fun f => f.id == s.fld PLACE.FLOW_SEL PLACE.FLOW_SEL_FLOW) with
     | some f =>
       let held := s.place.dead.any (fun d => d.hold && (match d.till with | some x => decide (s.time.stc < x) | none => true) && d.srcNum == f.srcNum && d.dstNum == f.dstNum)
       BitVec.ofNat 32 (1 + 2 * b2n f.affected + 4 * b2n held + 2 ^ 8 * (f.kind % 256) + 2 ^ 16 * (f.index % 65536))
     | none => 0)
  | none => 0

/-- NODE_INFO and NODE_CH of the node in NODE_SEL. -/
def nodeInfoWord (s : State) : Word :=
  match nodeP s (s.fld PLACE.NODE_SEL PLACE.NODE_SEL_NODE) with
  | some n => BitVec.ofNat 32 (n.tile % 32 + 32 * b2n ((tileOf s n.tile).mode == .unified) + 64)
  | none => 0
def nodeChWord (s : State) : Word :=
  match nodeP s (s.fld PLACE.NODE_SEL PLACE.NODE_SEL_NODE) with
  | some n => BitVec.ofNat 32 ((n.inBase - 8192) % 4096 + 2 ^ 16 * ((n.outBase - 8192) % 4096))
  | none => 0

/-- A PLACE register as read (Table 5-18). -/
def readPlace (s : State) (a : Nat) : Word :=
  let w := fun (f : Placed → Nat) => BitVec.ofNat 32 (match s.place.now with | some p => f p | none => 0)
  if a = PLACE.STATUS then placeStatusWord s
  else if a = PLACE.REJECT_CODE then BitVec.ofNat 32 (s.place.rejCode % 2048 + 2 ^ 16 * (s.place.rejFlow % 65536))
  else if a = PLACE.REJECT_RES then BitVec.ofNat 32 (s.place.rejKind % 256 + 2 ^ 16 * (s.place.rejIndex % 65536))
  else if a = PLACE.REJECT_BOUND then BitVec.ofNat 32 s.place.rejBound
  else if a = PLACE.REJECT_REQ then BitVec.ofNat 32 s.place.rejReq
  else if a = PLACE.CONFIG_ID then w (fun p => p.configId)
  else if a = PLACE.POLICY_ID then w (fun p => p.policyId)
  else if a = PLACE.BUILD_ID then w (fun p => p.buildId)
  else if a = PLACE.PLACE_HASH then w (fun p => p.hash)
  else if a = PLACE.FLOW_BOUND then flowBoundWord s
  else if a = PLACE.FLOW_INFO then flowInfoWord s
  else if a = PLACE.NODE_INFO then nodeInfoWord s
  else if a = PLACE.NODE_CH then nodeChWord s
  else if a = PLACE.SPARE_MAP then w (fun p => ofBits p.spares)
  else if a = PLACE.SPARE_USE then spareUseWord s
  else s.rdStored a

/-- A SEC register as read (Table 5-9). -/
def readSec (s : State) (a : Nat) : Word :=
  let o := offOf a
  if 0x10 ≤ o ∧ o < 0x30 then BitVec.ofNat 32 (s.chip.fuses.keyHash / 2 ^ (8 * (o - 0x10)))
  else if a = SEC.STATUS then
    BitVec.ofNat 32 (b2n (s.chip.fuses.keyHash != 0) + (match s.place.now with | some p => 2 * b2n p.signed + 4 * b2n p.anchored | none => 0))
  else s.rdStored a

/-! ### Mailboxes and absent instances -/

/-- The blocks that have a mailbox (R75), and the mailbox registers. -/
def hasMbx (b : Nat) : Bool :=
  b == bTIME || b == bMACA || b == bMACB || b == bMACM || b == bSTX || b == bSRX || b == bDMA || b == bTWIN || b == bFAB || b == bLOG || b == bSTORE
def isMbx (a : Nat) : Bool := hasMbx (blkOf a) && decide (0x80 ≤ offOf a) && decide (offOf a ≤ 0xA4)

/-- A mailbox register of a path as read. -/
def readMbx (s : State) (p : Path) (a : Nat) : Word :=
  if offOf a = 0x80 then 0
  else if offOf a = 0x84 then (s.mbx p (blkOf a)).stat
  else (s.mbx p (blkOf a)).word ((offOf a - 0x88) / 4)

/-- Whether an output channel of APORT is present. -/
def outHere (s : State) (x : Nat) : Bool :=
  if x < 1024 then decide (x / 32 < s.variant.tdm) else if x < 1040 then decide ((x - 1024) / 2 < s.variant.aes) else decide ((x - 1040) / 64 < s.variant.madi)

/-- Whether the instance that a register belongs to is present (R39). -/
def regHere (s : State) (a : Nat) : Bool :=
  let o := offOf a
  if blkOf a = bDSPC ∧ 0x200 ≤ o ∧ o < 0x400 then s.tileHere ((o - 0x200) / 16)
  else if blkOf a = bAPORT ∧ 0x1000 ≤ o ∧ o < 0x1000 + 88 * 64 then sideHere s ((o - 0x1000) / 64)
  else if blkOf a = bAPORT ∧ 0x3000 ≤ o ∧ o < 0x3300 then decide (o % 0x100 / 32 < s.variant.aes)
  else if blkOf a = bAPORT ∧ 0x10000 ≤ o ∧ o < 0x11440 then outHere s ((o - 0x10000) / 4)
  else if blkOf a = bTIME ∧ 0x200 ≤ o ∧ o < 0x2C0 then ptpHere s ((o - 0x200) / 32)
  else if blkOf a = bFAB ∧ 0x200 ≤ o ∧ o < 0x220 then decide ((o - 0x200) / 4 < s.variant.ubley)
  else true

/-- The register at an address of the normal view as a path reads it; 0 where none lies (R52). -/
def readWord (s : State) (p : Path) (a : Nat) : Word :=
  let b := blkOf a
  if offOf a = 0 then idWord b
  else if isMbx a then readMbx s p a
  else if (regDesc a).isNone then 0
  else if b = bSYS then readSys s p a
  else if b = bPWR then readPwr s a
  else if b = bCLK then readClk s a
  else if b = bTIME then readTime s a
  else if b = bMACA ∨ b = bMACB ∨ b = bMACM then readMac s (b - 4) a
  else if b = bSTX then (if a = STX.STATUS then BitVec.ofNat 32 ((txEnabled s).length % 2048) else s.rdStored a)
  else if b = bSRX then readSrx s a
  else if b = bAPORT then readAport s a
  else if b = bDSPC then readDspc s a
  else if b = bDMA then readDma s a
  else if b = bTWIN then readTwin s a
  else if b = bFAB then readFab s a
  else if b = bLOG then readLog s p a
  else if b = bSTORE then readStore s a
  else if b = bPLACE then readPlace s a
  else if b = bSEC then readSec s a
  else s.rdStored a

end Sys2Proof.Machine
end

