-- ==== Sys2Proof/Machine/Power.lean ====
section
/-!
DEFINITION. Supplies, reset and start-up, brown-out, wake from SLEEP, power domains coming up, temperature and the PCIe link (chapters 2 and 17, R34,
R36, R47, R49, R88, R90, R155, R212, R416, R419 to R426, R437).
-/
namespace Sys2Proof.Machine

/-! ### Reset and start (R47, R425) -/

/-- Every volatile field takes its reset value, and the log records not yet programmed, which the control cores hold, are lost (R410; log entry 14).
What remains: the recorder with its numbers and fall-back area, the NAND device, the copies of the
always-on island, the learned frequency of OSC_M, and what has already left the device. -/
def coldClear (s : State) : State :=
  { s with
    regs := [], bankSel := false, banks := [], mem := []
    pwr := { s.pwr with on := 7, placed := 0, forcedOff := 0, linkTrained := false, wakeLatch := 0, waking := false, hotSleep := false
                        hotIgnore := false, tj := none }
    host := { HostS.init with cpls := s.host.cpls }
    cmd := { CmdS.boot s.cmd.prev with mode := s.cmd.mode, nextOrder := s.cmd.nextOrder }
    recorder := { s.recorder with degraded := false, snapSpi := none, snapPcie := none, wbuf := [], wbufSince := none }
    nand := { s.nand with present := false, ready := false, fault := false, geomErr := false, failAt := none, retrying := false, xfer := none
                          xferBusy := false, xferStatus := 0, scrub := none, ctr := [] }
    macA := .init, macB := .init, macM := .init, stx := .init, srx := .init, way := ⟨[], []⟩, place := .init
    time := { TimeS.init with on := false, learned := s.time.learned, learnAge := s.time.learnAge }
    clk := .init, aport := .init, dsp := .init, dma := { DmaS.init with hostMem := s.dma.hostMem, msix := s.dma.msix }
    twin := { TwinS.init with out := s.twin.out, lostFrom := s.now }, gander := .init, fab := { FabS.init with out := s.fab.out } }

/-- A start after a brown-out says so (R426). -/
def brownNote (s : State) : State :=
  if s.chip.brownStart then
    (({ s with chip := { s.chip with brownStart := false } }).raise PWR.CAUSE 4).emit .aon 0x1007 sevWARNING 0 []
  else s

/-- The fuse check and the TEST balls: either failure is recorded, and the device enters SAFE from BOOT (R36, R49). -/
def startChecks (s : State) : State :=
  let s1 := if Fuses.ok s.chip.fuses then s
            else ({ s with cmd := { s.cmd with safeCause := setBit s.cmd.safeCause scFUSE true } }).emit .aon 0x0001 sevCRITICAL 0 [Fuses.status s.chip.fuses]
  let s2 := if s.chip.straps.test then
              ({ s1 with cmd := { s1.cmd with safeCause := setBit s1.cmd.safeCause scTEST true } }).emit .aon 0x0002 sevCRITICAL 0 []
            else s1
  if s2.cmd.safeCause % 4 = 0 then s2 else changeMode s2 .safe

/-- The mode becomes BOOT (Table 4-5): PREV, MODE_CHG and the record of R78. -/
def enterBoot (s : State) (prev : Nat) : State :=
  let s1 := ({ s with cmd := { s.cmd with mode := .boot, prev := prev } }).raise SYS.CMD_STATUS 18
  s1.emit .control 0x0007 sevNOTICE 0 [s1.modeWord]

/-- A start other than a wake: straps sampled, commands discarded, the STC counts from zero at the learned frequency of OSC_M (R47, R212). A freeze
of the log ends (R415). After a failed fuse check CLK and TIME read as absent, and yet PD2 is on and the STC runs: R38's "its power domain stays
off" is taken not to reach PD2, which the device needs to start (DESIGN CHOICE, log entry 86). -/
def startUp (s : State) (straps : Straps) : State :=
  let s1 := coldClear s
  let s2 := { s1 with chip := { s1.chip with straps := straps, resetN := true }
                      cmd := { CmdS.boot 0 with nextOrder := s1.cmd.nextOrder }
                      time := { s1.time with on := true, y := yFor s1 0 } }
  startChecks (brownNote (enterBoot (thawDrain s2) s.cmd.mode.code))

/-- The row POWER_UP: the supplies come up in sequence with RESET_N low; fuses, bond option and bank levels are sensed. PCYC counts the rise of
VDD_CORE; after a loss of VDD_AON it reads 1 until the counters are restored (R416). -/
def execPowerUp (t : Nat) (fuses : Fuses) (iov pwrd : Nat) (s : State) : Host.Outcome State Fault Refusal :=
  .next (
    let s0 := coldClear (s.at t)
    { s0 with chip := { s0.chip with fuses := fuses, iov := iov % 512, pwrd := pwrd % 512, coreOn := true, aonOn := true, resetN := false
                                     brownout := false, coreLost := s0.chip.coreLost || !s0.chip.aonOn }
              cmd := { s0.cmd with mode := .sleep, prev := 0 }
              recorder := { s0.recorder with pcyc := if s0.chip.aonOn then (s0.recorder.pcyc + 1) % 2 ^ 32 else 1 } })

/-- The row RESET_N_FALL: RESET_N has been low for `lowNs`. At 1 µs the device resets, below 100 ns the pulse is ignored; between the two the spec
does not say, and a free value decides. -/
def execResetNFall (t : Nat) (lowNs : Nat) (s : State) : Host.Outcome State Fault Refusal :=
  .next (
    let s0 := s.at t
    let down := fun (x : State) => let c := coldClear x; { c with chip := { c.chip with resetN := false } }
    if lowNs < 100 then s0
    else if 1000 ≤ lowNs then down s0
    else if (s0.takeFree 1).1 = 1 then down (s0.takeFree 1).2 else (s0.takeFree 1).2)

/-- The row RESET_N_RISE. During a brown-out the start waits for its release (R426). -/
def execResetNRise (t : Nat) (straps : Straps) (s : State) : Host.Outcome State Fault Refusal :=
  .next (
    let s0 := s.at t
    if !(s0.chip.aonOn && s0.chip.coreOn) then s0
    else if s0.chip.brownout then { s0 with chip := { s0.chip with resetN := true } }
    else startUp s0 straps)

/-- The row BROWNOUT_ASSERT: the device behaves as though RESET_N were low; log records not yet programmed are lost with the power (R410). -/
def execBrownoutAssert (t : Nat) (s : State) : Host.Outcome State Fault Refusal :=
  .next (
    let s0 := s.at t
    if s0.chip.aonOn && s0.chip.coreOn && !s0.chip.brownout then
      let s1 := coldClear s0
      { s1 with chip := { s1.chip with brownout := true, brownStart := true } }
    else s0)

/-- The row BROWNOUT_RELEASE: with RESET_N high it acts as a rising edge of RESET_N, strap sampling included; PCYC counts it. -/
def execBrownoutRelease (t : Nat) (straps : Straps) (s : State) : Host.Outcome State Fault Refusal :=
  .next (
    let s0 := s.at t
    if s0.chip.brownout then
      let s1 := { s0 with chip := { s0.chip with brownout := false }, recorder := { s0.recorder with pcyc := (s0.recorder.pcyc + 1) % 2 ^ 32 } }
      if s1.chip.resetN then startUp s1 straps else s1
    else s0)

/-- The row VDD_AON_LOST: every supply is gone; the always-on state, the fall-back log and unprogrammed records are lost, the NAND device and what
it holds are not (R416). -/
def execVddAonLost (t : Nat) (s : State) : Host.Outcome State Fault Refusal :=
  .next (
    let s0 := coldClear (s.at t)
    { s0 with chip := { s0.chip with coreOn := false, aonOn := false, resetN := false, brownout := false, brownStart := false, coreLost := true
                                     pwrd := 0, iov := 0 }
              cmd := { s0.cmd with mode := .sleep, prev := 0 }
              aon := .init
              recorder := { RecS.init with main := s0.recorder.main, logPage := s0.recorder.logPage }
              time := { s0.time with learned := 0, learnAge := 0 } })

/-! ### Wake (R421, R422) -/

/-- The enables of the wake sources: the registers, or in SLEEP the copies of the always-on island. -/
def wakeEnables (s : State) : Nat := if s.cmd.mode = .sleep then s.aon.wakeEn else (s.rd PWR.WAKE_EN).toNat

/-- The row WAKE_IN_LEVEL: WAKE_IN has held a level for 10 µs. -/
def execWakeInLevel (t : Nat) (level : Bool) (s : State) : Host.Outcome State Fault Refusal :=
  .next (
    let s0 := s.at t
    if s0.live then
      let s1 := { s0 with pwr := { s0.pwr with wakeInPin := level } }
      if pinTrue level (wakeEnables s1) then wakeOn s1 1 else s1
    else s0)

/-- The temperature crosses WAKE_T in the direction of WAKE_DIR: `tj`, in units of 0.25 °C, lies beyond it. -/
def tempTrue (s : State) (tj : Int) : Bool :=
  let ctl := BitVec.ofNat 32 (if s.cmd.mode = .sleep then s.aon.tempCtl else (s.rd PWR.TEMP_CTL).toNat)
  let th := 4 * sgn 8 (PWR.TEMP_CTL_WAKE_T.get ctl)
  if PWR.TEMP_CTL_WAKE_DIR.get ctl = 1 then decide (tj < th) else decide (th < tj)

/-- The row TEMPERATURE_WAKE: ignored after an over-temperature SLEEP until RESET_N rises (R437). -/
def execTemperatureWake (t : Nat) (tj : Int) (s : State) : Host.Outcome State Fault Refusal :=
  .next (
    let s0 := s.at t
    if s0.live && bit (wakeEnables s0) 2 && !s0.pwr.hotIgnore && tempTrue s0 tj then wakeOn s0 3 else s0)

/-- The row LINK_ENERGY_WAKE. -/
def execLinkEnergyWake (t : Nat) (s : State) : Host.Outcome State Fault Refusal :=
  .next (
    let s0 := s.at t
    if s0.live && bit (wakeEnables s0) 3 && s0.chip.straps.mgmtSel != 3 then wakeOn s0 4 else s0)

/-- A frame for this port in SLEEP passes steps 1 to 3 of R152 with the stored station address (R154, R155). -/
def sleepFrame (s : State) (f : List Byte) : Bool :=
  passesMac (f.take 6 == leBytes 6 s.aon.station || byteAt f 0 % 2 == 1) f

/-- The row WAKE_PATTERN_MATCH: outside SLEEP it sets WAKE_HIT of port M; in SLEEP, over RGMII, it wakes (R155). -/
def execWakePatternMatch (t : Nat) (frame : List Byte) (s : State) : Host.Outcome State Fault Refusal :=
  .next (
    let s0 := s.at t
    if !s0.live then s0
    else if s0.cmd.mode = .sleep then
      (let rd := fun (a : Nat) => Tbl.getD s0.aon.wakeRegs a (resetWord a)
       if bit s0.aon.wakeEn 4 && (s0.chip.straps.mgmtSel == 1 || s0.chip.straps.mgmtSel == 2) && sleepFrame s0 frame &&
          (List.range 16).any (fun k => wakeHit rd 2 k frame) then wakeOn s0 5 else s0)
    else if s0.blkOn bMACM && rxEn s0 2 && linkUp s0 2 && passesMac (addrOk s0 2 frame) frame then
      (let s1 := wakeFlags s0 2 frame
       if bit (wakeEnables s0) 4 && (List.range 16).any (fun k => wakeHit s0.rd 2 k frame) then wakeOn s1 5 else s1)
    else s0)

/-- The lowest source of a set. -/
def lowestSource (l : Nat) : Nat := match bitsOf 5 l with | c :: _ => c + 1 | [] => 0

/-- The completions held in SLEEP are posted in order; those beyond eight were lost (R88). -/
def postSleepDone (s : State) (l : List Cpl) (lost : Bool) : State :=
  let s1 := l.foldl pushDone s
  if lost then s1.raise SYS.CMD_STATUS 17 else s1

/-- The row WAKE_DOMAINS_UP: PD1 and PD2 are up, the STC passes to the time island in holdover, and BOOT begins with WAKE_BOOT set (R90, R212,
R422). A FUSE or TEST_STRAP cause stands on, and SAFE follows. -/
def execWakeDomainsUp (t : Nat) (s : State) : Host.Outcome State Fault Refusal :=
  .next (
    let s0 := s.at t
    if s0.live && s0.cmd.mode == .sleep && s0.pwr.waking then
      let lat := s0.pwr.wakeLatch
      let s1 := { s0 with
        cmd := { CmdS.boot 0 with safeCause := s0.cmd.safeCause, nextOrder := s0.cmd.nextOrder, wakeBoot := true, wakeSrc := lowestSource lat
                                  wakeSeen := lat, modeStc := s0.time.stc, groupsStc := s0.time.stc }
        pwr := { s0.pwr with on := 7, wakeLatch := 0, waking := false } }
      let s2 := (postSleepDone (enterBoot s1 0) s0.cmd.sleepDone s0.cmd.sleepLost).emit .control 0x1001 sevNOTICE 0 [lat]
      let s3 := refreshRole s2 16
      if s3.cmd.safeCause % 4 = 0 then s3 else changeMode s3 .safe
    else s0)

/-! ### Domains coming up (R419) -/

/-- A domain is up with its configuration and its retained fields written: ON reads 1; a forced domain has returned. -/
def domUp (s : State) (d : Nat) : State :=
  let s1 := { s with pwr := { s.pwr with on := setBit s.pwr.on d true } }
  let s2 := (domainBlocks d).foldl rebuildBlock s1
  let s3 := if d = 7 ∨ d = 8 then
      (match s2.place.now with
       | some p => ((List.range 16).map (· + 16 * (d - 7))).foldl (fun st k => startTile st p k) s2
       | none => s2)
    else s2
  if bit s3.pwr.forcedOff d then
    (({ s3 with pwr := { s3.pwr with forcedOff := setBit s3.pwr.forcedOff d false } }).raise PWR.CAUSE 1).emit .control 0x1003 sevNOTICE d []
  else s3

/-- The row DOMAIN_UP. -/
def execDomainUp (t : Nat) (domain : Nat) (s : State) : Host.Outcome State Fault Refusal :=
  .next (
    let s0 := s.at t
    if s0.live && s0.cmd.mode != .sleep && decide (3 ≤ domain) && decide (domain < 12) && domDue s0 domain && !bit s0.pwr.on domain then
      parityClear (domUp s0 domain)
    else s0)

/-- The row PCIE_LINK_UP: PCIE_PERST_N is high; PD10 comes into use and up, unless it is forced off, and the link has trained. -/
def execPcieLinkUp (t : Nat) (width speed : Nat) (bme ext msix fmask : Bool) (s : State) : Host.Outcome State Fault Refusal :=
  .next (
    let s0 := s.at t
    let s1 := { s0 with pwr := { s0.pwr with pcieUp := true } }
    if !s1.live || s1.cmd.mode == .sleep || !domDue s1 10 then s1
    else
      let s2 := if bit s1.pwr.on 10 then s1 else domUp s1 10
      let wide := Nat.min width s2.variant.lanes
      unmaskAll { s2 with pwr := { s2.pwr with linkTrained := true }
                          dma := { s2.dma with linkUp := true, width := if wide = 3 then 2 else wide, speed := Nat.min 4 speed, bme := bme, extTag := ext
                                               msixEn := msix, fmask := fmask, d3 := false } })

/-! ### Temperature (R437) -/

/-- The row TEMPERATURE_MEASURE: TJ is updated and compared with WARN. A first measurement counts as coming from below. -/
def execTemperatureMeasure (t : Nat) (tj : Int) (s : State) : Host.Outcome State Fault Refusal :=
  .next (
    let s0 := s.at t
    if !s0.domOn 1 then s0
    else
      let warn : Int := ((4 * s0.fld PWR.TEMP_CTL PWR.TEMP_CTL_WARN : Nat) : Int)
      let new := satS 11 tj
      let s1 := { s0 with pwr := { s0.pwr with tj := some new } }
      let wasAbove := match s0.pwr.tj with | some o => decide (warn < o) | none => false
      let wasBelow := match s0.pwr.tj with | some o => decide (o ≤ warn - 20) | none => true
      let s2 := if warn < new ∧ wasAbove = false then (s1.raise PWR.CAUSE 2).emit .control 0x1004 sevWARNING 0 [pw new] else s1
      if new ≤ warn - 20 ∧ wasBelow = false then (s2.raise PWR.CAUSE 3).emit .control 0x1005 sevNOTICE 0 [pw new] else s2)

/-- Over-temperature in BOOT or LOAD abandons the load: a LOAD or APPLY in progress is cancelled. -/
def abandonLoad (s : State) : State :=
  match s.cmd.loading with
  | some l =>
    let s1 := loadOver s
    match l.cmd with
    | some c => finish s1 c cCANCELLED 0
    | none => s1
  | none => s

/-- The row PWR_OVERTEMP: Tj has stayed above 125 °C for 1 ms. The device enters SLEEP by the steps of R89 with no command behind it; the source
kept is that of the bitstream that ran before any load, the mode to resume is HOLD, AUTOSTART does not act on the wake that follows, and the
temperature source is ignored until RESET_N rises. -/
def execPwrOvertemp (t : Nat) (tj : Int) (s : State) : Host.Outcome State Fault Refusal :=
  .next (
    let s0 := settle 64 (s.at t)
    if s0.domOn 1 && s0.cmd.mode != .sleep && decide (500 < tj) then
      let s1 := ({ s0 with pwr := { s0.pwr with hotIgnore := true } }).emit .control 0x1006 sevCRITICAL 0 [pw (satS 11 tj)]
      let src := match s1.cmd.loading with | some l => l.prevSrc | none => s1.cmd.cfgSrc
      if s1.cmd.sleeping then { s1 with pwr := { s1.pwr with hotSleep := true } }
      else
        sleepStart { abandonLoad s1 with cmd := { (abandonLoad s1).cmd with nextOrder := s1.cmd.nextOrder + 1 } }
          ⟨0x0D, 0, true, .mirror, 0, 0, s1.cmd.nextOrder⟩ true (some src)
    else s0)

end Sys2Proof.Machine
end

