-- ==== Sys2Proof/Machine/HostAccess.lean ====
section
/-!
DEFINITION. Host accesses (chapter 3): register writes and reads through both paths and all four views (R51 to R53, R65, R68, R71), the memory window
(R55), fault capture (R70), the SPI target and HRDY (R59 to R63), BAR0 and BAR2 (R54 to R57), and the rows that are one register write.
-/
namespace Sys2Proof.Machine

/-! ### Access status (Table 3-5) -/

def aOK : Nat := 0
def aTIMEOUT : Nat := 1
def aFAULT : Nat := 2
def aCROSSING : Nat := 3
def aUNMAPPED : Nat := 4
def aLOCKED : Nat := 5
def aALIGN : Nat := 6
def aOPCODE : Nat := 7
def aLENGTH : Nat := 8
def aOVERLAP : Nat := 9

/-! ### Registers and views (R51 to R53, R68) -/

/-- The view of Table 3-2 that an address lies in: 0 normal, 1 SET, 2 CLR, 3 TGL; and the address of the register in the normal view. -/
def viewOf (a : Nat) : Nat := offOf a / 0x40000
def normalOf (a : Nat) : Nat := a - viewOf a * 0x40000

/-- The register contains an RWP field. -/
def hasRWP (a : Nat) : Bool := typeMask a (fun t => t == .rwp) != 0

/-- A protected register: it contains an RWP field, or is SYS.UNLOCK or a mailbox register. -/
def isProtected (a : Nat) : Bool := hasRWP a || a == SYS.UNLOCK || isMbx a

/-- The path's arm is gone. -/
def disarm (s : State) (p : Path) : State := s.setPath p { s.path p with armedTill := none }
def disarmFor (s : State) (p : Path) (a : Nat) : State := if hasRWP a then disarm s p else s

/-! ### Writes -/

/-- SYS.CMD submits a command of the path with its own arguments (R91). -/
def pathSrc (p : Path) : CmdSrc := match p with | .spi => .spi | .pcie => .pcie
def cmdWrite (s : State) (p : Path) (v : Word) : State :=
  submit s (SYS.CMD_OPCODE.get v) (SYS.CMD_TAG.get v) (SYS.CMD_NODEFER.get v == 1) (pathSrc p) (s.path p).arg0 (s.path p).arg1

/-- MBX_REQ of a block: the request of its mailbox (R75, R76). -/
def mbxRequest (s : State) (p : Path) (b : Nat) (v : Word) : State :=
  let sel := v.toNat % 2 ^ 16
  let tag := v.toNat / 2 ^ 16 % 256
  if b = bTIME then mbxServe s p b sel tag (timeMailbox sel)
  else if b = bMACA ∨ b = bMACB ∨ b = bMACM then mbxServe s p b sel tag (macCapture (b - 4) sel)
  else if b = bSTX then mbxServe s p b sel tag (stxCapture sel)
  else if b = bSRX then mbxServe s p b sel tag (srxCapture sel)
  else if b = bDMA then mbxServe s p b sel tag (dmaCapture sel)
  else if b = bTWIN then mbxServe s p b sel tag (twinCapture sel)
  else if b = bFAB then mbxServe s p b sel tag (fabCapture sel)
  else if b = bLOG then logMbx s p sel tag
  else mbxServe s p b sel tag (storeCapture sel)

/-- A host stores the bits `m` of `v` in a register and clears its flags `c`. A STANDBY performs no part of it that is mirrored, and notes it (R346);
an ACTIVE unit forwards what the write produces (R345). -/
def hostStore (s : State) (a be : Nat) (m v c : Word) : State :=
  if m = 0 ∧ c = 0 then s
  else
    let mm := mirrorMask a
    let stand := twinned s && s.twin.role == .standby
    let m1 := if stand then m &&& ~~~ mm else m
    let c1 := if stand then c &&& ~~~ mm else c
    let s1 := if stand && ((m ||| c) &&& mm) != 0 then (s.raise TWIN.TWIN_CAUSE 11).emit .fabric 0xB00D sevNOTICE 0 [a] else s
    if m1 = 0 ∧ c1 = 0 then s1
    else
      let made := if (c1 &&& mm) = 0 then (s1.rdStored a &&& ~~~ m1) ||| (v &&& m1) else c1
      let s2 := parityClear (softWrite true s1 a be m1 v c1)
      if s.twin.role == .active && ((m1 ||| c1) &&& mm) != 0 then mirrorOut s2 (.write a made.toNat) else s2

/-- Software clears SYS.ACC_FAULT_INFO.VALID: COUNT clears. A fault of the same cycle leaves VALID set and replaces the capture (Table 3-11). -/
def faultCleared (s : State) : State :=
  match s.inst.fault with
  | some (ad, inf) => (s.wr SYS.ACC_FAULT_ADDR (BitVec.ofNat 32 ad)).wr SYS.ACC_FAULT_INFO (BitVec.ofNat 32 (inf + 2 ^ 31))
  | none => s.setFld SYS.ACC_FAULT_INFO SYS.ACC_FAULT_INFO_COUNT 0

/-- A write in the normal view of the bytes `be`, when no rule refuses it: each field acts as its type states. -/
def normalWrite (s : State) (p : Path) (a be : Nat) (v : Word) : State :=
  if isMbx a then (if offOf a = 0x80 then mbxRequest s p (blkOf a) v else s)
  else if a = SYS.CMD then cmdWrite s p (v &&& beMask be)
  else if perPath a = true then pathWrite s p a be v
  else if isActive a then s
  else
    let m := typeMask a (fun t => t == .rw || t == .rwh || t == .rwp) &&& beMask be
    let c := v &&& typeMask a (fun t => t == .w1c) &&& beMask be
    let s1 := hostStore s a be m v c
    if a = SYS.ACC_FAULT_INFO ∧ c ≠ 0 then faultCleared s1 else s1

/-- The word that a view makes of a word and the bits written 1. -/
def aliasWord (view : Nat) (old w : Word) : Word := if view = 1 then old ||| w else if view = 2 then old &&& ~~~ w else old ^^^ w

/-- The bytes in which a word has a bit at 1. -/
def bytesOf (w : Word) : Nat := ofBits ((List.range 4).filter (fun k => w.toNat / 2 ^ (8 * k) % 256 != 0))

/-- A write through SET, CLR or TGL: an atomic read-modify-write of the RW and RWH bits written 1 (R53). It changes, and so restores the parity of,
the bytes in which a bit is written 1 (R72; log entry 77). -/
def aliasWrite (s : State) (p : Path) (view a be : Nat) (v : Word) : State :=
  let w := v &&& beMask be &&& typeMask a (fun t => t == .rw || t == .rwh)
  if isMbx a ∨ w = 0 then s
  else if perPath a = true then pathWrite s p a (bytesOf w) (aliasWord view (BitVec.ofNat 32 (s.pathStored p a)) w)
  else if isActive a then s else hostStore s a (bytesOf w) w (aliasWord view (s.rdStored a) w) 0

/-- A write of SYS.UNLOCK (R71). -/
def unlockWrite (s : State) (p : Path) (v : Word) : Nat × State :=
  if v = 0xC3A5 then (aOK, s.setPath p { s.path p with armedTill := some (s.now + ms 100) }) else (aLOCKED, disarm s p)

/-- A write by a path of the bytes `be` of the word at an address: its status, and what it does. -/
def hostWrite (s : State) (p : Path) (a be : Nat) (v : Word) : Nat × State :=
  let na := normalOf a
  let b := blkOf a
  if s.cmd.mode = .sleep then (if p = .spi ∧ a = SYS.CMD then (aOK, cmdWrite s p v) else (aTIMEOUT, s))
  else if 0x1300000 ≤ a then (aUNMAPPED, s)
  else if s.domOn 1 = false then (aTIMEOUT, s)
  else if (s.present b && regHere s na) = false then (aOK, s)
  else if s.domOn (domainOf b) = false then (aTIMEOUT, disarmFor s p na)
  else if (be % 16 ≠ 15 ∧ isProtected na = true) ∨ (viewOf a ≠ 0 ∧ hasRWP na = true) then (aFAULT, disarmFor s p na)
  else if viewOf a ≠ 0 then (aOK, aliasWrite s p (viewOf a) na be v)
  else if na = SYS.UNLOCK then unlockWrite s p v
  else if hasRWP na = true ∧ armed s p = false then (aLOCKED, s)
  else (aOK, normalWrite (disarmFor s p na) p na be v)

/-! ### Reads -/

/-- ATTN_SUMMARY is read: attention is released on both paths, and the pending bit of vector 0 clears (R25, R330). Attention raised in the same
cycle stands after the release, and ATTN reads 1 at the next read. -/
def attnRelease (s : State) : State :=
  if s.inst.attn then { s with host := { s.host with attn := true, attnSeen := true } }
  else { s with host := { s.host with attn := false, attnSeen := false }, dma := { s.dma with pend := setBit s.dma.pend 0 false } }

/-- SYS.CMD_DONE is read: the oldest completion that stood before this cycle is removed (R96, Table 3-8). -/
def doneRead (s : State) : State :=
  if s.inst.done = 0 then s
  else { s with cmd := { s.cmd with done := s.cmd.done.drop 1 }, inst := { s.inst with done := s.inst.done - 1 } }

/-- The side effect of reading the register at an address of the normal view. -/
def readEffect (s : State) (p : Path) (a : Nat) : State :=
  let o := offOf a
  if a = SYS.ATTN_SUMMARY then attnRelease s
  else if a = SYS.CMD_DONE then doneRead s
  else if blkOf a = bDSPC ∧ 0x200 ≤ o ∧ o < 0x400 ∧ o % 16 = 12 then tileLoadRead s ((o - 0x200) / 16)
  else if isMbx a then
    (let m := s.mbx p (blkOf a)
     if 0x88 ≤ o ∧ (o - 0x88) / 4 + 1 = m.words then s.setMbx p (blkOf a) { m with valid := false } else s)
  else s

/-- A read by a path of the word at an address: status, data, and what it does. -/
def hostRead (s : State) (p : Path) (a : Nat) : AccResult × State :=
  let na := normalOf a
  let b := blkOf a
  if s.cmd.mode = .sleep then (⟨aTIMEOUT, 0⟩, s)
  else if 0x1300000 ≤ a then (⟨aUNMAPPED, 0⟩, s)
  else if s.domOn 1 = false then (⟨aTIMEOUT, 0⟩, s)
  else if (s.present b && regHere s na) = false then (⟨aOK, 0⟩, s)
  else if s.domOn (domainOf b) = false then (⟨aTIMEOUT, 0⟩, s)
  else if viewOf a ≠ 0 then (⟨aOK, 0⟩, s)
  else (⟨aOK, (readWord s p na).toNat⟩, readEffect s p na)

/-! ### The memory window (R54, R55) -/

/-- The tile slot of a window offset. -/
def winTile (a : Nat) : Nat := (a - 0x3000000) / 0x40000

/-- A window offset of a tile that is absent, or in the reserved part of a slot. -/
def winNone (s : State) (a : Nat) : Bool := decide (0x3000000 ≤ a) && (!s.tileHere (winTile a) || decide (0x30000 ≤ a % 0x40000))

/-- The status of an access to one byte of the window. -/
def winStatus (s : State) (a : Nat) : Nat :=
  if s.cmd.mode = .sleep then aTIMEOUT
  else if 0x3800000 ≤ a then aUNMAPPED
  else if s.domOn 1 = false then aTIMEOUT
  else if a < 0x3000000 then (if s.domOn 6 then aOK else aTIMEOUT)
  else if s.tileHere (winTile a) = false then aOK
  else if s.domOn (7 + winTile a / 16) = false ∨ (tileOf s (winTile a)).st = .off then aTIMEOUT
  else aOK

/-- One byte read, and one byte written: SEC.CTL.WIN_PROG_RO keeps tile program memory as it is. -/
def winRead (s : State) (a : Nat) : Byte := if winStatus s a ≠ 0 ∨ winNone s a = true then 0 else storeByte s a
def winWrite (s : State) (a : Nat) (b : Byte) : State :=
  let prog := decide (0x3000000 ≤ a) && decide (0x20000 ≤ a % 0x40000) && (tileOf s (winTile a)).mode == .split
  if winStatus s a ≠ 0 ∨ winNone s a = true ∨ (prog && s.flag SEC.CTL SEC.CTL_WIN_PROG_RO) = true then s else noteStored (s.setMemB a b) a

/-- The first status other than OK. -/
def firstBad (l : List Nat) : Nat := (l.find? (fun x => x != 0)).getD 0

/-- The bytes of a word access that its byte enables select. -/
def winBytes (x : Access) : List Nat := (bitsOf x.len x.be).map (fun k => x.addr + k)

/-- An access to the window, byte by byte (R55). -/
def winAccess (s : State) (x : Access) : AccResult × State :=
  let st := firstBad ((winBytes x).map (winStatus s))
  if x.write then
    (⟨st, 0⟩, (bitsOf x.len x.be).foldl (fun y k => winWrite y (x.addr + k) (BitVec.ofNat 8 (x.data / 2 ^ (8 * k)))) s)
  else (⟨st, if st = 0 then ofLe ((List.range x.len).map (fun k => winRead s (x.addr + k))) else 0⟩, s)

/-! ### One access (R70, R439) -/

/-- A fault is captured and recorded. -/
def capture (s0 : State) (p : Path) (win write : Bool) (a st : Nat) : State :=
  let ad := a % 2 ^ 26 + 2 ^ 26 * b2n win
  let inf := st + 16 * b2n (p == .pcie) + 32 * b2n write
  let s := { s0 with inst := { s0.inst with fault := some (ad, inf) } }
  let s1 :=
    if s.domOn 1 then
      if bit (s.rd SYS.ACC_FAULT_INFO).toNat 31 then
        (s.noteRaise SYS.ACC_FAULT_INFO 31).setFld SYS.ACC_FAULT_INFO SYS.ACC_FAULT_INFO_COUNT
          (Nat.min 255 (s.fld SYS.ACC_FAULT_INFO SYS.ACC_FAULT_INFO_COUNT + 1))
      else ((s.wr SYS.ACC_FAULT_ADDR (BitVec.ofNat 32 ad)).wr SYS.ACC_FAULT_INFO (BitVec.ofNat 32 inf)).raise SYS.ACC_FAULT_INFO 31
    else s
  s1.emit (if s.cmd.mode = .sleep then .aon else .control) 0x0004 (if st = aTIMEOUT then sevWARNING else sevNOTICE) 0
    [st, b2n (p == .pcie), a % 2 ^ 26]

/-- An access ends: the path keeps its result, and a status other than OK is captured. -/
def accEnds (s : State) (p : Path) (x : Access) (r : AccResult) : State :=
  let s1 := s.setPath p { s.path p with last := r }
  if r.status = 0 then s1 else capture s1 p x.win x.write x.addr r.status

/-- The destination performs an access. -/
def perform (s : State) (p : Path) (x : Access) : AccResult × State :=
  let q : AccResult × State :=
    if x.win then winAccess s x
    else if x.write then (let w := hostWrite s p x.addr x.be (BitVec.ofNat 32 x.data); (⟨w.1, 0⟩, w.2))
    else hostRead s p x.addr
  (q.1, accEnds q.2 p x q.1)

/-- An access that needs no crossing: the control cores hold the register, or the register fabric answers by itself. -/
def atOnce (s : State) (x : Access) : Bool :=
  if s.cmd.mode = .sleep ∨ s.domOn 1 = false then true
  else if x.win then winStatus s x.addr != 0 || (decide (0x3000000 ≤ x.addr) && !s.tileHere (winTile x.addr))
  else
    let b := blkOf x.addr
    decide (0x1300000 ≤ x.addr) || !s.present b || !regHere s (normalOf x.addr) || islandOf b == .control || !s.domOn (domainOf b)

/-! ### The SPI target (R59 to R63) -/

/-- Replace the SPI target's state. -/
def setSpi (s : State) (x : SpiS) : State := { s with host := { s.host with spi := x } }

/-- HRDY (R62, R63): low while an access has not completed, and while attention stands between transactions. In SLEEP it is not driven. -/
def hrdyHigh (s : State) : Bool := s.host.spi.wait.isEmpty && (s.host.spi.csLow || !s.host.attn)

/-- READ_STATUS (R61). -/
def spiStatus (x : SpiS) : Nat := x.lastStatus % 256 + 256 * (x.firstBad % 256) + 2 ^ 16 * Nat.min 65535 x.words

/-- A word of the transaction completes. Words that were under way when a transaction was refused count for none. -/
def spiEnds (s : State) (x : Access) (r : AccResult) : State :=
  let y := s.host.spi
  let y1 := if x.write then y else { y with out := y.out ++ [r] }
  setSpi s (if y.refused then y1
            else { y1 with lastStatus := r.status, firstBad := if y.firstBad = 0 then r.status else y.firstBad, words := Nat.min 65535 (y.words + 1) })

/-- An access has not been accepted within 20 µs (R64): a write is discarded, and to a register with an RWP field it consumes the arm (R71); a read
returns 0. -/
def timedOut (s : State) (p : Path) (x : Access) : AccResult × State :=
  (⟨aTIMEOUT, 0⟩, accEnds (if x.write && !x.win then disarmFor s p (normalOf x.addr) else s) p x ⟨aTIMEOUT, 0⟩)

/-- The first waiting access is performed, or times out. -/
def spiStep (s : State) (ok : Bool) : State :=
  match s.host.spi.wait with
  | [] => s
  | x :: r =>
    let s1 := setSpi s { s.host.spi with wait := r }
    let q := if ok then perform s1 .spi x
             else timedOut s1 .spi x
    spiEnds q.2 x q.1

/-- Accesses at the head of the queue that need no crossing are performed. -/
def spiDrain : Nat → State → State
  | 0, s => s
  | n + 1, s =>
    match s.host.spi.wait with
    | [] => s
    | x :: _ => if atOnce s x then spiDrain n (spiStep s true) else s

/-- Words are clocked: an access for each, in order, the address rising by 4. -/
def spiWords (s : State) (write win : Bool) (l : List Nat) : State :=
  let x := s.host.spi
  let acc := (List.range l.length).map (fun i => (⟨write, win, x.addr + 4 * i, 15, l.getD i 0 % 2 ^ 32, 4, s.now⟩ : Access))
  let s1 := setSpi s { x with wait := x.wait ++ acc, addr := x.addr + 4 * l.length }
  spiDrain (x.wait.length + l.length) s1

/-- The state in which a row of the host paths starts: the sequencer has judged its commands against the mode that stands. -/
def rowStart (t : Nat) (s : State) : State := if s.cmd.mode = .sleep then s.at t else settle 64 (s.at t)

/-- A transaction refused as a whole is captured once (R61, R70). -/
def spiRefuse (s : State) (st : Nat) : State :=
  let x := s.host.spi
  let s1 := setSpi s { x with refused := true, lastStatus := st, firstBad := st, words := 0 }
  capture s1 .spi (x.opcode == 0x12 || x.opcode == 0x13) (x.opcode == 0x02 || x.opcode == 0x12) (if st = aOPCODE then 0 else x.addr) st

/-- The row SPI_TRANSACTION_START: SPI_CS_N falls, and the target takes the opcode and the address field. READ_STATUS and READ_ID are answered in
every state of the target and leave the status word as it is. -/
def execSpiTransactionStart (t : Nat) (opcode addr : Nat) (s : State) : Host.Outcome State Fault Refusal :=
  .next (
    let s0 := rowStart t s
    let x := s0.host.spi
    if !s0.live || x.csLow then s0
    else
      let s1 := setSpi s0 { x with csLow := true, opcode := opcode, addr := addr % 2 ^ 26, out := [] }
      if opcode = 0x05 ∨ opcode = 0x9F then s1
      else if x.wait ≠ [] then spiRefuse s1 aOVERLAP
      else if opcode ≠ 0x02 ∧ opcode ≠ 0x03 ∧ opcode ≠ 0x12 ∧ opcode ≠ 0x13 then spiRefuse s1 aOPCODE
      else if addr / 2 ^ 26 % 64 ≠ 0 then spiRefuse s1 aUNMAPPED
      else if addr % 4 ≠ 0 then spiRefuse s1 aALIGN
      else setSpi s1 { s1.host.spi with refused := false, lastStatus := 0, firstBad := 0, words := 0 })

/-- The row SPI_TRANSACTION_END: SPI_CS_N rises. A word not clocked in full has started no access; accesses under way go on. -/
def execSpiTransactionEnd (t : Nat) (s : State) : Host.Outcome State Fault Refusal :=
  .next (setSpi (rowStart t s) { (rowStart t s).host.spi with csLow := false })

/-- A transaction of an opcode is open and not refused. -/
def spiOpen (s : State) (opcode : Nat) : Bool := s.live && s.host.spi.csLow && s.host.spi.opcode == opcode && !s.host.spi.refused

/-- The row WRITE. -/
def execWrite (t : Nat) (words : List Nat) (s : State) : Host.Outcome State Fault Refusal :=
  .next (if spiOpen (rowStart t s) 0x02 then spiWords (rowStart t s) true false words else rowStart t s)

/-- The row READ: n word slots. -/
def execRead (t : Nat) (n : Nat) (s : State) : Host.Outcome State Fault Refusal :=
  .next (if spiOpen (rowStart t s) 0x03 then spiWords (rowStart t s) false false (List.replicate n 0) else rowStart t s)

/-- The row WRITE_WIN. -/
def execWriteWin (t : Nat) (words : List Nat) (s : State) : Host.Outcome State Fault Refusal :=
  .next (if spiOpen (rowStart t s) 0x12 then spiWords (rowStart t s) true true words else rowStart t s)

/-- The row READ_WIN. -/
def execReadWin (t : Nat) (n : Nat) (s : State) : Host.Outcome State Fault Refusal :=
  .next (if spiOpen (rowStart t s) 0x13 then spiWords (rowStart t s) false true (List.replicate n 0) else rowStart t s)

/-- The target answers by itself. -/
def spiAnswer (s : State) (v : Nat) : State := setSpi s { s.host.spi with out := s.host.spi.out ++ [⟨aOK, v⟩] }

/-- The row READ_STATUS. -/
def execReadStatus (t : Nat) (s : State) : Host.Outcome State Fault Refusal :=
  .next (
    let s0 := rowStart t s
    if s0.live && s0.host.spi.csLow && s0.host.spi.opcode == 0x05 then spiAnswer s0 (spiStatus s0.host.spi) else s0)

/-- The row READ_ID: SYS.CHIP. -/
def execReadId (t : Nat) (s : State) : Host.Outcome State Fault Refusal :=
  .next (
    let s0 := rowStart t s
    if s0.live && s0.host.spi.csLow && s0.host.spi.opcode == 0x9F then spiAnswer s0 (readSys s0 .spi SYS.CHIP).toNat else s0)

/-! ### BAR0 (R56, R57) -/

/-- Replace the queue of BAR0. -/
def setQueue (s : State) (q : List PcieReq) : State := { s with host := { s.host with queue := q } }

/-- The first access of the request at the head is performed, or times out. A command that starts SLEEP at once leaves no queue behind. -/
def pcieStep (s : State) (ok : Bool) : State :=
  match s.host.queue with
  | q :: _ =>
    (match q.left with
     | x :: _ =>
       let y := if ok then perform s .pcie x else timedOut s .pcie x
       match y.2.host.queue with
       | q1 :: r => setQueue y.2 ({ q1 with left := q1.left.drop 1, done := q1.done ++ [y.1] } :: r)
       | [] => y.2
     | [] => s)
  | [] => s

/-- The completion of a read: the first status other than OK, or the data; of BAR2 byte by byte. -/
def cplOf (q : PcieReq) : PcieCpl :=
  let st := firstBad (q.done.map (fun x => x.status))
  ⟨st, if st ≠ 0 then []
       else if q.bytes = 0 then q.done.map (fun x => x.data)
       else (List.range q.bytes).map (fun i => (q.done.headD ⟨0, 0⟩).data / 2 ^ (8 * i) % 256)⟩

/-- Requests at the head whose accesses have all been performed leave the queue, reads with their completion; accesses that need no crossing are
performed. -/
def pcieDrain : Nat → State → State
  | 0, s => s
  | n + 1, s =>
    match s.host.queue with
    | [] => s
    | q :: r =>
      (match q.left with
       | [] =>
         let s1 := setQueue s r
         pcieDrain n (if q.write then s1 else { s1 with host := { s1.host with cpls := s1.host.cpls ++ [cplOf q] } })
       | x :: _ => if atOnce s x then pcieDrain n (pcieStep s true) else s)

/-- Steps that the queue may need. -/
def queueSteps (s : State) : Nat := (s.host.queue.map (fun q => q.left.length + 1)).foldl (· + ·) 0

/-- What a request of n DWs is refused with: LENGTH above 16, CROSSING where one of several DWs has an enable clear (R56, R69). -/
def bar0Bad (n firstBe lastBe : Nat) : Nat :=
  if 16 < n then aLENGTH else if 2 ≤ n ∧ (firstBe % 16 ≠ 15 ∨ lastBe % 16 ≠ 15) then aCROSSING else aOK

/-- A BAR0 request arrives. While 16 writes are queued the device withholds credits, so no write arrives. -/
def bar0Request (s : State) (write : Bool) (addr firstBe lastBe : Nat) (data : List Nat) : State :=
  let n := data.length
  let a := addr % 2 ^ 26 / 4 * 4
  let bad := bar0Bad n firstBe lastBe
  if !s.live || n == 0 || (write && decide (16 ≤ (s.host.queue.filter (fun q => q.write)).length)) then s
  else
    let s1 := if bad = 0 then s else accEnds s .pcie ⟨write, false, a, 0, 0, 4, s.now⟩ ⟨bad, 0⟩
    let acc := (List.range n).map (fun i =>
      (⟨write, false, a + 4 * i, if n = 1 then firstBe % 16 else 15, data.getD i 0 % 2 ^ 32, 4, s.now⟩ : Access))
    let q : PcieReq := if bad = 0 then ⟨write, 0, acc, []⟩ else ⟨write, 0, [], [⟨bad, 0⟩]⟩
    let s2 := setQueue s1 (s1.host.queue ++ [q])
    pcieDrain (queueSteps s2) s2

/-- The row BAR0_READ. -/
def execBar0Read (t : Nat) (addr n firstBe lastBe : Nat) (s : State) : Host.Outcome State Fault Refusal :=
  .next (bar0Request (rowStart t s) false addr firstBe lastBe (List.replicate n 0))

/-- The row BAR0_WRITE. -/
def execBar0Write (t : Nat) (addr firstBe lastBe : Nat) (words : List Nat) (s : State) : Host.Outcome State Fault Refusal :=
  .next (bar0Request (rowStart t s) true addr firstBe lastBe words)

/-! ### BAR2 (R54, R55) -/

/-- A BAR2 request: a write of `bytes`, or a read of n bytes. It is one access, which crosses into the stream engine or the tile that holds the
memory (R439), behind the requests that the path has sent before it (R58; log entry 79). -/
def bar2 (s : State) (write : Bool) (addr n : Nat) (bytes : List Byte) : State :=
  let len := if write then bytes.length else n
  let x : Access := ⟨write, true, addr % 2 ^ 26, 2 ^ len - 1, if write then ofLe bytes else 0, len, s.now⟩
  let s1 := setQueue s (s.host.queue ++ [⟨write, if write then 0 else len, [x], []⟩])
  pcieDrain (queueSteps s1) s1

/-- The row BAR2_ACCESS. The completion of a read lists bytes. -/
def execBar2Access (t : Nat) (wr : Bool) (addr n : Nat) (bytes : List Byte) (s : State) : Host.Outcome State Fault Refusal :=
  .next (
    let s0 := rowStart t s
    if !s0.live || (if wr then bytes.length == 0 else n == 0) then s0 else bar2 s0 wr addr n bytes)

/-! ### Crossings (R64, R439) -/

/-- The first access of a path that waits for another island completes, or has not been accepted within 20 µs. -/
def accessDone (s : State) (p : Path) (ok : Bool) : State :=
  match p with
  | .spi => (let s1 := spiStep s ok; spiDrain s1.host.spi.wait.length s1)
  | .pcie => (let s1 := pcieStep s ok; pcieDrain (queueSteps s1) s1)

/-- The first access of each path that waits for a crossing. -/
def spiHead (s : State) : Option Access := s.host.spi.wait.head?
def pcieHead (s : State) : Option Access := s.host.queue.head?.bind (fun q => q.left.head?)

/-- The destination of an access: the block of a register; beyond the blocks, the media store and each tile. -/
def destOf (x : Access) : Nat := if x.win then (if x.addr < 0x3000000 then 19 else 20 + winTile x.addr) else blkOf x.addr

/-- The accesses of both paths reach one destination in one register-fabric cycle: they were started at one instant (R58). -/
def together (s : State) : Bool :=
  match spiHead s, pcieHead s with
  | some x, some y => x.since == y.since && destOf x == destOf y
  | _, _ => false

/-- The row ACCESS_COMPLETE. Of accesses of both paths that reach one destination in one cycle the SPI access is performed first (R58). -/
def execAccessComplete (t : Nat) (path : Path) (s : State) : Host.Outcome State Fault Refusal :=
  .next (
    let s0 := rowStart t s
    if !s0.live then s0
    else if path = .pcie ∧ together s0 = true then accessDone (accessDone s0 .spi true) .pcie true
    else accessDone s0 path true)

/-- The row ACCESS_TIMEOUT. -/
def execAccessTimeout (t : Nat) (path : Path) (s : State) : Host.Outcome State Fault Refusal :=
  .next (if (rowStart t s).live then accessDone (rowStart t s) path false else rowStart t s)

/-! ### Single accesses as rows -/

/-- A register access by a path, performed in the owning island. -/
def oneAccess (t : Nat) (p : Path) (x : Access) (s : State) : State :=
  if (rowStart t s).live then (perform (rowStart t s) p x).2 else rowStart t s

/-- The row REGISTER_WRITE: a write in the normal view. -/
def execRegisterWrite (t : Nat) (path : Path) (addr be value : Nat) (s : State) : Host.Outcome State Fault Refusal :=
  .next (oneAccess t path ⟨true, false, addr, be, value, 4, t⟩ s)

/-- The row ALIAS_WRITE: a write through the SET, CLR or TGL view. -/
def execAliasWrite (t : Nat) (path : Path) (addr be value : Nat) (s : State) : Host.Outcome State Fault Refusal :=
  .next (oneAccess t path ⟨true, false, addr, be, value, 4, t⟩ s)

/-- The row UNLOCK_KEY_WRITE. -/
def execUnlockKeyWrite (t : Nat) (path : Path) (value : Nat) (s : State) : Host.Outcome State Fault Refusal :=
  .next (oneAccess t path ⟨true, false, SYS.UNLOCK, 15, value, 4, t⟩ s)

/-- The row UNLOCK_LAPSE: 100 ms after the key write. -/
def execUnlockLapse (t : Nat) (path : Path) (s : State) : Host.Outcome State Fault Refusal :=
  .next (if armed (s.at t) path then s.at t else disarm (s.at t) path)

/-- The row ATTN_SUMMARY_READ. -/
def execAttnSummaryRead (t : Nat) (path : Path) (s : State) : Host.Outcome State Fault Refusal :=
  .next (oneAccess t path ⟨false, false, SYS.ATTN_SUMMARY, 15, 0, 4, t⟩ s)

/-- The row CMD_DONE_READ. -/
def execCmdDoneRead (t : Nat) (path : Path) (s : State) : Host.Outcome State Fault Refusal :=
  .next (oneAccess t path ⟨false, false, SYS.CMD_DONE, 15, 0, 4, t⟩ s)

/-- The row TILE_LOAD_READ. -/
def execTileLoadRead (t : Nat) (path : Path) (tile : Nat) (s : State) : Host.Outcome State Fault Refusal :=
  .next (if tile < 32 then oneAccess t path ⟨false, false, DSPC.TILE_LOAD tile, 15, 0, 4, t⟩ s else s.at t)

/-- The row PARITY_SCAN: the stored bits that have flipped since the last scan, and the scan (R72). It comes at least every 10 ms; a mismatch of a
register that its block uses before is found by a PARITY_SCAN at that instant (log entry 77). -/
def execParityScan (t : Nat) (flips : List (Nat × Nat)) (s : State) : Host.Outcome State Fault Refusal :=
  .next (
    let s0 := rowStart t s
    if s0.domOn 1 then sequence (parityScan (flips.foldl flipOne s0)) else s0)

/-! ### Rows that are one register write -/

/-- A full-width write of a register by a path, with the operands of its row in range. -/
def rowWrite (t : Nat) (p : Path) (ok : Bool) (a : Nat) (v : Word) (s : State) : Host.Outcome State Fault Refusal :=
  .next (if ok then oneAccess t p ⟨true, false, a, 15, v.toNat, 4, t⟩ s else s.at t)

/-- The row RATE_CHANGED. -/
def execRateChanged (t : Nat) (path : Path) (port value : Nat) (s : State) : Host.Outcome State Fault Refusal :=
  rowWrite t path (decide (port < 3)) (MAC.MAC_CTL port) (BitVec.ofNat 32 value) s

/-- MDIO_CMD with GO and a frame type. -/
def mdioWord (value : Nat) (cl45 : Option Nat) (op : Nat) : Word :=
  let w := MAC.MDIO_CMD_OP.put (MAC.MDIO_CMD_GO.put (BitVec.ofNat 32 value) 1) op
  match cl45 with | some c => MAC.MDIO_CMD_CL45.put w c | none => w

/-- The rows MDIO_WRITE, MDIO_READ, MDIO_ADDRESS and MDIO_READ_INCREMENT. -/
def execMdioWrite (t : Nat) (path : Path) (value : Nat) (s : State) : Host.Outcome State Fault Refusal :=
  rowWrite t path true MAC.MDIO_CMD (mdioWord value none 1) s
def execMdioRead (t : Nat) (path : Path) (value : Nat) (s : State) : Host.Outcome State Fault Refusal :=
  rowWrite t path true MAC.MDIO_CMD (mdioWord value none (2 + MAC.MDIO_CMD_CL45.get (BitVec.ofNat 32 value))) s
def execMdioAddress (t : Nat) (path : Path) (value : Nat) (s : State) : Host.Outcome State Fault Refusal :=
  rowWrite t path true MAC.MDIO_CMD (mdioWord value (some 1) 0) s
def execMdioReadIncrement (t : Nat) (path : Path) (value : Nat) (s : State) : Host.Outcome State Fault Refusal :=
  rowWrite t path true MAC.MDIO_CMD (mdioWord value (some 1) 2) s

/-- The row KILL_CLEAR: KILLED bits of word k of the transmit or receive table. -/
def execKillClear (t : Nat) (path : Path) (rx : Bool) (k bits : Nat) (s : State) : Host.Outcome State Fault Refusal :=
  rowWrite t path (decide (k < 32)) (if rx then SRX.KILLED k else STX.KILLED k) (BitVec.ofNat 32 bits) s

/-- The row PTP_RESTART: PTP_CTL (reg 0) or PTP_INTV (reg 1) of an instance. -/
def execPtpRestart (t : Nat) (path : Path) (inst reg value : Nat) (s : State) : Host.Outcome State Fault Refusal :=
  rowWrite t path (decide (inst < 6) && decide (reg < 2)) (if reg = 0 then TIME.PTP_CTL inst else TIME.PTP_INTV inst) (BitVec.ofNat 32 value) s

/-- The row SEC_LOAD_ARM. -/
def execSecLoadArm (t : Nat) (path : Path) (value : Nat) (s : State) : Host.Outcome State Fault Refusal :=
  rowWrite t path true TIME.SEC_LOAD_HI (TIME.SEC_LOAD_HI_GO.put (BitVec.ofNat 32 value) 1) s

/-- The row REF_CFG_WRITE. -/
def execRefCfgWrite (t : Nat) (path : Path) (slot value : Nat) (s : State) : Host.Outcome State Fault Refusal :=
  rowWrite t path (decide (slot < 16)) (TIME.REF_CFG slot) (BitVec.ofNat 32 value) s

/-- The row FPG_ALIGN_REQUEST. -/
def execFpgAlignRequest (t : Nat) (path : Path) (k value : Nat) (s : State) : Host.Outcome State Fault Refusal :=
  rowWrite t path (decide (k < 4)) (TIME.FPG_CTL k) (TIME.FPG_CTL_ALIGN.put (BitVec.ofNat 32 value) 1) s

/-- MSY_CTL of synthesiser m, 0 to 3; that of synthesiser 0 is read only (R225). -/
def msyCtlAddr (m : Nat) : Nat := 0x0200200 + 16 * m

/-- The row MSY_UPDATE. -/
def execMsyUpdate (t : Nat) (path : Path) (m value : Nat) (s : State) : Host.Outcome State Fault Refusal :=
  rowWrite t path (decide (m < 4)) (msyCtlAddr m) (CLK.MSY_CTL_UPD.put (BitVec.ofNat 32 value) 1) s

/-- The row MSY_ENABLE_WRITE. -/
def execMsyEnableWrite (t : Nat) (path : Path) (m value : Nat) (s : State) : Host.Outcome State Fault Refusal :=
  rowWrite t path (decide (m < 4)) (msyCtlAddr m) (BitVec.ofNat 32 value) s

/-- The row SSY_CTL_WRITE. -/
def execSsyCtlWrite (t : Nat) (path : Path) (value : Nat) (s : State) : Host.Outcome State Fault Refusal :=
  rowWrite t path true CLK.SSY_CTL (BitVec.ofNat 32 value) s

/-- The row CLKOUT_CONFIG_WRITE: CLKOUT_CTL (reg 0), CLKOUT_DIV (reg 1) or CLKOUT_DLY (reg 2) of an output. -/
def execClkoutConfigWrite (t : Nat) (path : Path) (n reg value : Nat) (s : State) : Host.Outcome State Fault Refusal :=
  rowWrite t path (decide (n < 16) && decide (reg < 3))
    (if reg = 0 then CLK.CLKOUT_CTL n else if reg = 1 then CLK.CLKOUT_DIV n else CLK.CLKOUT_DLY n) (BitVec.ofNat 32 value) s

/-- The row SYNC_ARM. -/
def execSyncArm (t : Nat) (path : Path) (value : Nat) (s : State) : Host.Outcome State Fault Refusal :=
  rowWrite t path true CLK.SYNC_CTL (CLK.SYNC_CTL_ARM.put (BitVec.ofNat 32 value) 1) s

/-- The row SIDE_CONFIG_WRITE: word reg, 0 to 3, of a side's configuration. -/
def execSideConfigWrite (t : Nat) (path : Path) (side reg value : Nat) (s : State) : Host.Outcome State Fault Refusal :=
  rowWrite t path (decide (side < 88) && decide (reg < 4)) (APORT.SIDE_CTL side + 4 * reg) (BitVec.ofNat 32 value) s

/-- The row MASK_WRITE. -/
def execMaskWrite (t : Nat) (path : Path) (side value : Nat) (s : State) : Host.Outcome State Fault Refusal :=
  rowWrite t path (decide (side < 88)) (APORT.MASK side) (BitVec.ofNat 32 value) s

/-- The row OUT_GAIN_WRITE. -/
def execOutGainWrite (t : Nat) (path : Path) (x value : Nat) (s : State) : Host.Outcome State Fault Refusal :=
  rowWrite t path (decide (x < 1296)) (APORT.OUT_GAIN x) (BitVec.ofNat 32 value) s

/-- The row CW_APPLY. -/
def execCwApply (t : Nat) (path : Path) (value : Nat) (s : State) : Host.Outcome State Fault Refusal :=
  rowWrite t path true DSPC.CW_APPLY (DSPC.CW_APPLY_GO.put (BitVec.ofNat 32 value) 1) s

/-- The row RING_TAIL_WRITE. -/
def execRingTailWrite (t : Nat) (path : Path) (ring value : Nat) (s : State) : Host.Outcome State Fault Refusal :=
  rowWrite t path (decide (ring < 256)) (DMA.RING_TAIL ring) (BitVec.ofNat 32 value) s

/-- The rows RING_ENABLE and RING_DISABLE. -/
def execRingEnable (t : Nat) (path : Path) (ring value : Nat) (s : State) : Host.Outcome State Fault Refusal :=
  rowWrite t path (decide (ring < 256)) (DMA.RING_CTL ring) (DMA.RING_CTL_EN.put (BitVec.ofNat 32 value) 1) s
def execRingDisable (t : Nat) (path : Path) (ring value : Nat) (s : State) : Host.Outcome State Fault Refusal :=
  rowWrite t path (decide (ring < 256)) (DMA.RING_CTL ring) (DMA.RING_CTL_EN.put (BitVec.ofNat 32 value) 0) s

/-- The row MSIX_UNMASK: the vector control word with its mask bit at 0. -/
def execMsixUnmask (t : Nat) (path : Path) (vector value : Nat) (s : State) : Host.Outcome State Fault Refusal :=
  rowWrite t path (decide (vector < 64)) (0x0C0200C + 16 * vector) (BitVec.ofNat 32 value &&& ~~~ (1 : Word)) s

/-- The row FORM. -/
def execForm (t : Nat) (path : Path) (value : Nat) (s : State) : Host.Outcome State Fault Refusal :=
  rowWrite t path true FAB.CTL (FAB.CTL_FORM.put (BitVec.ofNat 32 value) 1) s

/-- The row FABRIC_FLOW_WRITE: word 0 of a fabric flow entry. -/
def execFabricFlowWrite (t : Nat) (path : Path) (flow value : Nat) (s : State) : Host.Outcome State Fault Refusal :=
  rowWrite t path (decide (flow < 256)) (FAB.FLOW_W0 flow) (BitVec.ofNat 32 value) s

/-- The rows XFER_READ and XFER_PROGRAM. -/
def execXferRead (t : Nat) (path : Path) (value : Nat) (s : State) : Host.Outcome State Fault Refusal :=
  rowWrite t path true STORE.XFER_CTL (STORE.XFER_CTL_OP.put (STORE.XFER_CTL_GO.put (BitVec.ofNat 32 value) 1) 0) s
def execXferProgram (t : Nat) (path : Path) (value : Nat) (s : State) : Host.Outcome State Fault Refusal :=
  rowWrite t path true STORE.XFER_CTL (STORE.XFER_CTL_OP.put (STORE.XFER_CTL_GO.put (BitVec.ofNat 32 value) 1) 1) s

/-- The row PARTITION_ERASED: a keyed write with ERASE. -/
def execPartitionErased (t : Nat) (path : Path) (value : Nat) (s : State) : Host.Outcome State Fault Refusal :=
  rowWrite t path true STORE.KEYED (STORE.KEYED_FORMAT.put (STORE.KEYED_ERASE.put (BitVec.ofNat 32 value) 1) 0) s

/-- The row NAND_FORMATTED: a keyed write with FORMAT. -/
def execNandFormatted (t : Nat) (path : Path) (value : Nat) (s : State) : Host.Outcome State Fault Refusal :=
  rowWrite t path true STORE.KEYED (STORE.KEYED_FORMAT.put (BitVec.ofNat 32 value) 1) s

/-- The row DOMAIN_REQUEST_WRITE. -/
def execDomainRequestWrite (t : Nat) (path : Path) (value : Nat) (s : State) : Host.Outcome State Fault Refusal :=
  rowWrite t path true PWR.DOM_REQ (BitVec.ofNat 32 value) s

/-- The row DOMAIN_FORCE_WRITE. -/
def execDomainForceWrite (t : Nat) (path : Path) (value : Nat) (s : State) : Host.Outcome State Fault Refusal :=
  rowWrite t path true PWR.DOM_FORCE (BitVec.ofNat 32 value) s

/-- The row STATE_RESET. -/
def execStateReset (t : Nat) (path : Path) (value : Nat) (s : State) : Host.Outcome State Fault Refusal :=
  rowWrite t path true TWIN.RESYNC_CTL (TWIN.RESYNC_CTL_STATE_RESET.put (BitVec.ofNat 32 value) 1) s

/-- The row TWIN_FORCE_WRITE. -/
def execTwinForceWrite (t : Nat) (path : Path) (value : Nat) (s : State) : Host.Outcome State Fault Refusal :=
  rowWrite t path true TWIN.TWIN_FORCE (BitVec.ofNat 32 value) s

end Sys2Proof.Machine
end

