-- ==== Sys2Proof/Machine/Mirror.lean ====
section
/-!
DEFINITION. The mirror stream as the standby takes it (R343, R345, R347, R348), and the installation of a resynchronisation snapshot (R360).
-/
namespace Sys2Proof.Machine

/-- A forwarded write, performed as a software write of the mirrored bits of its register (R345, R66). -/
def mirWrite (s : State) (a v : Nat) : State :=
  let mm := mirrorMask a
  let m := mm &&& ~~~ w1cMask a
  let c := mm &&& w1cMask a &&& BitVec.ofNat 32 v
  if isActive a || !(s.present (blkOf a) && s.domOn (domainOf (blkOf a))) || (m == 0 && c == 0) then s
  else parityClear (softWrite true s a 15 m (BitVec.ofNat 32 v) c)

/-- The stream is broken: a STANDBY enters ISOLATED, and a unit that watches the stream after a resynchronisation resynchronises again (R348). -/
def mirBroken (s : State) : State :=
  if s.twin.role = .standby then setRole s .isolated 8
  else { s with twin := { s.twin with resync := .idle, resyncing := false, held := [] } }

/-- One item is performed. A mirrored COMMIT whose epoch has passed swaps the banks now (R360). -/
def mirItem (s : State) (i : MirrorItem) : State :=
  match i with
  | .write a v => mirWrite s a v
  | .cmd m =>
    if m.op = 0x03 ∧ m.epoch ≤ s.time.epoch then (runMirrored s m false).1
    else { s with twin := { s.twin with mirCmds := s.twin.mirCmds ++ [(m, s.now)] } }
  | .banks _ crc => if crc = banksCrc s then s else mirBroken s
  | .stateReset e =>
    { s with twin := { s.twin with stateAt := some e, resync := if s.twin.resync = .failed then .idle else s.twin.resync } }

/-- An item with its sequence number, when the unit performs the stream. -/
def mirTake (s : State) (x : Nat × MirrorItem) : State :=
  let follows := s.twin.role == .standby || (match s.twin.resync with | .watching _ => true | _ => false)
  if !follows then s
  else if (match s.twin.seqIn with | some n => x.1 == n + 1 | none => true) = true then mirItem { s with twin := { s.twin with seqIn := some x.1 } } x.2
  else mirBroken s

/-- The row MIRROR_ITEM_RECEIVED. While a snapshot is on its way items are queued; an ISOLATED unit that is not resynchronising discards them, but
for a STATE_RESET, which restarts every node of both units (R361). -/
def execMirrorItemReceived (t : Nat) (seq : Nat) (item : MirrorItem) (s : State) : Host.Outcome State Fault Refusal :=
  .next (
    let s0 := rowStart t s
    if !(twinned s0 && s0.blkOn bTWIN && s0.twin.lanes != 0) then s0
    else if s0.twin.resyncing then { s0 with twin := { s0.twin with held := s0.twin.held ++ [(seq, item)] } }
    else
      let follows := s0.twin.role == .standby || (match s0.twin.resync with | .watching _ => true | _ => false)
      if follows then sequence (mirTake s0 (seq, item))
      else match item with
        | .stateReset e => mirItem s0 (.stateReset e)
        | _ => s0)

/-- One word of a snapshot stands in its register. -/
def snapWord (s : State) (a v : Nat) : State :=
  let old := s.rd a
  let m := snapMask a
  let new := (old &&& ~~~ m) ||| (BitVec.ofNat 32 v &&& m)
  let s1 := dropCorrupt s none (phys s.bankSel a)
  if swapBank a ≠ a then s1.wr a new
  else if new = old ∨ s.domOn (domainOf (blkOf a)) = false then s1
  else if a = MAC.MAC_CTL 0 ∨ a = MAC.MAC_CTL 1 then macCtlWrite true s1 (blkOf a - 4) new
  else regChanged (s1.wr a new) a old

/-- The snapshot is installed into both banks and the registers: a word it does not list is at its reset value. -/
def snapInstall (s : State) (x : Snapshot) : State :=
  let l := sortNat ((s.regs.map (fun e => phys s.bankSel e.1) ++ x.regs.map (fun e => e.1)).filter (fun a => snapMask a != 0))
  l.foldl (fun st a => snapWord st a (match x.regs.find? (fun e => e.1 == a) with | some e => e.2 | none => (resetWord a).toNat)) s

/-- The row RESYNC_INSTALL_DONE: the snapshot stands, the queued items are performed, OFF is adopted as a step at once, and RESYNCING clears. -/
def execResyncInstallDone (t : Nat) (snap : Snapshot) (s : State) : Host.Outcome State Fault Refusal :=
  .next (
    let s0 := rowStart t s
    if !(twinned s0 && s0.blkOn bTWIN && s0.twin.role == .isolated && s0.twin.resyncing) then s0
    else
      let held := s0.twin.held.filter (fun e => decide (snap.seq < e.1))
      let s1 := snapInstall s0 snap
      let s2 := { s1 with twin := { s1.twin with seqIn := some snap.seq, held := [], resync := .watching s1.now, resyncing := false, cleanSeen := false } }
      let s3 := held.foldl mirTake s2
      let d := snap.off - s3.time.off
      sequence { s3 with time := { s3.time with named := snap.named
                                                steps := if d = 0 then s3.time.steps else s3.time.steps ++ [d] } })

end Sys2Proof.Machine
end

