-- ==== Sys2Proof/Machine/Dispatch.lean ====
section
/-! DEFINITION. The dispatch of commands to their meanings: one arm for each row of the opcode table. -/
namespace Sys2Proof.Machine

/-- What a command does to everything but the queue. -/
def exec (i : Instr) (s : State) : Host.Outcome State Fault Refusal :=
  match i with
  | .powerUp t fuses iov pwrd => Sys2Proof.Machine.execPowerUp t fuses iov pwrd s
  | .resetNFall t lowNs => Sys2Proof.Machine.execResetNFall t lowNs s
  | .resetNRise t straps => Sys2Proof.Machine.execResetNRise t straps s
  | .brownoutAssert t => Sys2Proof.Machine.execBrownoutAssert t s
  | .brownoutRelease t straps => Sys2Proof.Machine.execBrownoutRelease t straps s
  | .automaticBoot t => Sys2Proof.Machine.execAutomaticBoot t s
  | .load t src tag nodefer arg0 arg1 => Sys2Proof.Machine.execLoad t src tag nodefer arg0 arg1 s
  | .apply t src tag nodefer arg0 arg1 => Sys2Proof.Machine.execApply t src tag nodefer arg0 arg1 s
  | .commit t src tag nodefer arg0 arg1 => Sys2Proof.Machine.execCommit t src tag nodefer arg0 arg1 s
  | .abort t src tag nodefer arg0 arg1 => Sys2Proof.Machine.execAbort t src tag nodefer arg0 arg1 s
  | .start t src tag nodefer arg0 arg1 => Sys2Proof.Machine.execStart t src tag nodefer arg0 arg1 s
  | .stop t src tag nodefer arg0 arg1 => Sys2Proof.Machine.execStop t src tag nodefer arg0 arg1 s
  | .mute t src tag nodefer arg0 arg1 => Sys2Proof.Machine.execMute t src tag nodefer arg0 arg1 s
  | .unmute t src tag nodefer arg0 arg1 => Sys2Proof.Machine.execUnmute t src tag nodefer arg0 arg1 s
  | .selectRef t src tag nodefer arg0 arg1 => Sys2Proof.Machine.execSelectRef t src tag nodefer arg0 arg1 s
  | .stepPhase t src tag nodefer arg0 arg1 => Sys2Proof.Machine.execStepPhase t src tag nodefer arg0 arg1 s
  | .takeover t src tag nodefer arg0 arg1 => Sys2Proof.Machine.execTakeover t src tag nodefer arg0 arg1 s
  | .yield t src tag nodefer arg0 arg1 => Sys2Proof.Machine.execYield t src tag nodefer arg0 arg1 s
  | .sleep t src tag nodefer arg0 arg1 => Sys2Proof.Machine.execSleep t src tag nodefer arg0 arg1 s
  | .wake t src tag nodefer arg0 arg1 => Sys2Proof.Machine.execWake t src tag nodefer arg0 arg1 s
  | .snapshot t src tag nodefer arg0 arg1 => Sys2Proof.Machine.execSnapshot t src tag nodefer arg0 arg1 s
  | .logFreeze t src tag nodefer arg0 arg1 => Sys2Proof.Machine.execLogFreeze t src tag nodefer arg0 arg1 s
  | .logThaw t src tag nodefer arg0 arg1 => Sys2Proof.Machine.execLogThaw t src tag nodefer arg0 arg1 s
  | .scrub t src tag nodefer arg0 arg1 => Sys2Proof.Machine.execScrub t src tag nodefer arg0 arg1 s
  | .resetBlock t src tag nodefer arg0 arg1 => Sys2Proof.Machine.execResetBlock t src tag nodefer arg0 arg1 s
  | .commitEpoch t => Sys2Proof.Machine.execCommitEpoch t s
  | .bankCopyDone t => Sys2Proof.Machine.execBankCopyDone t s
  | .journalImageStored t ok => Sys2Proof.Machine.execJournalImageStored t ok s
  | .startUnlockedTimeout t => Sys2Proof.Machine.execStartUnlockedTimeout t s
  | .lockstepMismatch t => Sys2Proof.Machine.execLockstepMismatch t s
  | .controlCoreRestartDone t => Sys2Proof.Machine.execControlCoreRestartDone t s
  | .lockstepCauseExpiry t => Sys2Proof.Machine.execLockstepCauseExpiry t s
  | .wakeInLevel t level => Sys2Proof.Machine.execWakeInLevel t level s
  | .temperatureWake t tj => Sys2Proof.Machine.execTemperatureWake t tj s
  | .linkEnergyWake t => Sys2Proof.Machine.execLinkEnergyWake t s
  | .wakePatternMatch t frame => Sys2Proof.Machine.execWakePatternMatch t frame s
  | .wakeDomainsUp t => Sys2Proof.Machine.execWakeDomainsUp t s
  | .spiTransactionStart t opcode addr => Sys2Proof.Machine.execSpiTransactionStart t opcode addr s
  | .spiTransactionEnd t => Sys2Proof.Machine.execSpiTransactionEnd t s
  | .write t words => Sys2Proof.Machine.execWrite t words s
  | .read t n => Sys2Proof.Machine.execRead t n s
  | .readStatus t => Sys2Proof.Machine.execReadStatus t s
  | .readId t => Sys2Proof.Machine.execReadId t s
  | .writeWin t words => Sys2Proof.Machine.execWriteWin t words s
  | .readWin t n => Sys2Proof.Machine.execReadWin t n s
  | .bar0Read t addr n firstBe lastBe => Sys2Proof.Machine.execBar0Read t addr n firstBe lastBe s
  | .bar0Write t addr firstBe lastBe words => Sys2Proof.Machine.execBar0Write t addr firstBe lastBe words s
  | .bar2Access t wr addr n bytes => Sys2Proof.Machine.execBar2Access t wr addr n bytes s
  | .registerWrite t path addr be value => Sys2Proof.Machine.execRegisterWrite t path addr be value s
  | .aliasWrite t path addr be value => Sys2Proof.Machine.execAliasWrite t path addr be value s
  | .accessComplete t path => Sys2Proof.Machine.execAccessComplete t path s
  | .accessTimeout t path => Sys2Proof.Machine.execAccessTimeout t path s
  | .unlockKeyWrite t path value => Sys2Proof.Machine.execUnlockKeyWrite t path value s
  | .unlockLapse t path => Sys2Proof.Machine.execUnlockLapse t path s
  | .attnSummaryRead t path => Sys2Proof.Machine.execAttnSummaryRead t path s
  | .cmdDoneRead t path => Sys2Proof.Machine.execCmdDoneRead t path s
  | .mailboxLastWordRead t path blk => Sys2Proof.Machine.execMailboxLastWordRead t path blk s
  | .mailboxTimeout t path blk => Sys2Proof.Machine.execMailboxTimeout t path blk s
  | .parityScan t flips => Sys2Proof.Machine.execParityScan t flips s
  | .macFrameReceived t port pcsErr frame => Sys2Proof.Machine.execMacFrameReceived t port pcsErr frame s
  | .pauseExpiry t port queue => Sys2Proof.Machine.execPauseExpiry t port queue s
  | .linkUp t port => Sys2Proof.Machine.execLinkUp t port s
  | .linkDown t port pcs fec an speedFault => Sys2Proof.Machine.execLinkDown t port pcs fec an speedFault s
  | .rateChanged t path port value => Sys2Proof.Machine.execRateChanged t path port value s
  | .gateIntervalBoundary t port => Sys2Proof.Machine.execGateIntervalBoundary t port s
  | .txFrameStart t port staged => Sys2Proof.Machine.execTxFrameStart t port staged s
  | .streamLaunch t port entry => Sys2Proof.Machine.execStreamLaunch t port entry s
  | .txUnderrun t port sent => Sys2Proof.Machine.execTxUnderrun t port sent s
  | .timestampFifoPop t path port tag => Sys2Proof.Machine.execTimestampFifoPop t path port tag s
  | .macCounterRead t path port sel tag => Sys2Proof.Machine.execMacCounterRead t path port sel tag s
  | .mdioWrite t path value => Sys2Proof.Machine.execMdioWrite t path value s
  | .mdioRead t path value => Sys2Proof.Machine.execMdioRead t path value s
  | .mdioAddress t path value => Sys2Proof.Machine.execMdioAddress t path value s
  | .mdioReadIncrement t path value => Sys2Proof.Machine.execMdioReadIncrement t path value s
  | .mdioFrameEnd t rdata => Sys2Proof.Machine.execMdioFrameEnd t rdata s
  | .streamPacketBuild t entry => Sys2Proof.Machine.execStreamPacketBuild t entry s
  | .killClear t path rx k bits => Sys2Proof.Machine.execKillClear t path rx k bits s
  | .rxSampleReadout t entry => Sys2Proof.Machine.execRxSampleReadout t entry s
  | .rxLockTimeout t entry => Sys2Proof.Machine.execRxLockTimeout t entry s
  | .pathLiveTimeout t entry => Sys2Proof.Machine.execPathLiveTimeout t entry s
  | .policerToken t kind index port => Sys2Proof.Machine.execPolicerToken t kind index port s
  | .stxCounterRead t path sel tag => Sys2Proof.Machine.execStxCounterRead t path sel tag s
  | .srxCounterRead t path sel tag => Sys2Proof.Machine.execSrxCounterRead t path sel tag s
  | .bellwetherEvaluation t lanes phases => Sys2Proof.Machine.execBellwetherEvaluation t lanes phases s
  | .ffoUpdate t ffos => Sys2Proof.Machine.execFfoUpdate t ffos s
  | .waitToRestoreExpiry t slot => Sys2Proof.Machine.execWaitToRestoreExpiry t slot s
  | .refLossTimeout t slot => Sys2Proof.Machine.execRefLossTimeout t slot s
  | .refPinEdge t pin => Sys2Proof.Machine.execRefPinEdge t pin s
  | .ptpMessageReceived t inst len lane src residence msg => Sys2Proof.Machine.execPtpMessageReceived t inst len lane src residence msg s
  | .ptpMessageInterval t inst kind => Sys2Proof.Machine.execPtpMessageInterval t inst kind s
  | .ptpAnnounceTimeout t inst => Sys2Proof.Machine.execPtpAnnounceTimeout t inst s
  | .ptpRestart t path inst reg value => Sys2Proof.Machine.execPtpRestart t path inst reg value s
  | .pullComplete t => Sys2Proof.Machine.execPullComplete t s
  | .phaseStepAtOnce t => Sys2Proof.Machine.execPhaseStepAtOnce t s
  | .secLoadArm t path value => Sys2Proof.Machine.execSecLoadArm t path value s
  | .secLoadApply t => Sys2Proof.Machine.execSecLoadApply t s
  | .refCfgWrite t path slot value => Sys2Proof.Machine.execRefCfgWrite t path slot value s
  | .fpgAlignRequest t path k value => Sys2Proof.Machine.execFpgAlignRequest t path k value s
  | .framePulse t k => Sys2Proof.Machine.execFramePulse t k s
  | .timeMailboxRead t path sel tag => Sys2Proof.Machine.execTimeMailboxRead t path sel tag s
  | .ptpDatasetRead t path sel tag => Sys2Proof.Machine.execPtpDatasetRead t path sel tag s
  | .frequencyCorrectionUpdate t target => Sys2Proof.Machine.execFrequencyCorrectionUpdate t target s
  | .msyUpdate t path m value => Sys2Proof.Machine.execMsyUpdate t path m value s
  | .msyEnableWrite t path m value => Sys2Proof.Machine.execMsyEnableWrite t path m value s
  | .ditherSeedLoad t => Sys2Proof.Machine.execDitherSeedLoad t s
  | .synthLock t synth cmp => Sys2Proof.Machine.execSynthLock t synth cmp s
  | .synthLossOfLock t synth cmp => Sys2Proof.Machine.execSynthLossOfLock t synth cmp s
  | .ssyCtlWrite t path value => Sys2Proof.Machine.execSsyCtlWrite t path value s
  | .spreadPeriodStart t => Sys2Proof.Machine.execSpreadPeriodStart t s
  | .clkoutConfigWrite t path n reg value => Sys2Proof.Machine.execClkoutConfigWrite t path n reg value s
  | .syncArm t path value => Sys2Proof.Machine.execSyncArm t path value s
  | .syncInEdge t => Sys2Proof.Machine.execSyncInEdge t s
  | .sideConfigWrite t path side reg value => Sys2Proof.Machine.execSideConfigWrite t path side reg value s
  | .maskWrite t path side value => Sys2Proof.Machine.execMaskWrite t path side value s
  | .portBlockBoundary t side frames => Sys2Proof.Machine.execPortBlockBoundary t side frames s
  | .portFault t side kind => Sys2Proof.Machine.execPortFault t side kind s
  | .portAnchor t side run rate => Sys2Proof.Machine.execPortAnchor t side run rate s
  | .aesLock t p rate => Sys2Proof.Machine.execAesLock t p rate s
  | .aesCsBlockEnd t p cs => Sys2Proof.Machine.execAesCsBlockEnd t p cs s
  | .madiLock t p format => Sys2Proof.Machine.execMadiLock t p format s
  | .outGainWrite t path x value => Sys2Proof.Machine.execOutGainWrite t path x value s
  | .zeroCrossingApply t x smp => Sys2Proof.Machine.execZeroCrossingApply t x smp s
  | .zeroCrossingTimeout t x => Sys2Proof.Machine.execZeroCrossingTimeout t x s
  | .nodeRelease t node => Sys2Proof.Machine.execNodeRelease t node s
  | .bundleIssue t tile corr uncorr => Sys2Proof.Machine.execBundleIssue t tile corr uncorr s
  | .programInterrupt t tile => Sys2Proof.Machine.execProgramInterrupt t tile s
  | .tileTimerExpiry t tile => Sys2Proof.Machine.execTileTimerExpiry t tile s
  | .transferComplete t tile node ch => Sys2Proof.Machine.execTransferComplete t tile node ch s
  | .deadlineMiss t tile => Sys2Proof.Machine.execDeadlineMiss t tile s
  | .preemptionDeferExpiry t tile => Sys2Proof.Machine.execPreemptionDeferExpiry t tile s
  | .tileReplaced t => Sys2Proof.Machine.execTileReplaced t s
  | .cwApply t path value => Sys2Proof.Machine.execCwApply t path value s
  | .tileLoadRead t path tile => Sys2Proof.Machine.execTileLoadRead t path tile s
  | .ringTailWrite t path ring value => Sys2Proof.Machine.execRingTailWrite t path ring value s
  | .ringEnable t path ring value => Sys2Proof.Machine.execRingEnable t path ring value s
  | .ringDisable t path ring value => Sys2Proof.Machine.execRingDisable t path ring value s
  | .extractionBlock t ring desc => Sys2Proof.Machine.execExtractionBlock t ring desc s
  | .injectionBlockCheck t ring => Sys2Proof.Machine.execInjectionBlockCheck t ring s
  | .injectionDeadline t ring => Sys2Proof.Machine.execInjectionDeadline t ring s
  | .dmaReadCompletion t ring buf ok addr data => Sys2Proof.Machine.execDmaReadCompletion t ring buf ok addr data s
  | .rxRingFrameWrite t ring descs => Sys2Proof.Machine.execRxRingFrameWrite t ring descs s
  | .txRingFrameFetch t ring others descs bytes => Sys2Proof.Machine.execTxRingFrameFetch t ring others descs bytes s
  | .commandRingFetch t ring desc => Sys2Proof.Machine.execCommandRingFetch t ring desc s
  | .msixCoalesceTimeout t ring => Sys2Proof.Machine.execMsixCoalesceTimeout t ring s
  | .msixUnmask t path vector value => Sys2Proof.Machine.execMsixUnmask t path vector value s
  | .pcieLinkLost t perst => Sys2Proof.Machine.execPcieLinkLost t perst s
  | .busMasterOff t d3 => Sys2Proof.Machine.execBusMasterOff t d3 s
  | .pcieFlr t => Sys2Proof.Machine.execPcieFlr t s
  | .dmaCounterRead t path sel tag => Sys2Proof.Machine.execDmaCounterRead t path sel tag s
  | .twinHeartbeatTx t => Sys2Proof.Machine.execTwinHeartbeatTx t s
  | .twinHeartbeatRx t lane hb => Sys2Proof.Machine.execTwinHeartbeatRx t lane hb s
  | .peerSilenceTimeout t => Sys2Proof.Machine.execPeerSilenceTimeout t s
  | .twinTimeAverage t off => Sys2Proof.Machine.execTwinTimeAverage t off s
  | .twinLaneDown t lane => Sys2Proof.Machine.execTwinLaneDown t lane s
  | .helloTx t => Sys2Proof.Machine.execHelloTx t s
  | .helloReceived t hello => Sys2Proof.Machine.execHelloReceived t hello s
  | .mirrorItemReceived t seq item => Sys2Proof.Machine.execMirrorItemReceived t seq item s
  | .digestReceived t dig => Sys2Proof.Machine.execDigestReceived t dig s
  | .digestTimeout t => Sys2Proof.Machine.execDigestTimeout t s
  | .checkIndicatorExpiry t ind => Sys2Proof.Machine.execCheckIndicatorExpiry t ind s
  | .hbSymbol t => Sys2Proof.Machine.execHbSymbol t s
  | .ganderSymbolRecognised t high1 high2 => Sys2Proof.Machine.execGanderSymbolRecognised t high1 high2 s
  | .ganderLostTimeout t => Sys2Proof.Machine.execGanderLostTimeout t s
  | .arbHbSymbol t input highNs => Sys2Proof.Machine.execArbHbSymbol t input highNs s
  | .arbInputSilent t input => Sys2Proof.Machine.execArbInputSilent t input s
  | .ganderDecision t => Sys2Proof.Machine.execGanderDecision t s
  | .resyncStart t => Sys2Proof.Machine.execResyncStart t s
  | .resyncSnapshot t asked => Sys2Proof.Machine.execResyncSnapshot t asked s
  | .resyncInstallDone t snap => Sys2Proof.Machine.execResyncInstallDone t snap s
  | .resyncLimitExpiry t => Sys2Proof.Machine.execResyncLimitExpiry t s
  | .rejoin t => Sys2Proof.Machine.execRejoin t s
  | .stateReset t path value => Sys2Proof.Machine.execStateReset t path value s
  | .twinForceWrite t path value => Sys2Proof.Machine.execTwinForceWrite t path value s
  | .twinMailboxRead t path sel tag => Sys2Proof.Machine.execTwinMailboxRead t path sel tag s
  | .laneHelloTx t lane => Sys2Proof.Machine.execLaneHelloTx t lane s
  | .laneHelloReceived t lane hello => Sys2Proof.Machine.execLaneHelloReceived t lane hello s
  | .laneHelloTimeout t lane => Sys2Proof.Machine.execLaneHelloTimeout t lane s
  | .ubleyBlockLockLoss t lane => Sys2Proof.Machine.execUbleyBlockLockLoss t lane s
  | .linkStateTx t => Sys2Proof.Machine.execLinkStateTx t s
  | .linkStateRecord t lane rec => Sys2Proof.Machine.execLinkStateRecord t lane rec s
  | .fabricFormTimer t => Sys2Proof.Machine.execFabricFormTimer t s
  | .form t path value => Sys2Proof.Machine.execForm t path value s
  | .routeRebuild t => Sys2Proof.Machine.execRouteRebuild t s
  | .laneDelayExchange t lane trip residence => Sys2Proof.Machine.execLaneDelayExchange t lane trip residence s
  | .fabricTimeTx t => Sys2Proof.Machine.execFabricTimeTx t s
  | .fabricTimeMessage t lane tm stc8 residence => Sys2Proof.Machine.execFabricTimeMessage t lane tm stc8 residence s
  | .cellSend t flow => Sys2Proof.Machine.execCellSend t flow s
  | .cellReceived t lane cell => Sys2Proof.Machine.execCellReceived t lane cell s
  | .fabricSampleReadout t flow => Sys2Proof.Machine.execFabricSampleReadout t flow s
  | .fabricFlowWrite t path flow value => Sys2Proof.Machine.execFabricFlowWrite t path flow value s
  | .fabricConfigReport t member report => Sys2Proof.Machine.execFabricConfigReport t member report s
  | .fabricAgreeTimeout t => Sys2Proof.Machine.execFabricAgreeTimeout t s
  | .fabMailboxRead t path sel tag => Sys2Proof.Machine.execFabMailboxRead t path sel tag s
  | .eventRecord t isls => Sys2Proof.Machine.execEventRecord t isls s
  | .logPageTimer t => Sys2Proof.Machine.execLogPageTimer t s
  | .nandOpComplete t outcome => Sys2Proof.Machine.execNandOpComplete t outcome s
  | .nandOpTimeout t block => Sys2Proof.Machine.execNandOpTimeout t block s
  | .mediumRetry t => Sys2Proof.Machine.execMediumRetry t s
  | .mediumRetryEnd t found => Sys2Proof.Machine.execMediumRetryEnd t found s
  | .patrolRead t errs => Sys2Proof.Machine.execPatrolRead t errs s
  | .xferRead t path value => Sys2Proof.Machine.execXferRead t path value s
  | .xferProgram t path value => Sys2Proof.Machine.execXferProgram t path value s
  | .xferComplete t errs => Sys2Proof.Machine.execXferComplete t errs s
  | .partitionErased t path value => Sys2Proof.Machine.execPartitionErased t path value s
  | .nandFormatted t path value => Sys2Proof.Machine.execNandFormatted t path value s
  | .storeCounterRead t path sel tag => Sys2Proof.Machine.execStoreCounterRead t path sel tag s
  | .logSummary t path tag => Sys2Proof.Machine.execLogSummary t path tag s
  | .logLiveRead t path tag => Sys2Proof.Machine.execLogLiveRead t path tag s
  | .snapOpen t path tag => Sys2Proof.Machine.execSnapOpen t path tag s
  | .snapNext t path tag => Sys2Proof.Machine.execSnapNext t path tag s
  | .snapFbNext t path tag => Sys2Proof.Machine.execSnapFbNext t path tag s
  | .snapClose t path tag => Sys2Proof.Machine.execSnapClose t path tag s
  | .snapTimeout t path => Sys2Proof.Machine.execSnapTimeout t path s
  | .opsecTick t => Sys2Proof.Machine.execOpsecTick t s
  | .domainRequestWrite t path value => Sys2Proof.Machine.execDomainRequestWrite t path value s
  | .domainForceWrite t path value => Sys2Proof.Machine.execDomainForceWrite t path value s
  | .domainUp t domain => Sys2Proof.Machine.execDomainUp t domain s
  | .temperatureMeasure t tj => Sys2Proof.Machine.execTemperatureMeasure t tj s
  | .pwrOvertemp t tj => Sys2Proof.Machine.execPwrOvertemp t tj s
  | .mailboxReplyStored t path blk => Sys2Proof.Machine.execMailboxReplyStored t path blk s
  | .twinLaneUp t lane => Sys2Proof.Machine.execTwinLaneUp t lane s
  | .takeoverTimeout t => Sys2Proof.Machine.execTakeoverTimeout t s
  | .yieldTimeout t => Sys2Proof.Machine.execYieldTimeout t s
  | .aesUnlock t p => Sys2Proof.Machine.execAesUnlock t p s
  | .madiUnlock t p => Sys2Proof.Machine.execMadiUnlock t p s
  | .portClockReturns t side => Sys2Proof.Machine.execPortClockReturns t side s
  | .dmaReadTimeout t ring buf addr => Sys2Proof.Machine.execDmaReadTimeout t ring buf addr s
  | .pcieLinkUp t width speed bme ext msix fmask => Sys2Proof.Machine.execPcieLinkUp t width speed bme ext msix fmask s
  | .vddAonLost t => Sys2Proof.Machine.execVddAonLost t s
  | .fecCodeword t port bad corrected => Sys2Proof.Machine.execFecCodeword t port bad corrected s

end Sys2Proof.Machine
end

