-- ==== Sys2Proof/Safety.lean ====
section
/-!
DEFINITION. What a run must keep, in the terms the statements use: the canonical form of the memory window, one grant of Gander at a time (R353), and
the capacities of the completion FIFO (R96), of the completions held in SLEEP (R88) and of the BAR0 write queue (R57). And when the
sequencer takes a command as it arrives (R91, R92).
-/
namespace Sys2Proof.Machine

/-- The memory window is in its canonical form. -/
def State.memOk (s : State) : Bool := Memory.wf s.mem

/-- Gander drives GRANT on at most one of its two lines (R353). -/
def State.oneGrant (s : State) : Bool := !(s.gander.grant0 == .grant && s.gander.grant1 == .grant)

/-- SYS.CMD_DONE holds at most 32 completions (R96), and the always-on island at most 8 (R88). -/
def State.fifosOk (s : State) : Bool := decide (s.cmd.done.length ≤ 32) && decide (s.cmd.sleepDone.length ≤ 8)

/-- BAR0 holds at most 16 posted writes (R57). -/
def State.postedOk (s : State) : Bool := decide ((s.host.queue.filter (fun q => q.write)).length ≤ 16)

/-- What every step keeps. -/
def State.inv (s : State) : Bool := s.memOk && s.oneGrant && s.fifosOk && s.postedOk

/-- The sequencer has nothing to do of its own: no command is queued, no mode change waits for its judgement, and the PARITY cause is not due to clear. -/
def State.calm (s : State) : Bool := !s.cmd.dirty && s.cmd.queue.isEmpty && !parityDone s

/-- The sequencer takes a command of a source as it arrives: commands reach it outside SLEEP, it has nothing to do of its own, no restart, LOAD, APPLY or
SLEEP entry holds it, and the deferred list has room. -/
def State.takesNow (s : State) (src : CmdSrc) : Bool :=
  canSubmit s src && s.cmd.mode != .sleep && s.calm && !s.cmd.restarting && !s.cmd.applying && !s.cmd.sleeping &&
  decide (s.cmd.deferred.length < 32)

/-- The command that a row of the sequencer names, as it is numbered. -/
def State.cmdOf (s : State) (src : CmdSrc) (op tag : Nat) (nodefer : Bool) (a0 a1 : Nat) : Cmd :=
  ⟨op % 256, tag % 256, nodefer, src, a0 % 2 ^ 32, a1 % 2 ^ 32, s.cmd.nextOrder⟩

/-- An epoch at which only the sequencer's started commands act: no parity policy stands and no PARITY cause, no command was mirrored, no AUTOSTART and
no STATE_RESET waits, and the sequencer is free. -/
def State.plainEpoch (s : State) : Bool :=
  s.domOn 1 && s.domOn 2 && s.calm && !bit s.cmd.safeCause scPARITY && !s.cmd.sleeping && s.cmd.mode != .sleep && !s.cmd.autoStart && s.twin.mirCmds.isEmpty &&
  s.twin.stateAt.isNone && s.host.corrupt.isEmpty && s.host.polHold == 0 && s.host.polMute == 0 && decide (s.time.epoch < s.stcMsec)

/-- The state once a command's number is taken. -/
def State.numbered (s : State) : State := { s with cmd := { s.cmd with nextOrder := s.cmd.nextOrder + 1 } }

/-- The volatile state stands at its reset values: registers and banks, the memory window, the sequencer's queues, the ports, the stream engines, the
placement, the synthesisers, the audio ports, the tiles, Gander's arbiter and the transfers of the medium. -/
def State.cleared (s : State) : Bool :=
  s.regs.isEmpty && !s.bankSel && s.banks.isEmpty && s.mem.isEmpty && s.cmd.queue.isEmpty && s.cmd.deferred.isEmpty && s.cmd.started.isEmpty &&
  s.cmd.done.isEmpty && s.cmd.loading.isNone && s.host.corrupt.isEmpty && s.host.queue.isEmpty && decide (s.macA = .init) && decide (s.macB = .init) &&
  decide (s.macM = .init) && decide (s.stx = .init) && decide (s.srx = .init) && decide (s.way = ⟨[], []⟩) && decide (s.place = .init) &&
  decide (s.clk = .init) && decide (s.aport = .init) && decide (s.dsp = .init) && decide (s.gander = .init) && s.nand.xfer.isNone && !s.nand.ready

/-- From s to u the log keeps what it holds outside the write buffer, its numbers and the counters. -/
def State.logKept (s u : State) : Prop :=
  u.recorder.main = s.recorder.main ∧ u.recorder.fbFirst = s.recorder.fbFirst ∧ u.recorder.fbCirc = s.recorder.fbCirc ∧ u.recorder.hold = s.recorder.hold ∧
  u.recorder.pend = s.recorder.pend ∧ u.recorder.evq = s.recorder.evq ∧ u.recorder.nextSeq = s.recorder.nextSeq ∧ u.recorder.opsec = s.recorder.opsec

/-- From s to u the NAND device keeps what it holds. -/
def State.mediumKept (s u : State) : Prop :=
  u.nand.cells = s.nand.cells ∧ u.nand.pages = s.nand.pages ∧ u.nand.images = s.nand.images ∧ u.nand.slot0 = s.nand.slot0 ∧ u.nand.slot1 = s.nand.slot1 ∧
  u.nand.retired = s.nand.retired ∧ u.nand.map = s.nand.map ∧ u.nand.wear = s.nand.wear

/-- What a capture of the counters `ks` answers: what they had counted before the instant, `old` being their values then and `cur` their values now (R67). -/
def answerOf (cur old : Tbl Nat) (ks : List Nat) : List Nat := ks.flatMap (fun k => words64 (Nat.min (ctrGet old k) (ctrGet cur k)))

/-- The counters `ks` have given up what they had counted before the instant; what they counted at it, and every other counter, stands. `c` and `o` are the
values after the capture and what counts as before it from then on. -/
def takenFrom (cur old c o : Tbl Nat) (ks : List Nat) : Prop :=
  (∀ k, ctrGet c k = ctrGet cur k - (if k ∈ ks then Nat.min (ctrGet old k) (ctrGet cur k) else 0)) ∧
  ∀ k, ctrGet o k = if k ∈ ks then 0 else ctrGet old k

/-- A write by a path reaches the registers of block b: the device runs outside SLEEP, no mode change waits for the sequencer, the block is present and
on, and no register word is corrupt. -/
def State.plainWrite (s : State) (b : Nat) : Bool :=
  s.live && s.cmd.mode != .sleep && !s.cmd.dirty && s.domOn 1 && s.present b && s.domOn (domainOf b) && s.host.corrupt.isEmpty && !bit s.cmd.safeCause 3

/-- A path's access has completed with OK and no data: what it last answered is that. -/
def State.ended (s : State) (p : Path) : State := s.setPath p { s.path p with last := ⟨0, 0⟩ }

/-- From s to u at most the register word at a has changed, of the registers, the memory window and the sequencer's state; no command has joined the
queue. -/
def State.onlyWord (s u : State) (a : Nat) : Prop :=
  (∀ x, x ≠ a → u.rd x = s.rd x) ∧ u.mem = s.mem ∧ u.cmd = s.cmd ∧ u.pending = s.pending ∧ u.bankSel = s.bankSel

/-- The same, where a cause register of the block may also show a new cause. -/
def State.onlyWordOr (s u : State) (a c : Nat) : Prop :=
  (∀ x, x ≠ a → x ≠ c → u.rd x = s.rd x) ∧ u.mem = s.mem ∧ u.cmd = s.cmd ∧ u.pending = s.pending ∧ u.bankSel = s.bankSel

/-- No register, no byte of the memory window and nothing of the sequencer has changed from s to u. -/
def State.noWord (s u : State) : Prop :=
  u.regs = s.regs ∧ u.mem = s.mem ∧ u.cmd = s.cmd ∧ u.pending = s.pending ∧ u.bankSel = s.bankSel

/-- A tile in SPLIT mode runs invocation v of node p alone, at context c: no interrupt is enabled, no result, branch, wait, loop or transfer is under way, and
the next bundle lies in program memory. -/
def State.plainTile (s : State) (tile : Nat) (v : Inv) (p : NodeP) (c : Ctx) : Bool :=
  let x := tileOf s tile
  x.st == .run && x.mode == .split && x.queue.isEmpty && decide (x.cur = some { v with ctx := some c }) && decide (nodeP s v.node = some p) &&
  (nodeOf s v.node).xrun.isEmpty && !bit c.tsw 0 && c.pend.isEmpty && c.tsws.isEmpty && c.accs.isEmpty && c.macs.isEmpty && c.slot == 0 &&
  c.ldepth == 0 && c.waitx == 0 && c.timer == 0 && c.deferred == 0 && c.cached.isNone && !c.ending && c.pc % 8 == 0 && decide (0x20000 ≤ c.pc) &&
  decide (c.pc < 0x2FFF8)

/-- A fault of the tile goes to a free spare: the tile holds nodes, nothing is being re-placed, and no twin watches. -/
def State.spareWaits (s : State) (tile sp : Nat) (r : List Nat) : Bool :=
  !s.blkOn bTWIN && s.place.replacing.isNone && decide (s.place.freeSpares = sp :: r) && holdsNodes s tile

/-- Tile tile has stopped with a fault from s to u, and its nodes are moving to spare sp. -/
def State.faulted (s u : State) (tile cause node pc sp : Nat) (r : List Nat) : Prop :=
  State.onlyWordOr s u PLACE.TILE_FAULT DSPC.FAULT ∧ (tileOf u tile).st = .faulted ∧ (tileOf u tile).fault = (cause, node, pc) ∧
  (tileOf u tile).cur = none ∧ u.place.replacing = some (tile, sp, u.now) ∧ u.place.freeSpares = r ∧
  ⟨.control, 0xE003, sevERROR, tile, [finfoWord (cause, node, pc) % 2 ^ 32]⟩ ∈ u.recorder.evq

/-- A word with the bits of a mask taken from another. -/
def merged (old m v : Word) : Word := (old &&& ~~~ m) ||| (v &&& m)

end Sys2Proof.Machine
end

