-- ==== Sys2Proof/Certificates/Slice0/Obligations.lean ====
section
/-! DEFINITION. The statements about the model: what the rules of spec/ say that each command does, and what every step keeps. -/

open Sys2Proof Sys2Proof.Machine

/-- With a command at the front of its queue the block performs it on the state whose queue is the rest; with none waiting it idles. The table gives its rows no
words, so no word spells a command and none comes to the queue by one. The idle step and the absence of words are the model's choices (log entry 1). -/
def Obligations.StepRunsFront : Prop :=
  ∀ (c : Instr) (rest : List Instr) (nbits w : Nat) (s : State),
    (s.pending = c :: rest → step s = exec c { s with pending := rest }) ∧ (s.pending = [] → step s = .next s) ∧
    decodeTableWord nbits w = none ∧ s.withFetchWord nbits w = s

/-- After reset the device is in BOOT with domains 0 to 2 on, every register reads its reset value, no byte of the memory window is other than 0, no command waits and
the stated invariant holds. The reset values of eight registers are as their tables give them. That memory reads 0 is the model's choice (log entry 5). -/
def Obligations.ResetState : Prop :=
  State.reset.inv = true ∧ State.reset.pending = [] ∧ State.reset.cmd.mode = .boot ∧ State.reset.cmd.safeCause = 0 ∧ State.reset.pwr.on = 7 ∧
  State.reset.twin.role = .solo ∧ State.reset.gander.holder = 2 ∧ State.reset.cmd.done = [] ∧
  (∀ a, State.reset.rd a = resetWord a) ∧ (∀ a, State.reset.memB a = 0) ∧
  State.reset.rd (MAC.MAC_CTL 2) = 0x38 ∧ State.reset.rd (MAC.MAC_CTL 0) = 0x8 ∧ State.reset.rd TWIN.RESYNC_CTL = 0x3C0100 ∧
  State.reset.rd (DMA.RING_SIZE 0) = 4 ∧ State.reset.rd SYS.ARB_CTL = 0xA00 ∧ State.reset.rd (MAC.MAX_FRAME 1) = 0x5F2 ∧
  State.reset.rd TWIN.TWIN_CTL = 0xC81004 ∧ State.reset.rd TIME.SEL_CTL = 0x5258

/-- For every command and every state the model answers a next state: nothing is refused. The queue of waiting commands is the one the command was given, and the elapsed time
is the later of the state's and the command's (log entry 2). -/
def Obligations.EveryCommandCompletes : Prop :=
  ∀ (c : Instr) (s : State), ∃ u, exec c s = .next u ∧ u.pending = s.pending ∧ u.now = Nat.max s.now c.time

/-- From every state with the invariant, a step leads to one with it: the memory window keeps its canonical form, Gander never drives GRANT on both lines, CMD_DONE holds at most 32
completions and the always-on island at most 8, and BAR0 at most 16 posted writes. -/
def Obligations.EveryStepKeepsTheInvariant : Prop :=
  ∀ (s u : State), s.inv = true → step s = .next u → u.inv = true

/-- While FUSE or TEST_STRAP of the SAFE causes is 1, a LOAD of any source, APPLY, STOP and SLEEP that the sequencer takes complete with ILLEGAL_IN_STATE, with the record of a
rejected command, and change nothing else. -/
def Obligations.FuseAndTestStrapRefuse : Prop :=
  ∀ (t tag a0 a1 : Nat) (nd : Bool) (src : CmdSrc) (s : State), (s.at t).takesNow src = true → bit s.cmd.safeCause scFUSE = true ∨ bit s.cmd.safeCause scTEST = true →
    let no := fun op b0 b1 => (finish (s.at t).numbered ((s.at t).cmdOf src op tag nd b0 b1) cILLEGAL 0).emit .control 0x000F sevNOTICE 0
      [op, tag % 256, if src = .spi then 0 else 1, s.modeWord]
    (1 ≤ a0 → a0 < 4 → exec (.load t src tag nd a0 0) s = .next (no 0x01 a0 0)) ∧
    (a1 ≤ 25165824 → exec (.load t src tag nd 4 a1) s = .next (no 0x01 4 a1)) ∧
    exec (.apply t src tag nd 0 0) s = .next (no 0x02 0 0) ∧
    exec (.stop t src tag nd 0 0) s = .next (no 0x06 0 0) ∧
    exec (.sleep t src tag nd 0 0) s = .next (no 0x0D 0 0)

/-- A write of a media port's MAC_CTL, whole, narrow or through an alias view, whose new value would select a line rate above what the variant has leaves RATE as it was and records
VARIANT_LIMIT as NOTICE; every other field of the register takes the value that the write gives it. Of a twinned unit it is the ACTIVE that performs the write (R346). -/
def Obligations.LineRateAboveTheVariant : Prop :=
  ∀ (t k be v view : Nat) (p : Path) (s : State), s.plainWrite (portBlk k) = true → (twinned s && s.twin.role == .standby) = false → k < 2 → be < 16 →
    let a := MAC.MAC_CTL k
    let old := s.rd a
    let w := BitVec.ofNat 32 v
    let m := beMask be
    let kept := fun (new : Word) (u : State) => u.rd a = merged old 0xFC new ∧ u.fld a MAC.MAC_CTL_RATE = s.fld a MAC.MAC_CTL_RATE ∧
      ⟨portIsl k, 0x0003, sevNOTICE, 0, []⟩ ∈ u.recorder.evq ∧ u.mem = s.mem
    let beyond := fun (new : Word) => s.variant.media < MAC.MAC_CTL_RATE.get new
    let viewed := if view = 1 then old ||| (w &&& m) else if view = 2 then old &&& ~~~ (w &&& m) else old ^^^ (w &&& m)
    (beyond w → ∃ u, exec (.rateChanged t p k v) s = .next u ∧ kept w u) ∧
    (beyond (merged old m w) → ∃ u, exec (.registerWrite t p a be v) s = .next u ∧ kept (merged old m w) u ∧ (u.path p).last = ⟨aOK, 0⟩) ∧
    (1 ≤ view → view < 4 → beyond viewed → ∃ u, exec (.aliasWrite t p (a + view * 0x40000) be v) s = .next u ∧ kept viewed u)

/-- In the blocks DMA, STX, SRX, TWIN, FAB and STORE a request for a selector of counters captures what they had counted before the instant of the command, clears them of it, and leaves
what they count at that instant and every other counter; the request is busy, its reply on its way back, and nothing else of the device changes. TWIN's selector 0x10 and
FAB's selectors from 0x200 answer their values and clear nothing. A selector that the block does not know fails with code 1, and a request to a block that is present but off
fails with code 3. -/
def Obligations.CounterReadsAnswerAndClear : Prop :=
  ∀ (t : Nat) (p : Path) (sel tag : Nat) (s : State),
    let q := fun b => mbxAsk (s.at t) p b sel tag
    let old := (s.at t).inst
    let off := fun b => s.present b && !(s.at t).blkOn b
    ((s.at t).blkOn bDMA = true → sel < 256 → ∃ u, exec (.dmaCounterRead t p sel tag) s = .next u ∧
      u = mbxCapture { q bDMA with dma := { s.dma with ctr := u.dma.ctr }, inst := { old with ctrDma := u.inst.ctrDma } } p bDMA
        (answerOf s.dma.ctr old.ctrDma (ctrKeys sel)) ∧
      takenFrom s.dma.ctr old.ctrDma u.dma.ctr u.inst.ctrDma (ctrKeys sel)) ∧
    ((s.at t).blkOn bDMA = true → 256 ≤ sel → exec (.dmaCounterRead t p sel tag) s = .next (mbxFail (q bDMA) p bDMA 1)) ∧
    (off bDMA = true → exec (.dmaCounterRead t p sel tag) s = .next (mbxFail (q bDMA) p bDMA 3)) ∧
    ((s.at t).blkOn bSTX = true → sel ≤ 0x402 → ∃ u, exec (.stxCounterRead t p sel tag) s = .next u ∧
      u = mbxCapture { q bSTX with stx := { s.stx with ctr := u.stx.ctr }, inst := { old with ctrStx := u.inst.ctrStx } } p bSTX
        (answerOf s.stx.ctr old.ctrStx (if sel ≤ 0x400 then [4 * sel, 4 * sel + 1] else [4 * sel])) ∧
      takenFrom s.stx.ctr old.ctrStx u.stx.ctr u.inst.ctrStx (if sel ≤ 0x400 then [4 * sel, 4 * sel + 1] else [4 * sel])) ∧
    ((s.at t).blkOn bSTX = true → 0x402 < sel → exec (.stxCounterRead t p sel tag) s = .next (mbxFail (q bSTX) p bSTX 1)) ∧
    (off bSTX = true → exec (.stxCounterRead t p sel tag) s = .next (mbxFail (q bSTX) p bSTX 3)) ∧
    ((s.at t).blkOn bSRX = true → sel < 0x1003 → ∃ u, exec (.srxCounterRead t p sel tag) s = .next u ∧
      u = mbxCapture { q bSRX with srx := { s.srx with ctr := u.srx.ctr }, inst := { old with ctrSrx := u.inst.ctrSrx } } p bSRX
        (answerOf s.srx.ctr old.ctrSrx (ctrKeys sel)) ∧
      takenFrom s.srx.ctr old.ctrSrx u.srx.ctr u.inst.ctrSrx (ctrKeys sel)) ∧
    ((s.at t).blkOn bSRX = true → 0x1003 ≤ sel → exec (.srxCounterRead t p sel tag) s = .next (mbxFail (q bSRX) p bSRX 1)) ∧
    (off bSRX = true → exec (.srxCounterRead t p sel tag) s = .next (mbxFail (q bSRX) p bSRX 3)) ∧
    ((s.at t).blkOn bTWIN = true → sel < 2 → ∃ u, exec (.twinMailboxRead t p sel tag) s = .next u ∧
      u = mbxCapture { q bTWIN with twin := { s.twin with ctr := u.twin.ctr }, inst := { old with ctrTwin := u.inst.ctrTwin } } p bTWIN
        (answerOf s.twin.ctr old.ctrTwin (ctrKeys sel)) ∧
      takenFrom s.twin.ctr old.ctrTwin u.twin.ctr u.inst.ctrTwin (ctrKeys sel)) ∧
    ((s.at t).blkOn bTWIN = true → sel = 0x10 → exec (.twinMailboxRead t p sel tag) s = .next (mbxCapture (q bTWIN) p bTWIN (wordsS64 s.twin.timeOff))) ∧
    ((s.at t).blkOn bTWIN = true → 2 ≤ sel → sel ≠ 0x10 → exec (.twinMailboxRead t p sel tag) s = .next (mbxFail (q bTWIN) p bTWIN 1)) ∧
    (off bTWIN = true → exec (.twinMailboxRead t p sel tag) s = .next (mbxFail (q bTWIN) p bTWIN 3)) ∧
    ((s.at t).blkOn bFAB = true → sel < 0x108 → ∃ u, exec (.fabMailboxRead t p sel tag) s = .next u ∧
      u = mbxCapture { q bFAB with fab := { s.fab with ctr := u.fab.ctr }, inst := { old with ctrFab := u.inst.ctrFab } } p bFAB
        (answerOf s.fab.ctr old.ctrFab (ctrKeys sel)) ∧
      takenFrom s.fab.ctr old.ctrFab u.fab.ctr u.inst.ctrFab (ctrKeys sel)) ∧
    ((s.at t).blkOn bFAB = true → 0x200 ≤ sel → sel < 0x240 →
      exec (.fabMailboxRead t p sel tag) s = .next (mbxCapture (q bFAB) p bFAB (words64 (s.fab.formed.getD (sel - 0x200) 0)))) ∧
    ((s.at t).blkOn bFAB = true → sel = 0x300 →
      exec (.fabMailboxRead t p sel tag) s = .next (mbxCapture (q bFAB) p bFAB (wordsS64 (if s.fab.valid then s.fab.ft else 0)))) ∧
    ((s.at t).blkOn bFAB = true → (0x108 ≤ sel ∧ sel < 0x200) ∨ (0x240 ≤ sel ∧ sel ≠ 0x300) →
      exec (.fabMailboxRead t p sel tag) s = .next (mbxFail (q bFAB) p bFAB 1)) ∧
    (off bFAB = true → exec (.fabMailboxRead t p sel tag) s = .next (mbxFail (q bFAB) p bFAB 3)) ∧
    ((s.at t).blkOn bSTORE = true → sel < 2 → ∃ u, exec (.storeCounterRead t p sel tag) s = .next u ∧
      u = mbxCapture { q bSTORE with nand := { s.nand with ctr := u.nand.ctr }, inst := { old with ctrNand := u.inst.ctrNand } } p bSTORE
        (answerOf s.nand.ctr old.ctrNand (ctrKeys sel)) ∧
      takenFrom s.nand.ctr old.ctrNand u.nand.ctr u.inst.ctrNand (ctrKeys sel)) ∧
    ((s.at t).blkOn bSTORE = true → 2 ≤ sel → exec (.storeCounterRead t p sel tag) s = .next (mbxFail (q bSTORE) p bSTORE 1)) ∧
    (off bSTORE = true → exec (.storeCounterRead t p sel tag) s = .next (mbxFail (q bSTORE) p bSTORE 3))

/-- TIMESTAMP_FIFO_POP answers the oldest timestamp of the port and takes it from the FIFO, and four zero words from an empty FIFO. MAC_COUNTER_READ of a counter of Table 6-14, at
an instant at which no command has come before, answers the counter with what the port's transmissions and pauses have added up to that instant, and clears it
alone. A selector that the MAC does not know fails with code 1. -/
def Obligations.MacMailboxReads : Prop :=
  ∀ (t : Nat) (p : Path) (port sel tag : Nat) (x : TxStamp) (r : List TxStamp) (s : State), port < 3 → (s.at t).blkOn (portBlk port) = true →
    ((s.mac port).fifo = [] → exec (.timestampFifoPop t p port tag) s =
      .next (mbxCapture (mbxAsk (s.at t) p (portBlk port) 0x0100 tag) p (portBlk port) [0, 0, 0, 0])) ∧
    ((s.mac port).fifo = x :: r → exec (.timestampFifoPop t p port tag) s =
      .next (mbxCapture ((mbxAsk (s.at t) p (portBlk port) 0x0100 tag).setMac port { s.mac port with fifo := r }) p (portBlk port)
        (stampWords x.stc ++ [x.desc % 65536 + x.ring % 64 * 65536 + 2 ^ 31]))) ∧
    (macSel sel = true → s.now < t → ctrGet (s.mac port).ctr sel < 2 ^ 64 →
      let u := pauseAccount (txSettle (mbxAsk (s.at t) p (portBlk port) sel tag) port) port
      ∃ v, exec (.macCounterRead t p port sel tag) s = .next v ∧
        (v.mbx p (portBlk port)).snap = some ((words64 (ctrGet (u.mac port).ctr sel)).map (· % 2 ^ 32)) ∧
        v.mac port = { u.mac port with ctr := (v.mac port).ctr } ∧
        (∀ k, ctrGet (v.mac port).ctr k = if k = sel then 0 else ctrGet (u.mac port).ctr k)) ∧
    (macSel sel = false → sel ≠ 0x0100 → exec (.macCounterRead t p port sel tag) s =
      .next (mbxFail (mbxAsk (s.at t) p (portBlk port) sel tag) p (portBlk port) 1))

/-- TIME_MAILBOX_READ answers the STC of the capture; the last edge of a reference pin, or four zero words; a slot's FFO, the wait that is left with the count beyond HARD, and the seconds in
its state; a lane's phase difference and whether it is in, with its seconds; OFF with the phase still to be pulled; the learned offset with its age; and the present and
holdover frequencies. PTP_DATASET_READ of an instance that takes part answers the members of its datasets as octets packed into words, and of its counters what they had
counted before the instant, which leaves them. -/
def Obligations.TimeMailboxReads : Prop :=
  ∀ (t : Nat) (p : Path) (sel i d tag e : Nat) (s : State), (s.at t).blkOn bTIME = true →
    let q := fun n => mbxAsk (s.at t) p bTIME n tag
    let x := slotOf s (sel - 0x10)
    let l := laneOf s (sel - 0x20)
    let old := Tbl.getD (s.at t).inst.ptp i .init
    let y := ptpOf s i
    exec (.timeMailboxRead t p 0 tag) s = .next (mbxCapture (q 0) p bTIME (stampWords (s.at t).time.stc)) ∧
    (1 ≤ sel → sel ≤ 4 → s.time.edges.find (sel - 1) = none →
      exec (.timeMailboxRead t p sel tag) s = .next (mbxCapture (q sel) p bTIME [0, 0, 0, 0])) ∧
    (1 ≤ sel → sel ≤ 4 → s.time.edges.find (sel - 1) = some e →
      exec (.timeMailboxRead t p sel tag) s = .next (mbxCapture (q sel) p bTIME (stampWords e ++ [1]))) ∧
    (0x10 ≤ sel → sel < 0x20 → exec (.timeMailboxRead t p sel tag) s = .next (mbxCapture (q sel) p bTIME
      [pw (satS 32 (x.ffo.getD 0)),
       (if x.st = .wait then s.fld TIME.SEL_CTL TIME.SEL_CTL_WTR_S - ((s.at t).now - x.waitFrom) / secs 1 else 0) + Nat.min x.beyond 65535 * 65536,
       Nat.min (((s.at t).now - x.since) / secs 1) (2 ^ 32 - 1)])) ∧
    (0x20 ≤ sel → sel < 0x23 → exec (.timeMailboxRead t p sel tag) s = .next (mbxCapture (q sel) p bTIME
      [pw (satS 32 (l.est - s.time.followed)), b2n l.inV + 2 * Nat.min (((s.at t).now - l.rejoined) / secs 1) (2 ^ 31 - 1)])) ∧
    exec (.timeMailboxRead t p 0x28 tag) s = .next (mbxCapture (q 0x28) p bTIME (wordsS64 s.time.off ++ wordsS64 (pullLeft (s.at t)))) ∧
    exec (.timeMailboxRead t p 0x30 tag) s = .next (mbxCapture (q 0x30) p bTIME
      [pw (satS 32 (s.time.learned / 1000000)), Nat.min s.time.learnAge (2 ^ 32 - 1)]) ∧
    exec (.timeMailboxRead t p 0x31 tag) s = .next (mbxCapture (q 0x31) p bTIME
      [pw (satS 32 (relNominal s s.time.y)), pw (satS 32 (relNominal s s.time.hoFreq))]) ∧
    (0x40 ≤ sel → sel < 0x44 → fpgSrc s (sel - 0x40) = 0 → exec (.timeMailboxRead t p sel tag) s = .next (mbxCapture (q sel) p bTIME [0])) ∧
    (i < 6 → ptpHere s i = true → d < 5 → d ≠ 3 → exec (.ptpDatasetRead t p (0x100 + 16 * i + d) tag) s =
      .next (mbxCapture (q (0x100 + 16 * i + d)) p bTIME (packWords (ptpDataset (s.at t) i d) (([5, 5, 6, 0, 7] : List Nat).getD d 0)))) ∧
    (i < 6 → ptpHere s i = true → ∃ u, exec (.ptpDatasetRead t p (0x105 + 16 * i) tag) s = .next u ∧
      (u.mbx p bTIME).snap = some [Nat.min old.cSync y.cSync % 2 ^ 32, Nat.min old.cAnn y.cAnn % 2 ^ 32, Nat.min old.cReq y.cReq % 2 ^ 32,
        Nat.min old.cDrop y.cDrop % 2 ^ 32] ∧
      ptpOf u i = { y with cSync := y.cSync - old.cSync, cAnn := y.cAnn - old.cAnn, cReq := y.cReq - old.cReq, cDrop := y.cDrop - old.cDrop } ∧
      u.regs = s.regs ∧ u.mem = s.mem)

/-- With LOG present and on, LOG_SUMMARY answers the oldest and newest numbers, the count and the capacity of the main log; LOG_LIVE_READ answers the first record at or after the path's
RD_SEQ and moves RD_SEQ past that record, or status 1 where there is none; SNAP_OPEN takes a snapshot and answers status 0, or status 1 with no main-log record in it where the main log is
not in use; SNAP_NEXT and SNAP_FB_NEXT answer status 2 on a path without a snapshot, and otherwise the next record of the snapshot's two parts, or status 1 at its end;
SNAP_CLOSE lets the path's snapshot go and answers 0. -/
def Obligations.LogMailboxReads : Prop :=
  ∀ (t : Nat) (p : Path) (tag : Nat) (x : Snap) (r : Rec) (s : State), (s.at t).blkOn bLOG = true →
    let l := mainLog s.recorder
    let q := fun sel => mbxAsk (s.at t) p bLOG sel tag
    let at_ := fun (k : List Rec) => k.find? (fun r => seqGe r.seq (s.path p).rdSeq)
    exec (.logSummary t p tag) s = .next (mbxCapture (q 0x0000) p bLOG [oldestSeq l, newestSeq l, l.length, 1835008]) ∧
    (at_ l = none → exec (.logLiveRead t p tag) s = .next (mbxCapture (q 0x0001) p bLOG [1])) ∧
    (at_ l = some r → exec (.logLiveRead t p tag) s = .next (mbxCapture (moveCursor (q 0x0001) p (r.seq + 1)) p bLOG r.words)) ∧
    exec (.snapOpen t p tag) s = .next (mbxCapture (setSnap (q 0x0010) p (some
        ⟨if logReady (s.at t) then l else [], sortRecs (s.recorder.fbFirst ++ s.recorder.fbCirc ++ s.recorder.hold), newestSeq l, (s.at t).now, 0⟩))
      p bLOG [if logReady (s.at t) then 0 else 1, newestSeq l, oldestSeq l, l.length]) ∧
    (snapOf s p = none → exec (.snapNext t p tag) s = .next (mbxCapture (q 0x0011) p bLOG [2]) ∧
      exec (.snapFbNext t p tag) s = .next (mbxCapture (q 0x0012) p bLOG [2])) ∧
    (snapOf s p = some x →
      let read := fun sel => setSnap (q sel) p (some { x with lastRead := (s.at t).now })
      (at_ x.main = none → exec (.snapNext t p tag) s = .next (mbxCapture (read 0x0011) p bLOG [1])) ∧
      (at_ x.fb = none → exec (.snapFbNext t p tag) s = .next (mbxCapture (read 0x0012) p bLOG [1])) ∧
      (at_ x.main = some r → exec (.snapNext t p tag) s = .next (mbxCapture (moveCursor (read 0x0011) p (r.seq + 1)) p bLOG r.words)) ∧
      (at_ x.fb = some r → exec (.snapFbNext t p tag) s = .next (mbxCapture (moveCursor (read 0x0012) p (r.seq + 1)) p bLOG r.words))) ∧
    exec (.snapClose t p tag) s = .next (mbxCapture (setSnap (q 0x0013) p none) p bLOG [0])

/-- MAILBOX_REPLY_STORED shows the captured words with VALID set and BUSY clear under the tag of the request; reading the last word clears VALID and keeps the data; a request that has waited
20 µs ends with ERR and code 2, and its capture is abandoned. Nothing but that mailbox of that path changes. -/
def Obligations.MailboxReplyLifecycle : Prop :=
  ∀ (t : Nat) (p : Path) (b : Nat) (w : List Nat) (s : State),
    ((s.mbx p b).snap = some w → exec (.mailboxReplyStored t p b) s = .next ((s.at t).setMbx p b
        { s.mbx p b with busy := false, valid := true, snap := none, words := w.length, data := w, ansTag := (s.mbx p b).tag })) ∧
    exec (.mailboxLastWordRead t p b) s = .next ((s.at t).setMbx p b { s.mbx p b with valid := false }) ∧
    ((s.mbx p b).busy = true → (s.mbx p b).reqAt + us 20 ≤ (s.at t).now → exec (.mailboxTimeout t p b) s = .next ((s.at t).setMbx p b
        { s.mbx p b with busy := false, err := true, errcode := 2, ansTag := (s.mbx p b).tag, snap := none }))

/-- The recorder takes an island's oldest waiting event; of two islands' events that cross in one cycle, that of the island higher in Table 1-1 comes first. Below LOG_CTL.MIN_SEV an event is
discarded: nothing but the queue of waiting events changes. Otherwise its record has the next number, with the operating seconds and the power-cycle count. It enters the hold queue where the log is
frozen, not ready for a reason other than a medium fault, or the write buffer is full, and the queue has room; from a full hold queue it goes to the fall-back area, with FB at 1, where
that has room in its first part. The record of a failed medium goes there too, as a pending one. In an open log with room it stands in the write buffer until it fills a page or is CRITICAL, and
then is programmed with the buffer's other records in the page that is next, short of the last page of a block. In each of these cases the next number advances by one modulo 2³². -/
def Obligations.RecordsAreNumberedAndKept : Prop :=
  ∀ (t : Nat) (isl jsl : Island) (e : Ev) (q : List Ev) (s : State),
    (islRank isl < islRank jsl → exec (.eventRecord t [jsl, isl]) s = .next (recordOne (recordOne (s.at t) isl) jsl)) ∧
    (takeEv isl s.recorder.evq = some (e, q) →
    (e.sev < s.fld LOG.LOG_CTL LOG.LOG_CTL_MIN_SEV →
      exec (.eventRecord t [isl]) s = .next { s.at t with recorder := { s.recorder with evq := q } }) ∧
    (s.fld LOG.LOG_CTL LOG.LOG_CTL_MIN_SEV ≤ e.sev →
      let z := s.recorder
      let r : Rec := ⟨z.nextSeq, z.opsec, z.pcyc, e.code, e.sev, e.inst, false, false, e.p, 0⟩
      let z1 := { z with evq := q, nextSeq := (z.nextSeq + 1) % 2 ^ 32 }
      let held := z.frozen = true ∨ (logReady s = false ∧ z.degraded = false) ∨ 256 ≤ z.wbuf.length
      let isOpen := z.frozen = false ∧ logReady s = true ∧ z.wbuf.length < 256 ∧ z.main.length + z.wbuf.length < 1835008
      (held → z.hold.length < 64 → ∃ u, exec (.eventRecord t [isl]) s = .next u ∧ u.recorder = { z1 with hold := z.hold ++ [r] } ∧
        u.mem = s.mem ∧ u.cmd = s.cmd) ∧
      (held → 64 ≤ z.hold.length → z.fbFirst.length < 128 → ∃ u, exec (.eventRecord t [isl]) s = .next u ∧
        u.recorder.fbFirst = z.fbFirst ++ [{ r with fb := true }] ∧ u.recorder.hold = z.hold ∧ u.recorder.holdRun = true ∧
        u.recorder.nextSeq = z1.nextSeq ∧ u.recorder.main = z.main ∧ u.recorder.wbuf = z.wbuf ∧ u.mem = s.mem ∧ u.cmd = s.cmd) ∧
      (z.frozen = false → z.degraded = true → z.wbuf.length < 256 → z.fbFirst.length < 128 → ∃ u, exec (.eventRecord t [isl]) s = .next u ∧
        u.recorder = { z1 with fbFirst := z.fbFirst ++ [{ r with fb := true }], pend := z.pend ++ [r.seq] } ∧ u.mem = s.mem ∧ u.cmd = s.cmd) ∧
      (isOpen → z.wbuf.length + 1 < recsPerPage s → e.sev ≠ 5 → ∃ u, exec (.eventRecord t [isl]) s = .next u ∧
        u.recorder = { z1 with wbuf := z.wbuf ++ [r], wbufSince := if z.wbuf = [] then some (s.at t).now else z.wbufSince, noVictim := false } ∧
        u.mem = s.mem ∧ u.cmd = s.cmd ∧ u.nand = s.nand) ∧
      (isOpen → s.nand.fault = false → z.wbuf.length + 1 ≤ recsPerPage s → z.wbuf.length + 1 = recsPerPage s ∨ e.sev = 5 → logNext s z.logPage % blkPages s ≠ 0 →
        ∃ u, exec (.eventRecord t [isl]) s = .next u ∧ u.recorder = { z1 with
          wbuf := [], wbufSince := none, noVictim := false, logPage := logNext s z.logPage
          main := z.main ++ (sortRecs (z.wbuf ++ [r])).map (fun x => { x with page := z.logPage + 1 }) } ∧
        u.nand.pages.find (pageKey 5 z.logPage) = some ⟨4, z.logPage / blkPages s, s.nand.progs⟩ ∧ u.mem = s.mem ∧ u.cmd = s.cmd)))

/-- 100 ms after its first unprogrammed record a ready and unfrozen log with nothing in the hold queue programs its page, short of the last page of a block: the page's records are in the
main log and out of the write buffer, the page has its metadata, and one page write is counted. Each second with VDD_AON applied adds one to the operating seconds, modulo 2³². A snapshot
not read for 60 s is lost and SNAP_LOST sets. -/
def Obligations.LogTimers : Prop :=
  ∀ (t w : Nat) (p : Path) (x : Snap) (s : State),
    (s.recorder.wbufSince = some w → w + ms 100 ≤ (s.at t).now → logReady s = true → s.nand.fault = false → s.recorder.frozen = false →
      s.recorder.wbuf ≠ [] → s.recorder.wbuf.length ≤ recsPerPage s → s.recorder.hold = [] → s.recorder.holdRun = false →
      logNext s s.recorder.logPage % blkPages s ≠ 0 →
      ∃ u, exec (.logPageTimer t) s = .next u ∧ u.recorder = { s.recorder with
          wbuf := [], wbufSince := none, logPage := logNext s s.recorder.logPage
          main := s.recorder.main ++ (sortRecs s.recorder.wbuf).map (fun x => { x with page := s.recorder.logPage + 1 }) } ∧
        u.nand.pages.find (pageKey 5 s.recorder.logPage) = some ⟨4, s.recorder.logPage / blkPages s, s.nand.progs⟩ ∧
        u.nand.ctr = ctrAdd s.nand.ctr 1 1 ∧ u.regs = s.regs ∧ u.mem = s.mem ∧ u.cmd = s.cmd) ∧
    (s.chip.aonOn = true → exec (.opsecTick t) s =
      .next { s.at t with recorder := { s.recorder with opsec := (s.recorder.opsec + 1) % 2 ^ 32 } }) ∧
    (snapOf s p = some x → x.lastRead + secs 60 ≤ (s.at t).now →
      exec (.snapTimeout t p) s = .next ((setSnap (s.at t) p none).raise LOG.LOG_CAUSE 6))

/-- With STORE on: the start-up sequence that finds a geometry the manager can use and a good header, no record waiting for the log, leaves the medium present, ready and laid out by that geometry; one that
finds a geometry it cannot use leaves it failed with GEOM_ERR. A failed erase or program is counted and retires its block: the free block of SPARE that is worn least takes over the logical
block, with its cause and event. An operation that passes ends a SCRUB in progress: with OK, or with FAILED and DETAIL 1 where a page of its partitions has an uncorrectable sector. An operation
that times out fails the medium with cause 1, and its block if it has one: it is no longer ready, the log is degraded, LOG_MEDIUM_FAULT takes the next number and stands in the fall-back area where
nothing else waits, and both snapshots are gone. During a retry it ends the retry instead. Ten seconds after a failure a retry begins; a retry that finds a usable medium brings it back, any other ends
with the medium still failed and a new time of failure. -/
def Obligations.NandMediumLifecycle : Prop :=
  ∀ (t b k r f p : Nat) (er : Bool) (blk : Option Nat) (c : Cmd) (errs : List (List Nat)) (g : NandGeom) (s : State), (s.at t).blkOn bSTORE = true →
    let none_ := s.recorder.hold = [] ∧ s.recorder.holdRun = false ∧ s.recorder.pend = [] ∧ s.chip.coreLost = false
    let counted := { s.at t with nand := { s.nand with ctr := ctrAdd s.nand.ctr (if er then 7 else 6) 1, retired := b :: s.nand.retired } }
    let again := { s.at t with nand := { s.nand with retrying := false, failAt := some (s.at t).now } }
    (s.nand.present = false → geomOk g = true → g.headerOk = true → s.recorder.frozen = false → none_ →
      ∃ u, exec (.nandOpComplete t (.started g)) s = .next u ∧ u.nand.present = true ∧ u.nand.ready = true ∧ u.nand.fault = false ∧
        u.nand.pageSize = g.pageSize ∧ u.nand.ppb = g.ppb ∧ u.nand.gbit = g.gbit ∧ u.nand.ce1 = g.ce1 ∧ u.mem = s.mem ∧ u.regs = s.regs) ∧
    (s.nand.present = false → s.nand.fault = false → geomOk g = false →
      ∃ u, exec (.nandOpComplete t (.started g)) s = .next u ∧ u.nand.present = true ∧ u.nand.ready = false ∧ u.nand.fault = true ∧
        u.nand.geomErr = true ∧ u.recorder.degraded = true) ∧
    (s.nand.ready = true → s.nand.retired.contains b = false → logicalOf s b = some k → leastWorn counted (spareBlocks counted) = some r →
      exec (.nandOpComplete t (.fail er b)) s = .next (((moveBlock counted k r).raise STORE.STORE_CAUSE 2).emit .control 0xD00B sevWARNING 0 [])) ∧
    (s.nand.ready = true → s.nand.scrub = some p → s.cmd.started = [⟨c, none⟩] → c.op = 0x12 → c.src = .spi → s.cmd.mode = .run → s.cmd.done.length < 32 →
      let l := (patrolPages s).filter (fun k => (scrubParts p).contains (k / 2 ^ 20))
      let found := l.any (fun k => s.nand.bad.any (fun b => b / 4 == k)) || (List.range l.length).any (fun i => (errs.getD i []).any (fun e => decide (40 < e)))
      ∃ u, exec (.nandOpComplete t (.pass errs)) s = .next u ∧ u.nand.scrub = none ∧ u.cmd.started = [] ∧
        u.cmd.done = s.cmd.done ++ [⟨0x12, c.tag, if found then cFAILED else cOK, .spi, b2n found⟩]) ∧
    (s.nand.retrying = false → s.nand.fault = false → s.fld LOG.LOG_CTL LOG.LOG_CTL_MIN_SEV ≤ 5 →
      ∃ u, exec (.nandOpTimeout t blk) s = .next u ∧
        u.nand = { s.nand with present := true, fault := true, ready := false, failAt := some (s.at t).now, retrying := false } ∧
        u.recorder.degraded = true ∧ u.recorder.nextSeq = (s.recorder.nextSeq + 1) % 2 ^ 32 ∧ snapOf u .spi = none ∧ snapOf u .pcie = none ∧
        u.mem = s.mem ∧ u.cmd = s.cmd ∧
        (s.recorder.wbuf = [] → s.recorder.hold = [] → s.recorder.fbFirst.length < 128 → u.recorder.fbFirst = s.recorder.fbFirst ++
          [⟨s.recorder.nextSeq, s.recorder.opsec, s.recorder.pcyc, 0xD001, 5, 0, true, false, [1, blk.getD 0xFFFFFFFF, 0, 0], 0⟩])) ∧
    (s.nand.retrying = true → exec (.nandOpTimeout t blk) s = .next again) ∧
    (s.nand.failAt = some f → s.nand.fault = true → f + secs 10 ≤ (s.at t).now →
      exec (.mediumRetry t) s = .next { s.at t with nand := { s.nand with retrying := true } }) ∧
    (s.nand.retrying = true → exec (.mediumRetryEnd t none) s = .next again) ∧
    (s.nand.retrying = true → geomOk g = false ∨ (g.headerOk = false ∧ g.headerErased = false) → exec (.mediumRetryEnd t (some g)) s = .next again) ∧
    (s.nand.retrying = true → geomOk g = true → g.headerOk = true → s.recorder.frozen = false → none_ → ∃ u, exec (.mediumRetryEnd t (some g)) s = .next u ∧
      u.nand.ready = true ∧ u.nand.fault = false ∧ u.nand.retrying = false ∧ u.recorder.degraded = false ∧ u.mem = s.mem ∧
      ⟨.control, 0xD002, sevNOTICE, 0, []⟩ ∈ u.recorder.evq)

/-- With STORE on and the medium ready, a patrol read of a page with fewer than 24 errors in every sector counts one page read and the corrected bits and moves to the next programmed page. A transfer
that ends is no longer busy, shows its status and raises XFER_DONE. A length that is no positive multiple of 4 up to 65,536 gives BAD_ARG, a PROGRAM into STATE, LOG or SPARE gives PROTECTED, a failed
medium gives MEDIUM, a range past the partition gives RANGE, a PROGRAM of a partition that a LOAD reads gives IN_USE and one into a page that is not erased gives NOT_ERASED: each moves nothing. Any
other PROGRAM from the start of a page gives OK and each of its bytes is in the partition; a READ whose sectors are sound gives OK and each word of the range of a container partition is in the buffer. -/
def Obligations.PatrolAndTransfer : Prop :=
  ∀ (t p op off len : Nat) (errs : List Nat) (errss : List (List Nat)) (s : State), (s.at t).blkOn bSTORE = true →
    let done := fun (x : State) (code : Nat) => { x with nand := { x.nand with xfer := none, xferBusy := false, xferStatus := code } }.raise STORE.STORE_CAUSE 4
    let fits := 1 ≤ p ∧ p ≤ 6 ∧ len % 4 = 0 ∧ 4 ≤ len ∧ len ≤ 65536 ∧ op < 2
    let ready := s.nand.fault = false ∧ s.nand.ready = true
    let inside := off + len ≤ partBytes s p ∧ rangeGone s p off len = false
    let pages := rangePages (pageLen s) off len
    (s.nand.ready = true → patrolPages (s.at t) ≠ [] → (∀ e ∈ errs, e < 24) →
      let n := (patrolPages (s.at t)).length
      let i := if s.nand.patrol < n then s.nand.patrol else 0
      pageUsed s ((patrolPages s).getD i 0 / 2 ^ 20) ((patrolPages s).getD i 0 % 2 ^ 20) = true →
      ∃ u, exec (.patrolRead t errs) s = .next u ∧ u = { s.at t with nand := { s.nand with
        patrol := (i + 1) % n, fresh := u.nand.fresh
        ctr := ctrAdd (ctrAdd (ctrAdd s.nand.ctr 0 1) 4 (errs.foldl (· + ·) 0)) 5 0 } }) ∧
    (s.nand.xfer = some (p, op, off, len) →
      (len % 4 ≠ 0 ∨ len < 4 ∨ 65536 < len ∨ p = 0 ∨ 6 < p → exec (.xferComplete t errss) s = .next (done (s.at t) xBADARG)) ∧
      (fits → op = 1 → 4 ≤ p → exec (.xferComplete t errss) s = .next (done (s.at t) xPROTECTED)) ∧
      (fits → op = 0 ∨ p < 4 → s.nand.fault = true ∨ s.nand.ready = false → exec (.xferComplete t errss) s = .next (done (s.at t) xMEDIUM)) ∧
      (fits → ready → op = 0 ∨ (p < 4 ∧ off % pageLen s = 0) → partBytes s p < off + len → exec (.xferComplete t errss) s = .next (done (s.at t) xRANGE)) ∧
      (fits → ready → op = 1 → p < 4 → off % pageLen s ≠ 0 → exec (.xferComplete t errss) s = .next (done (s.at t) xBADARG)) ∧
      (fits → ready → inside → op = 1 → p < 4 → off % pageLen s = 0 → loadReads s p = true → exec (.xferComplete t errss) s = .next (done (s.at t) xINUSE)) ∧
      (fits → ready → inside → op = 1 → p < 4 → off % pageLen s = 0 → loadReads s p = false → pages.any (pageUsed s p) = true →
        exec (.xferComplete t errss) s = .next (done (s.at t) xNOTERASED)) ∧
      (fits → ready → inside → op = 1 → p < 4 → off % pageLen s = 0 → loadReads s p = false → pages.any (pageUsed s p) = false →
        ∃ u, exec (.xferComplete t errss) s = .next u ∧ u.nand.xfer = none ∧ u.nand.xferBusy = false ∧ u.nand.xferStatus = xOK ∧
          (∀ k, k < len → nandByte u p (off + k) = BitVec.ofNat 8 ((s.rd (STORE.XFER_BUF (k / 4))).toNat / 2 ^ (8 * (k % 4)))) ∧ pages.all (pageUsed u p) = true ∧ u.mem = s.mem ∧ u.cmd = s.cmd) ∧
      (fits → ready → inside → op = 0 → p < 4 → (∀ l ∈ errss, ∀ e ∈ l, e ≤ 8) → (∀ x ∈ rangeSectors s p off len, x ∉ s.nand.bad) →
        ∃ u, exec (.xferComplete t errss) s = .next u ∧ u.nand.xfer = none ∧ u.nand.xferBusy = false ∧ u.nand.xferStatus = xOK ∧
          (∀ k, k < len / 4 → u.rd (STORE.XFER_BUF k) = BitVec.ofNat 32 (leAt (nandBytes s p (off + 4 * k) 4) 0 4)) ∧
          u.nand.cells = s.nand.cells ∧ u.mem = s.mem ∧ u.cmd = s.cmd))

/-- A low of RESET_N shorter than 100 ns does nothing, and one of 1 µs or more resets the device; in between, which the spec leaves open, a free value decides between the two (log entry 12). A reset, a
brown-out, a loss of VDD_AON and a power-up clear the volatile state and the records not yet programmed (log entry 14), and the device does not run; the NAND device keeps what it holds. RESET_N low and a
brown-out keep the always-on island's copies, the rest of the log, its numbers and the counters; so does a power-up with VDD_AON kept, but that the power cycles count one more. A loss of VDD_AON
leaves of the log its programmed records alone, with every number and counter at 0 and no copy valid. A power-up takes the fuses and the bank levels it senses; after a loss of VDD_AON its power cycle is
the first. A brown-out that stands already, or comes without supplies, does nothing. -/
def Obligations.ResetsClearVolatileState : Prop :=
  ∀ (t lowNs iov pwrd : Nat) (f : Fuses) (s : State),
    let kept := fun (u : State) => State.logKept s u ∧ u.aon = s.aon ∧ u.recorder.wbuf = [] ∧ u.now = (s.at t).now
    let down := fun (u : State) => u.live = false ∧ u.cleared = true ∧ State.mediumKept s u
    (lowNs < 100 → exec (.resetNFall t lowNs) s = .next (s.at t)) ∧
    (1000 ≤ lowNs → ∃ u, exec (.resetNFall t lowNs) s = .next u ∧ u.chip = { s.chip with resetN := false } ∧ down u ∧ kept u ∧
      u.recorder.pcyc = s.recorder.pcyc) ∧
    (100 ≤ lowNs → lowNs < 1000 → ∃ u, exec (.resetNFall t lowNs) s = .next u ∧ u.free = s.free + 1 ∧
      (((s.at t).takeFree 1).1 ≠ 1 → u = ((s.at t).takeFree 1).2) ∧
      (((s.at t).takeFree 1).1 = 1 → u.chip = { s.chip with resetN := false } ∧ down u ∧ kept u)) ∧
    (s.chip.aonOn = true → s.chip.coreOn = true → s.chip.brownout = false → ∃ u, exec (.brownoutAssert t) s = .next u ∧
      u.chip = { s.chip with brownout := true, brownStart := true } ∧ down u ∧ kept u ∧ u.recorder.pcyc = s.recorder.pcyc) ∧
    (s.chip.aonOn = false ∨ s.chip.coreOn = false ∨ s.chip.brownout = true → exec (.brownoutAssert t) s = .next (s.at t)) ∧
    (∃ u, exec (.vddAonLost t) s = .next u ∧ down u ∧ u.chip.aonOn = false ∧ u.chip.coreLost = true ∧ u.aon = .init ∧
      u.recorder = { RecS.init with main := s.recorder.main, logPage := s.recorder.logPage }) ∧
    (∃ u, exec (.powerUp t f iov pwrd) s = .next u ∧ down u ∧ u.chip.fuses = f ∧ u.chip.iov = iov % 512 ∧ u.chip.pwrd = pwrd % 512 ∧
      u.chip.resetN = false ∧ u.chip.coreOn = true ∧ u.chip.aonOn = true ∧ u.chip.brownout = false ∧ kept u ∧
      u.recorder.pcyc = (if s.chip.aonOn then (s.recorder.pcyc + 1) % 2 ^ 32 else 1))

/-- With the supplies up and no brown-out, a rise of RESET_N samples the straps and starts the device: it runs with no command waiting, PD0 to PD2 on, the STC at 0 and every register but the status
of the sequencer and the causes of PWR at its reset value, in BOOT where the fuse checks pass and TEST is low, and otherwise in SAFE with the cause of each failed check. A release of a brown-out with
RESET_N high starts it so, counts a power cycle and records PWR_BROWNOUT; with RESET_N low it only ends the brown-out and counts; and a rise of RESET_N during a brown-out only notes that it is
high. -/
def Obligations.StartEntersBootOrSafe : Prop :=
  ∀ (t : Nat) (st : Straps) (s : State), s.chip.aonOn = true → s.chip.coreOn = true →
    let started := fun (u : State) => u.live = true ∧ u.chip.straps = st ∧ u.chip.fuses = s.chip.fuses ∧ u.mem = [] ∧ u.bankSel = false ∧ u.pwr.on = 7 ∧
      u.time.on = true ∧ u.time.stc = 0 ∧ u.cmd.queue = [] ∧ u.cmd.started = [] ∧ u.cmd.done = [] ∧
      u.cmd.mode = (if Fuses.ok s.chip.fuses = true ∧ st.test = false then .boot else .safe) ∧
      bit u.cmd.safeCause scFUSE = !(Fuses.ok s.chip.fuses) ∧ bit u.cmd.safeCause scTEST = st.test ∧
      (∀ a, a ≠ SYS.CMD_STATUS → a ≠ PWR.CAUSE → u.rd a = resetWord a)
    let ends := { s.at t with chip := { s.chip with brownout := false }, recorder := { s.recorder with pcyc := (s.recorder.pcyc + 1) % 2 ^ 32 } }
    (s.chip.brownout = false → ∃ u, exec (.resetNRise t st) s = .next u ∧ started u) ∧
    (s.chip.brownout = true → exec (.resetNRise t st) s = .next { s.at t with chip := { s.chip with resetN := true } }) ∧
    (s.chip.brownout = true → s.chip.resetN = true → s.chip.brownStart = true → ∃ u, exec (.brownoutRelease t st) s = .next u ∧ started u ∧
      u.chip.brownout = false ∧ u.recorder.pcyc = (s.recorder.pcyc + 1) % 2 ^ 32 ∧ ⟨.aon, 0x1007, sevWARNING, 0, []⟩ ∈ u.recorder.evq) ∧
    (s.chip.brownout = true → s.chip.resetN = false → exec (.brownoutRelease t st) s = .next ends)

/-- In SLEEP with no wake begun, a wake source that the always-on island has enabled is latched under its own code and starts the wake, and changes nothing else: WAKE_IN at the level PIN_POL selects (whose
level is noted), the temperature beyond its threshold, energy on the line of a management port that is not off, and, over RGMII, a frame that passes the MAC's checks and matches a stored wake pattern.
WAKE over SPI completes with OK among the completions that the island holds, where it has room, and starts the wake. -/
def Obligations.WakeSourcesStartTheWake : Prop :=
  ∀ (t k tag : Nat) (nd : Bool) (tj : Int) (frame : List Byte) (s : State), s.live = true → s.cmd.mode = .sleep → s.pwr.waking = false →
    let woken := fun (p : PwrS) c => { s.at t with pwr := { p with wakeLatch := setBit s.pwr.wakeLatch c true, waking := true, wakeAt := (s.at t).now } }
    (bit s.aon.wakeEn 0 = true → exec (.wakeInLevel t (!bit s.aon.wakeEn 1)) s = .next (woken { s.pwr with wakeInPin := !bit s.aon.wakeEn 1 } 0)) ∧
    (bit s.aon.wakeEn 2 = true → s.pwr.hotIgnore = false → tempTrue s tj = true → exec (.temperatureWake t tj) s = .next (woken s.pwr 2)) ∧
    (bit s.aon.wakeEn 3 = true → s.chip.straps.mgmtSel ≠ 3 → exec (.linkEnergyWake t) s = .next (woken s.pwr 3)) ∧
    (bit s.aon.wakeEn 4 = true → s.chip.straps.mgmtSel = 1 ∨ s.chip.straps.mgmtSel = 2 → sleepFrame s frame = true →
      k < 16 → wakeHit (fun a => Tbl.getD s.aon.wakeRegs a (resetWord a)) 2 k frame = true →
      exec (.wakePatternMatch t frame) s = .next (woken s.pwr 4)) ∧
    (s.cmd.sleeping = false → s.cmd.safeCause = 0 → s.cmd.sleepDone.length < 8 → exec (.wake t .spi tag nd 0 0) s = .next { woken s.pwr 1 with
      cmd := { s.cmd with nextOrder := s.cmd.nextOrder + 1, sleepDone := s.cmd.sleepDone ++ [⟨0x0E, tag % 256, cOK, .spi, 0⟩] } })

/-- When a wake's domains are up the device passes to BOOT, or to SAFE where a fuse or test cause stands, with PD0 to PD2 on; it shows the lowest source latched, posts the completions that the always-on island
held, in order, and records PWR_WAKE. A domain due to be on comes up, and one that had been forced off returns. A PCIe link that trains with its domain due shows its width within the
variant's lanes, 2 for 3, and its speed, the domain coming up first where it was off. -/
def Obligations.DomainsComeUp : Prop :=
  ∀ (t d w v : Nat) (bme ext msix fmask : Bool) (s : State), s.live = true →
    (s.cmd.mode = .sleep → s.pwr.waking = true → s.cmd.sleepDone.length ≤ 8 → s.cmd.sleepLost = false →
      ∃ u, exec (.wakeDomainsUp t) s = .next u ∧ u.cmd.mode = (if s.cmd.safeCause % 4 = 0 then .boot else .safe) ∧ u.pwr.on = 7 ∧ u.pwr.waking = false ∧
        u.pwr.wakeLatch = 0 ∧ u.cmd.wakeBoot = true ∧ u.cmd.wakeSrc = lowestSource s.pwr.wakeLatch ∧ u.cmd.wakeSeen = s.pwr.wakeLatch ∧
        u.cmd.sleepDone = [] ∧ u.cmd.done = s.cmd.sleepDone ∧ ⟨.control, 0x1001, sevNOTICE, 0, [s.pwr.wakeLatch % 2 ^ 32]⟩ ∈ u.recorder.evq ∧ u.mem = s.mem) ∧
    (s.cmd.mode ≠ .sleep → 3 ≤ d → d < 12 → domDue s d = true → bit s.pwr.on d = false → ∃ u, exec (.domainUp t d) s = .next u ∧
      u.pwr = { s.pwr with on := setBit s.pwr.on d true, forcedOff := setBit s.pwr.forcedOff d false } ∧ u.now = (s.at t).now ∧
      (s.place.now = none → u.mem = s.mem)) ∧
    (s.cmd.mode ≠ .sleep → domDue { s with pwr := { s.pwr with pcieUp := true } } 10 = true → ∃ u, exec (.pcieLinkUp t w v bme ext msix fmask) s = .next u ∧
      bit u.pwr.on 10 = true ∧ u.pwr.linkTrained = true ∧ u.pwr.pcieUp = true ∧ u.dma.linkUp = true ∧ u.dma.d3 = false ∧ u.dma.speed = Nat.min 4 v ∧
      u.dma.width = (if Nat.min w s.variant.lanes = 3 then 2 else Nat.min w s.variant.lanes) ∧ u.dma.bme = bme ∧ u.dma.extTag = ext ∧
      u.dma.msixEn = msix ∧ u.dma.fmask = fmask ∧ (bit s.pwr.on 10 = true → u.regs = s.regs ∧ u.mem = s.mem ∧ u.cmd = s.cmd))

/-- A measurement shows the temperature. A rise above the warning threshold from at or below it raises its flag and event, a fall to 5 °C below the threshold from above that raises the other, and any other
measurement does neither. A temperature above 125 °C records PWR_OVERTEMP and has the temperature wake source ignored. In RUN with no SLEEP entry under way it begins one, which is to store the running bitstream's
source; in HOLD without a placement and with no image being written the device is in SLEEP at once, with that source and the mode HOLD stored. -/
def Obligations.TemperatureIsActedOn : Prop :=
  ∀ (t : Nat) (tj o : Int) (s : State), s.domOn 1 = true → -1024 ≤ tj → tj < 1024 → s.pwr.tj = some o →
    let warn : Int := ((4 * s.fld PWR.TEMP_CTL PWR.TEMP_CTL_WARN : Nat) : Int)
    let m := { s.at t with pwr := { s.pwr with tj := some tj } }
    let hot : Ev := ⟨.control, 0x1006, sevCRITICAL, 0, [pw tj % 2 ^ 32]⟩
    (o ≤ warn → warn < tj → exec (.temperatureMeasure t tj) s = .next ((m.raise PWR.CAUSE 2).emit .control 0x1004 sevWARNING 0 [pw tj])) ∧
    (warn - 20 < o → tj ≤ warn - 20 → exec (.temperatureMeasure t tj) s = .next ((m.raise PWR.CAUSE 3).emit .control 0x1005 sevNOTICE 0 [pw tj])) ∧
    ((warn < o ∨ tj ≤ warn) → (o ≤ warn - 20 ∨ warn - 20 < tj) → exec (.temperatureMeasure t tj) s = .next m) ∧
    (500 < tj → s.cmd.dirty = false → s.cmd.loading = none → s.cmd.sleeping = false →
      (s.cmd.mode = .run → ∃ u, exec (.pwrOvertemp t tj) s = .next u ∧ u.cmd.sleeping = true ∧ u.cmd.sleepSrc = some s.cmd.cfgSrc ∧ u.pwr.hotSleep = true ∧
        u.pwr.hotIgnore = true ∧ u.cmd.mode = .run ∧ hot ∈ u.recorder.evq) ∧
      (s.cmd.mode = .hold → s.place.now = none → s.cmd.imgJob = none → s.cmd.imgWait = none → ∃ u, exec (.pwrOvertemp t tj) s = .next u ∧
        u.cmd.mode = .sleep ∧ u.aon.bootSrc = s.cmd.cfgSrc ∧ u.aon.resumeRun = false ∧ u.pwr.on = 1 ∧ u.pwr.hotIgnore = true ∧ hot ∈ u.recorder.evq))

/-- A command that the sequencer takes as it arrives and refuses changes nothing but the completion and the NOTICE that R98 gives it: LOAD of a source
outside 1 to 4 and MUTE of a group outside 0 to 4 complete with BAD_ARG, RESET_BLOCK of an absent block with ABSENT, and LOAD in RUN with
ILLEGAL_IN_STATE. START in BOOT, but on a twinned unit that is not ACTIVE, is deferred, or refused with ILLEGAL_IN_STATE where NODEFER is 1. -/
def Obligations.RefusedCommandsHaveNoEffect : Prop :=
  ∀ (t tag a0 a1 : Nat) (nd : Bool) (src : CmdSrc) (s : State), (s.at t).takesNow src = true →
    let n := (s.at t).numbered
    let c := fun op => (s.at t).cmdOf src op tag nd a0 a1
    let no := fun op code => (finish n (c op) code 0).emit .control 0x000F sevNOTICE 0 [op, tag % 256, if src = .spi then 0 else 1, s.modeWord]
    (a0 < 2 ^ 32 → a0 = 0 ∨ 4 < a0 → exec (.load t src tag nd a0 a1) s = .next (no 0x01 cBADARG)) ∧
    (32 ≤ a0 → a0 < 2 ^ 32 → exec (.mute t src tag nd a0 a1) s = .next (no 0x07 cBADARG)) ∧
    (a0 < 19 → s.present a0 = false → a1 = 0 → exec (.resetBlock t src tag nd a0 a1) s = .next (no 0x13 cABSENT)) ∧
    (1 ≤ a0 → a0 < 4 → a1 = 0 → s.cmd.mode = .run → exec (.load t src tag nd a0 a1) s = .next (no 0x01 cILLEGAL)) ∧
    (a0 = 0 → a1 = 0 → s.cmd.mode = .boot → (twinned s && s.twin.role != .active) = false → exec (.start t src tag nd a0 a1) s =
      .next (if nd then no 0x05 cILLEGAL else { n with cmd := { n.cmd with deferred := s.cmd.deferred ++ [c 0x05] } }))

/-- On a unit that is not twinned, or is its pair's ACTIVE unit, in RUN: MUTE of a group not yet muted, UNMUTE of a muted one and STOP are started and wait
for the first epoch that has not been taken at least 100 µs ahead, 2 ms on an ACTIVE unit, which forwards the command with its epoch; COMMIT with ABS
at 0 waits for the same epoch; SELECT_REF and STEP_PHASE at once wait for it too on an ACTIVE unit, elsewhere for the next whole
millisecond. START in HOLD waits so as well, its 10 s counted from when the first START waited. Nothing else changes. -/
def Obligations.EpochCommandsAreHeld : Prop :=
  ∀ (t tag a0 : Nat) (nd : Bool) (src : CmdSrc) (s : State), (s.at t).takesNow src = true → (twinned s && s.twin.role != .active) = false →
    let n := (s.at t).numbered
    let pair := twinned s && s.twin.role == .active
    let e := Nat.max (cdiv ((s.at t).time.stc + if pair then stcMs 2 else 100000 * 2 ^ 56) (stcMs 1)) (s.time.epoch + 1)
    let f := if pair then e else (s.at t).stcMsec + 1
    let held := fun (x : State) op a1 e => mirrorOut { x with cmd := { x.cmd with started := s.cmd.started ++ [⟨(s.at t).cmdOf src op tag nd a0 a1, some e⟩] } }
      (.cmd ⟨op, a0 % 2 ^ 32, a1, e⟩)
    (s.cmd.mode = .run → a0 < 32 → s.cmd.groups ||| a0 ≠ s.cmd.groups → exec (.mute t src tag nd a0 0) s = .next (held n 0x07 0 e)) ∧
    (s.cmd.mode = .run → a0 < 32 → s.cmd.groups &&& a0 ≠ 0 → exec (.unmute t src tag nd a0 0) s = .next (held n 0x08 0 e)) ∧
    (s.cmd.mode = .run → a0 = 0 → s.cmd.safeCause = 0 → exec (.stop t src tag nd a0 0) s = .next (held n 0x06 0 e)) ∧
    (s.cmd.mode = .run → exec (.commit t src tag nd a0 0) s = .next (held n 0x03 0 e)) ∧
    (s.cmd.mode = .run → a0 < 16 → exec (.selectRef t src tag nd a0 0) s = .next (held n 0x09 0 f)) ∧
    (s.cmd.mode = .run → exec (.stepPhase t src tag nd a0 1) s = .next (held n 0x0A 1 f)) ∧
    (s.cmd.mode = .hold → a0 = 0 → exec (.start t src tag nd a0 0) s =
      .next (held { n with cmd := { n.cmd with startWait := some (s.cmd.startWait.getD (s.at t).now) } } 0x05 0 e))

/-- Each of these completes with OK at once, with exactly this effect: LOG_FREEZE freezes an open log, LOG_THAW thaws a frozen one, each with its event;
STEP_PHASE without AT_ONCE, outside a twinned pair, starts a pull of the time offset; on a unit that is not twinned or is ACTIVE, START in RUN, STOP in
HOLD and MUTE of groups all muted change nothing; TAKEOVER on the ACTIVE unit and YIELD on a STANDBY without ISOLATE change nothing; ABORT with no COMMIT
pending and no PARITY cause copies the active banks over the shadow banks. -/
def Obligations.ImmediateCommandsComplete : Prop :=
  ∀ (t tag a0 : Nat) (nd : Bool) (src : CmdSrc) (s : State), (s.at t).takesNow src = true →
    let n := (s.at t).numbered
    let lead := !(twinned s && s.twin.role != .active)
    let ok := fun (x : State) op a0 a1 => finish x ((s.at t).cmdOf src op tag nd a0 a1) cOK 0
    (s.cmd.mode = .run ∨ s.cmd.mode = .hold → s.recorder.frozen = false → exec (.logFreeze t src tag nd 0 0) s =
      .next (ok ({ n with recorder := { s.recorder with frozen := true } }.emit .aon 0xD006 sevNOTICE 0 []) 0x10 0 0)) ∧
    (s.cmd.mode = .run ∨ s.cmd.mode = .hold → s.recorder.frozen = true → exec (.logThaw t src tag nd 0 0) s =
      .next (ok ((thawDrain n).emit .aon 0xD007 sevNOTICE 0 []) 0x11 0 0)) ∧
    (s.cmd.mode = .run → twinned s = false → exec (.stepPhase t src tag nd a0 0) s = .next (ok (stepPhase n (a0 % 2 ^ 32) 0) 0x0A a0 0)) ∧
    (s.cmd.mode = .run → lead = true → exec (.start t src tag nd 0 0) s = .next (ok n 0x05 0 0)) ∧
    (s.cmd.mode = .hold → lead = true → s.cmd.safeCause % 4 = 0 → exec (.stop t src tag nd 0 0) s = .next (ok n 0x06 0 0)) ∧
    (s.cmd.mode = .run → lead = true → a0 < 32 → s.cmd.groups ||| a0 = s.cmd.groups → exec (.mute t src tag nd a0 0) s = .next (ok n 0x07 a0 0)) ∧
    (s.cmd.mode = .run → s.present bTWIN = true → s.twin.role = .active → exec (.takeover t src tag nd 0 0) s = .next (ok n 0x0B 0 0)) ∧
    (s.cmd.mode = .run → s.present bTWIN = true → s.twin.role = .standby → exec (.yield t src tag nd 0 0) s = .next (ok n 0x0C 0 0)) ∧
    (s.cmd.mode = .run → bit s.cmd.safeCause scPARITY = false → (∀ x ∈ s.cmd.started, x.cmd.op ≠ 0x03) → (∀ x ∈ s.cmd.deferred, x.op ≠ 0x03) → exec (.abort t src tag nd 0 0) s =
      .next (ok { copyBanks n [] with cmd := { n.cmd with copying := false, copySkip := [] } } 0x04 0 0))

/-- In RUN: TAKEOVER on a STANDBY with a lane up and Gander heard, and YIELD on the ACTIVE unit, wait for the role change behind any that wait already; SCRUB
starts reading its partitions where none is read, and else waits; SNAPSHOT starts writing a checkpoint of the retained state where the medium is ready
and free, and else waits; RESET_BLOCK of the STORE block holds it until the next eligible epoch, with the volatile fields of its registers at
their reset values unless the image sets them, and its transfer gone; SLEEP begins the entry and waits for the epoch at which the outputs are muted,
with nothing stored yet. -/
def Obligations.LongCommandsStart : Prop :=
  ∀ (t tag a0 : Nat) (nd : Bool) (src : CmdSrc) (s : State), (s.at t).takesNow src = true → s.cmd.mode = .run →
    let n := (s.at t).numbered
    let c := fun op a0 => (s.at t).cmdOf src op tag nd a0 0
    let held := fun (x : State) op a0 e => { x with cmd := { x.cmd with started := s.cmd.started ++ [⟨c op a0, e⟩] } }
    (s.present bTWIN = true → s.twin.role = .standby → s.twin.lanes ≠ 0 → s.twin.gander ≠ .lost → exec (.takeover t src tag nd 0 0) s =
      .next (held { n with twin := { s.twin with takeover := s.twin.takeover ++ [(c 0x0B 0, (s.at t).now)] } } 0x0B 0 none)) ∧
    (s.present bTWIN = true → s.twin.role = .active → a0 < 2 → exec (.yield t src tag nd a0 0) s =
      .next (held { n with twin := { s.twin with
          yield := s.twin.yield ++ [(some (c 0x0C a0), (s.at t).now)]
          yieldIso := decide (a0 = 1) || (!s.twin.yield.isEmpty && s.twin.yieldIso)
          rejoinHeld := s.twin.rejoinHeld || decide (a0 = 1) } } 0x0C a0 none)) ∧
    (a0 < 6 → exec (.scrub t src tag nd a0 0) s = .next (held { n with nand := { s.nand with scrub := some (s.nand.scrub.getD a0) } } 0x12 a0 none)) ∧
    (s.nand.ready = false ∨ s.cmd.imgJob.isSome = true → exec (.snapshot t src tag nd 0 0) s = .next (held n 0x0F 0 none)) ∧
    (s.nand.ready = true → s.cmd.imgJob = none → s.cmd.imgWait = none → (∀ x ∈ s.cmd.started, x.cmd.op ≠ 0x0F) →
      ∃ u, exec (.snapshot t src tag nd 0 0) s = .next u ∧ ∃ j, u.cmd.imgJob = some j ∧ j.cmd = some (c 0x0F 0) ∧ j.image.kind = 2 ∧
        j.image.body = retainedBody (s.at t) ∧ u = held { n with cmd := { n.cmd with imgJob := some j } } 0x0F 0 none) ∧
    (s.present bSTORE = true → ∃ u, exec (.resetBlock t src tag nd bSTORE 0) s = .next u ∧ u.cmd.resetting = bSTORE :: s.cmd.resetting ∧
      (∃ e, u.cmd.started = s.cmd.started ++ [⟨c 0x13 bSTORE, some e⟩] ∧ s.time.epoch < e ∧ (s.at t).time.stc + 100000 * 2 ^ 56 ≤ stcMs e) ∧ u.mem = s.mem ∧
      u.cmd.mode = .run ∧ u.nand.xfer = none ∧ u.nand.xferBusy = false ∧ ((∀ r ∈ s.images, blkOf r.addr ≠ bSTORE) → ∀ e ∈ u.regs, blkOf e.1 = bSTORE →
        e.2 &&& ~~~ keptMask e.1 = resetWord e.1 &&& ~~~ keptMask e.1)) ∧
    (s.cmd.safeCause % 4 = 0 → ∃ u, exec (.sleep t src tag nd 0 0) s = .next u ∧ ∃ x, u.cmd.started.getLast? = some x ∧ u = held { n with
        cmd := { n.cmd with sleeping := true, sleepSrc := none }, pwr := { s.pwr with hotSleep := false } }
        0x0D 0 x.epoch ∧ ∃ e, x.epoch = some e ∧ s.time.epoch < e ∧ (s.at t).time.stc + 100000 * 2 ^ 56 ≤ stcMs e)

/-- LOAD in BOOT, HOLD or SAFE, with nothing else waiting, of a host image or of a partition of a medium that is ready, takes the device to LOAD with that
source and its length, completes with OK, and leaves nothing of the old placement in force; the bytes of a host image that nothing writes are free. APPLY of a loaded container that passes every check and every placement rule, with no fabric part, takes
the device to HOLD where no cause of SAFE stands, with that placement in force, and completes with OK; where the library firmware does not start, it fails with
that code and completes with it. -/
def Obligations.LoadAndApply : Prop :=
  ∀ (t tag a1 : Nat) (nd : Bool) (src : CmdSrc) (l : LoadS) (s : State), (s.at t).takesNow src = true → s.cmd.started = [] → s.cmd.deferred = [] →
    (src = .spi ∨ src = .pcie) →
    let lc := { l with cmd := some ((s.at t).cmdOf src 0x02 tag nd 0 0) }
    let x := applyBegins { (s.at t).numbered with cmd := { (s.at t).numbered.cmd with loading := some lc, applying := true } }
    (s.cmd.mode = .boot ∨ s.cmd.mode = .hold ∨ s.cmd.mode = .safe → s.cmd.safeCause % 4 = 0 → ∀ a0, 1 ≤ a0 → (a0 = 4 → a1 ≤ 25165824) →
      (a0 ≠ 4 → a0 < 4 ∧ a1 = 0 ∧ s.nand.ready = true) → ∃ u, exec (.load t src tag nd a0 a1) s = .next u ∧ u.cmd.mode = .load ∧ u.cmd.prev = s.cmd.mode.code ∧
      u.cmd.loading = some ⟨if a0 = 4 ∧ src = .spi then 5 else a0, if a0 = 4 then a1 else partBytes s a0, false, s.cmd.mode, s.cmd.cfgSrc, none,
        s.free, [], []⟩ ∧ u.free = s.free + (if a0 = 4 then a1 else 0) ∧ u.cmd.cfgSrc = 0 ∧ u.place.now = none ∧
      u.cmd.done.getLast? = some ⟨0x01, tag % 256, cOK, src, 0⟩) ∧
    (s.cmd.mode = .load → s.cmd.loading = some l → l.auto = false → s.cmd.safeCause = 0 →
      fabPart x = false → ∀ k p on, applyFront x lc = .ok k → (placeInOf (adoptPeerFaults x k.c.configId) k []).place = .ok (p, on) →
      ∃ u, exec (.apply t src tag nd 0 0) s = .next u ∧ u.cmd.loading = none ∧ u.cmd.applying = false ∧
        (fwStarts k = true → u.cmd.mode = .hold ∧ u.place.now = some p ∧ u.cmd.done.getLast? = some ⟨0x02, tag % 256, cOK, src, 0⟩) ∧
        (fwStarts k = false → l.begun = .boot → u.place.rejCode = 0x070 ∧ u.cmd.done.getLast? = some ⟨0x02, tag % 256, cFAILED, src, 0x070⟩))

/-- With one command started for an epoch that has come, and nothing deferred, COMMIT_EPOCH takes it and the started list is empty after it: MUTE adds its
groups to the muted ones and UNMUTE takes them away; STOP in RUN leaves the device in HOLD; START in HOLD with the media clock locked or in holdover
leaves it in RUN; a block reset by RESET_BLOCK resumes; COMMIT in RUN or HOLD exchanges the two banks of the transmit stream and pathway tables, word for
word, keeps the banks that were in force until the epoch, counts the swap and shows the epoch's millisecond. With nothing started, an epoch moves nothing but the count of epochs. -/
def Obligations.EpochTakesStartedCommands : Prop :=
  ∀ (t e : Nat) (c : Cmd) (s : State), (s.at t).plainEpoch = true → s.cmd.deferred = [] →
    (s.cmd.started = [] → exec (.commitEpoch t) s = .next { s.at t with time := { (s.at t).time with epoch := (s.at t).stcMsec } }) ∧
    (s.cmd.started = [⟨c, some e⟩] → e ≤ (s.at t).stcMsec →
      (c.op = 0x07 → ∃ u, exec (.commitEpoch t) s = .next u ∧ u.cmd.groups = s.cmd.groups ||| c.arg0 ∧ u.cmd.started = [] ∧ u.cmd.mode = s.cmd.mode ∧
        u.time.epoch = (s.at t).stcMsec ∧ u.mem = s.mem) ∧
      (c.op = 0x08 → ∃ u, exec (.commitEpoch t) s = .next u ∧ u.cmd.groups = s.cmd.groups - (s.cmd.groups &&& c.arg0) ∧ u.cmd.started = [] ∧
        u.cmd.mode = s.cmd.mode ∧ u.mem = s.mem) ∧
      (c.op = 0x06 → s.cmd.mode = .run → ∃ u, exec (.commitEpoch t) s = .next u ∧ u.cmd.mode = .hold ∧ u.cmd.prev = 3 ∧ u.cmd.started = [] ∧
        u.mem = s.mem) ∧
      (c.op = 0x05 → s.cmd.mode = .hold → clockReady s = true → ∃ u, exec (.commitEpoch t) s = .next u ∧ u.cmd.mode = .run ∧ u.cmd.prev = 4 ∧
        u.cmd.startWait = none ∧ u.cmd.started = [] ∧ u.mem = s.mem) ∧
      (c.op = 0x13 → ∃ u, exec (.commitEpoch t) s = .next u ∧ u.cmd.resetting = s.cmd.resetting.filter (fun b => b != c.arg0) ∧ u.cmd.started = [] ∧
        u.cmd.mode = s.cmd.mode ∧ u.mem = s.mem) ∧
      (c.op = 0x03 → s.cmd.mode = .run ∨ s.cmd.mode = .hold → ∃ u, exec (.commitEpoch t) s = .next u ∧ u.bankSel = !s.bankSel ∧
        u.banks.head? = some ⟨stcMs e, s.bankSel, s.regs⟩ ∧ u.cmd.swaps = (s.cmd.swaps + 1) % 65536 ∧
        u.cmd.lastMs = e % 1000 ∧ u.cmd.copying = true ∧ u.cmd.started = [] ∧ u.mem = s.mem ∧
        ∀ a, blkOf a = bSTX ∨ blkOf a = bROUTE → u.rd a = s.rd (swapBank a)))

/-- While a copy is due, BANK_COPY_DONE leaves every word of a table the same in both banks, but for entries that software has written since the swap.
A journal image that is stored becomes the newest one, its sequence number and CRC are held in the always-on island, and no image is being
written any more; no register but the causes of the log and of the medium changes. A START that has waited 10 s in HOLD without a locked clock takes the device to RUN and completes. -/
def Obligations.CopyJournalAndUnlockedStart : Prop :=
  ∀ (t a : Nat) (i : Image) (c : Cmd) (e : Option Nat) (s : State),
    (s.cmd.copying = true → ∃ u, exec (.bankCopyDone t) s = .next u ∧ u.cmd.copying = false ∧
      u.bankSel = s.bankSel ∧ u.mem = s.mem ∧ (∀ a, isShadow a = true → u.rd a = s.rd (if s.cmd.copySkip.contains (entryOf a) then a else swapBank a)) ∧ (∀ a, isShadow a = false → u.rd a = s.rd a)) ∧
    (s.cmd.imgJob = some ⟨i, none⟩ → i.kind = 1 → s.nand.ready = true → s.cmd.imgWait = none → s.cmd.sleeping = false →
      (∀ x ∈ s.cmd.started, x.cmd.op ≠ 0x0F) → ∃ u, exec (.journalImageStored t true) s = .next u ∧
        u.cmd = { s.cmd with imgJob := none } ∧ u.aon = { s.aon with journal := some (i.seq, i.crc) } ∧
        (u.nand.images.map (fun x => (x.seq, x.crc, x.body))).head? = some (i.seq, i.crc, i.body) ∧ u.mem = s.mem ∧
        ∀ x, x ≠ LOG.LOG_CAUSE → x ≠ STORE.STORE_CAUSE → u.rd x = s.rd x) ∧
    (s.cmd.startWait = some a → s.cmd.dirty = false → s.cmd.mode = .hold → clockReady s = false → s.domOn 1 = true → a + secs 10 ≤ (s.at t).now →
      s.cmd.queue = [] → s.cmd.deferred = [] → s.cmd.started = [⟨c, e⟩] → c.op = 0x05 → ∃ u, exec (.startUnlockedTimeout t) s = .next u ∧
        u.cmd.mode = .run ∧ u.cmd.prev = 4 ∧ u.cmd.startWait = none ∧ u.cmd.started = [] ∧ u.mem = s.mem)

/-- A lockstep mismatch stops the control cores and records LOCKSTEP_MISMATCH; a second within 1 s of the first takes a running device to SAFE. When the
restart is done a calm sequencer goes on; 1 s after it with no further mismatch the cause of SAFE ends. Automatic boot, of CFG_A and CFG_B in the order of
the PREF_CFG that the always-on island holds and then of BOOT, or of BOOT alone, takes BOOT to LOAD with the first of these, and the others follow. -/
def Obligations.LockstepAndAutomaticBoot : Prop :=
  ∀ (t a : Nat) (s : State), s.domOn 1 = true →
    (s.cmd.mode = .run → ∃ u, exec (.lockstepMismatch t) s = .next u ∧ u.cmd.restarting = true ∧ u.cmd.mismatchAt = some (s.at t).now ∧
      ⟨.control, 0x0006, sevCRITICAL, 0, []⟩ ∈ u.recorder.evq ∧
      (s.cmd.mismatchAt = none → u.cmd.mode = .run ∧ u.cmd.safeCause = s.cmd.safeCause) ∧
      (s.cmd.mismatchAt = some a → (s.at t).now ≤ a + secs 1 → u.cmd.mode = .safe ∧ bit u.cmd.safeCause scLOCKSTEP = true)) ∧
    (s.cmd.restarting = true → s.calm = true → s.cmd.heldAborts = [] → exec (.controlCoreRestartDone t) s =
      .next { s.at t with cmd := { s.cmd with restarting := false, restartAt := some (s.at t).now } }) ∧
    (s.cmd.restarting = false → s.cmd.restartAt = some a → a + secs 1 ≤ (s.at t).now → ∃ u, exec (.lockstepCauseExpiry t) s = .next u ∧
      bit u.cmd.safeCause scLOCKSTEP = false ∧ u.cmd.mode = s.cmd.mode ∧ u.regs = s.regs ∧ u.mem = s.mem ∧
      ∀ b, b ≠ scLOCKSTEP → bit u.cmd.safeCause b = bit s.cmd.safeCause b) ∧
    (s.cmd.restarting = false → s.cmd.mode = .boot → s.cmd.waitLoad = false → s.cmd.loading = none → s.cmd.safeCause % 4 = 0 → s.cmd.wakeBoot = false →
      s.cmd.started = [] → s.cmd.deferred = [] → s.cmd.queue = [] → s.cmd.dirty = false →
      (s.chip.straps.bootSel = 1 → ∃ u, exec (.automaticBoot t) s = .next u ∧ u.cmd.mode = .load ∧ u.cmd.prev = 1 ∧ u.mem = s.mem ∧
        u.cmd.loading = some ⟨3, partBytes s 3, true, .boot, 0, none, 0, [], []⟩) ∧
      (s.chip.straps.bootSel = 0 → s.aon.prefCfg = some (a % 2) → ∃ u, exec (.automaticBoot t) s = .next u ∧ u.cmd.mode = .load ∧ u.cmd.prev = 1 ∧
        u.mem = s.mem ∧ u.cmd.loading = some ⟨1 + a % 2, partBytes s (1 + a % 2), true, .boot, 0, none, 0, [], [2 - a % 2, 3]⟩))

/-- With no MDIO frame under way, a write of MDIO_CMD with GO starts the frame that its row names: write has OP 1, read OP 2, or 3 with CL45, address has
CL45 and OP 0, read-increment CL45 and OP 2. The frame is busy and on its way; no other register changes. When a frame ends, and nothing else
happens at that instant, GO and busy clear, and RDATA shows the data of a read. -/
def Obligations.MdioFrames : Prop :=
  ∀ (t v rdata : Nat) (p : Path) (s : State),
    (s.plainWrite bMACM = true → s.macM.mdioBusy = false →
      let sent := fun (o : Host.Outcome State Fault Refusal) (cl op : Nat) => ∃ u, o = .next u ∧ State.onlyWord s u MAC.MDIO_CMD ∧
        u.macM = { s.macM with mdioBusy := true, mdioRead := mdioReads (u.rd MAC.MDIO_CMD), mdioSent := u.rd MAC.MDIO_CMD :: s.macM.mdioSent } ∧
        u.fld MAC.MDIO_CMD MAC.MDIO_CMD_GO = 1 ∧ u.fld MAC.MDIO_CMD MAC.MDIO_CMD_CL45 = cl ∧ u.fld MAC.MDIO_CMD MAC.MDIO_CMD_OP = op ∧
        (u.path p).last = ⟨0, 0⟩
      let c := MAC.MDIO_CMD_CL45.get (BitVec.ofNat 32 v)
      sent (exec (.mdioWrite t p v) s) c 1 ∧ sent (exec (.mdioRead t p v) s) c (2 + c) ∧ sent (exec (.mdioAddress t p v) s) 1 0 ∧
        sent (exec (.mdioReadIncrement t p v) s) 1 2) ∧
    (s.now < t → (s.at t).blkOn bMACM = true → s.macM.mdioBusy = true → s.macM.mdioRead = true → exec (.mdioFrameEnd t rdata) s =
      .next { ((s.at t).setFld MAC.MDIO_CMD MAC.MDIO_CMD_GO 0).setFld MAC.MDIO_STATUS MAC.MDIO_STATUS_RDATA rdata with
        macM := { s.macM with mdioBusy := false } }) ∧
    (s.now < t → (s.at t).blkOn bMACM = true → s.macM.mdioBusy = true → s.macM.mdioRead = false → exec (.mdioFrameEnd t rdata) s =
      .next { (s.at t).setFld MAC.MDIO_CMD MAC.MDIO_CMD_GO 0 with macM := { s.macM with mdioBusy := false } })

/-- Writes that a unit other than a STANDBY takes. A new rate that the variant has, on a port with no link, shows in MAC_CTL and as the rate in force with its
event. KILL_CLEAR takes the bits written 1 out of a word of KILLED, but for those that hardware sets at that instant. CW_APPLY of a placed node asks for
its words to be taken at its next block and reads back with GO at 0. A changed flow word is stored and recorded, and its flow, if it has one, is DOWN
until the next APPLY. No other register changes. -/
def Obligations.StreamAndFabricWrites : Prop :=
  ∀ (t v k : Nat) (rx : Bool) (p : Path) (s : State), (twinned s && s.twin.role == .standby) = false →
    (s.plainWrite (portBlk k) = true → k < 2 → MAC.MAC_CTL_RATE.get (BitVec.ofNat 32 v) ≠ s.fld (MAC.MAC_CTL k) MAC.MAC_CTL_RATE →
      MAC.MAC_CTL_RATE.get (BitVec.ofNat 32 v) ≤ s.variant.media → linkUp s k = false → ∃ u, exec (.rateChanged t p k v) s = .next u ∧
        State.onlyWordOr s u (MAC.MAC_CTL k) (MAC.MAC_STATUS k) ∧ u.rd (MAC.MAC_CTL k) = merged (s.rd (MAC.MAC_CTL k)) 0xFF (BitVec.ofNat 32 v) ∧
        u.fld (MAC.MAC_STATUS k) MAC.MAC_STATUS_RATE_ACT = MAC.MAC_CTL_RATE.get (BitVec.ofNat 32 v) ∧ ⟨portIsl k, 0x4003, sevWARNING, k, []⟩ ∈ u.recorder.evq) ∧
    (s.plainWrite (if rx then bSRX else bSTX) = true → k < 32 → ∃ u, exec (.killClear t p rx k v) s = .next u ∧
      State.onlyWord s u (if rx then SRX.KILLED k else STX.KILLED k) ∧
      u.rd (if rx then SRX.KILLED k else STX.KILLED k) = s.rd (if rx then SRX.KILLED k else STX.KILLED k) &&&
        ~~~ (BitVec.ofNat 32 v &&& ~~~ (s.at t).setNow (if rx then SRX.KILLED k else STX.KILLED k))) ∧
    (s.plainWrite bDSPC = true → s.fld DSPC.CW_APPLY DSPC.CW_APPLY_GO = 0 → (nodeP s (DSPC.CW_APPLY_NODE.get (BitVec.ofNat 32 v))).isSome = true →
      ∃ u, exec (.cwApply t p v) s = .next u ∧ State.onlyWord s u DSPC.CW_APPLY ∧ u.fld DSPC.CW_APPLY DSPC.CW_APPLY_GO = 0 ∧
        (nodeOf u (DSPC.CW_APPLY_NODE.get (BitVec.ofNat 32 v))) = { nodeOf s (DSPC.CW_APPLY_NODE.get (BitVec.ofNat 32 v)) with cwPend := true }) ∧
    (s.plainWrite bFAB = true → k < 256 → merged (s.rd (FAB.FLOW_W0 k)) 0x1FFFFFFF (BitVec.ofNat 32 v) ≠ s.rd (FAB.FLOW_W0 k) →
      ∃ u, exec (.fabricFlowWrite t p k v) s = .next u ∧ u.rd (FAB.FLOW_W0 k) = merged (s.rd (FAB.FLOW_W0 k)) 0x1FFFFFFF (BitVec.ofNat 32 v) ∧
        ((fabFlow s k).st = 1 ∨ (fabFlow s k).st = 2 → (fabFlow u k).st = 2 ∧ (fabFlow u k).stopped = true) ∧ (∀ x, x ≠ FAB.FLOW_W0 k → u.rd x = s.rd x) ∧ ⟨.fabric, 0xC00B, sevWARNING, 0, [k]⟩ ∈ u.recorder.evq ∧
        u.mem = s.mem ∧ u.cmd = s.cmd)

/-- Writes that a unit other than a STANDBY takes. A changed REF_CFG word starts its slot afresh, OFF where the type names nothing and NEW otherwise. A changed PTP_CTL word starts its instance afresh,
INITIALIZING with EN at 1 and DISABLED with EN at 0. SEC_LOAD_ARM sets GO and clears REFUSED where no time-of-day reference is in use, and is refused
otherwise. FPG_ALIGN_REQUEST takes the moment of the request where the generator has a source, and reads back 0 where it has none. -/
def Obligations.TimeBlockWrites : Prop :=
  ∀ (t v k : Nat) (p : Path) (s : State), s.plainWrite bTIME = true → (twinned s && s.twin.role == .standby) = false → v < 2 ^ 32 →
    (k < 16 → merged (s.rd (TIME.REF_CFG k)) 0x7FFF (BitVec.ofNat 32 v) ≠ s.rd (TIME.REF_CFG k) → ∃ u, exec (.refCfgWrite t p k v) s = .next u ∧
      State.onlyWord s u (TIME.REF_CFG k) ∧ u.rd (TIME.REF_CFG k) = merged (s.rd (TIME.REF_CFG k)) 0x7FFF (BitVec.ofNat 32 v) ∧
      slotOf u k = { SlotS.init with st := if slotType u k = 0 then .off else .new, since := (s.at t).now }) ∧
    (k < 6 → ptpHere s k = true → merged (s.rd (TIME.PTP_CTL k)) 0x1FFFF (BitVec.ofNat 32 v) ≠ s.rd (TIME.PTP_CTL k) → ∃ u, exec (.ptpRestart t p k 0 v) s = .next u ∧
      State.onlyWordOr s u (TIME.PTP_CTL k) TIME.CAUSE ∧ u.rd (TIME.PTP_CTL k) = merged (s.rd (TIME.PTP_CTL k)) 0x1FFFF (BitVec.ofNat 32 v) ∧
      (ptpOf u k).st = (if u.fld (TIME.PTP_CTL k) TIME.PTP_CTL_EN = 0 then .disabled0 else .initializing) ∧ (ptpOf u k).best = none) ∧
    (∃ u, exec (.secLoadArm t p v) s = .next u ∧ State.onlyWord s u TIME.SEC_LOAD_HI ∧
      u.fld TIME.SEC_LOAD_HI TIME.SEC_LOAD_HI_GO = (if todInUse s then 0 else 1) ∧
      u.fld TIME.SEC_LOAD_HI TIME.SEC_LOAD_HI_REFUSED = (if todInUse s then 1 else 0)) ∧
    (k < 4 → ∃ u, exec (.fpgAlignRequest t p k v) s = .next u ∧ State.onlyWord s u (TIME.FPG_CTL k) ∧
      (fpgSrc u k ≠ 0 → (fpgOf u k).alignAt = some (s.at t).time.stc ∧ u.fld (TIME.FPG_CTL k) TIME.FPG_CTL_ALIGN = 1) ∧
      (fpgSrc u k = 0 → u.fld (TIME.FPG_CTL k) TIME.FPG_CTL_ALIGN = 0))

/-- Writes that a unit other than a STANDBY takes. An update of synthesiser 1 to 3 takes a legal family, post-divider and multiple into force with ERR at 0,
and keeps the old ones with ERR at 1 otherwise; UPD reads back 0. Enabling one starts it from its dither seed, unlocked, with no comparison counted;
disabling it stops it. The control of synthesiser 0 is read only. SSY_CTL keeps a spread that the device allows for the next spread period, and
not another. An output's control, divider and delay are stored, a divider of 0 as at least 1, and a changed source or phase forgets the
placement by SYNC_IN. SYNC_ARM sets ARM. -/
def Obligations.ClkBlockWrites : Prop :=
  ∀ (t v k : Nat) (p : Path) (s : State), s.plainWrite bCLK = true → (twinned s && s.twin.role == .standby) = false → v < 2 ^ 32 →
    let w := BitVec.ofNat 32 v
    let fam := Nat.min 2 (CLK.MSY_CTL_FAM.get w)
    let post := CLK.MSY_CTL_POST.get w
    let mult := s.fld (msyFreqA k) CLK.MSY_FREQ_MULT
    (exec (.msyUpdate t p 0 v) s = .next ((s.at t).ended p)) ∧
    (1 ≤ k → k < 4 → ∃ u, exec (.msyUpdate t p k v) s = .next u ∧
      u.fld (msyCtlA k) CLK.MSY_CTL_UPD = 0 ∧ State.onlyWordOr s u (msyCtlA k) CLK.CAUSE ∧
      (msyLegal fam post mult = true → u.fld (msyCtlA k) CLK.MSY_CTL_ERR = 0 ∧ ((msyOf u k).fam, (msyOf u k).post, (msyOf u k).mult) = (fam, post, mult)) ∧
      (msyLegal fam post mult = false → u.fld (msyCtlA k) CLK.MSY_CTL_ERR = 1 ∧
        ((msyOf u k).fam, (msyOf u k).post, (msyOf u k).mult) = ((msyOf s k).fam, (msyOf s k).post, (msyOf s k).mult))) ∧
    (1 ≤ k → k < 4 → CLK.MSY_CTL_UPD.get w = 0 → s.fld (msyCtlA k) CLK.MSY_CTL_UPD = 0 → CLK.MSY_CTL_EN.get w ≠ s.fld (msyCtlA k) CLK.MSY_CTL_EN →
      ∃ u, exec (.msyEnableWrite t p k v) s = .next u ∧ State.onlyWord s u (msyCtlA k) ∧ (msyOf u k).lock = false ∧ (msyOf u k).held = false ∧
        (CLK.MSY_CTL_EN.get w = 1 → (msyOf u k).run = true ∧ (msyOf u k).relock = true ∧ (msyOf u k).dither = (s.rd (CLK.MSY_SEED k)).toNat ∧
          (msyOf u k).ditherFrom = (s.at t).now ∧ (msyOf u k).good = 0 ∧ (msyOf u k).bad = 0) ∧
        (CLK.MSY_CTL_EN.get w = 0 → (msyOf u k).run = false ∧ (msyOf u k).relock = false)) ∧
    (∃ u, exec (.ssyCtlWrite t p v) s = .next u ∧ State.onlyWordOr s u CLK.SSY_CTL CLK.CAUSE ∧
      (let c := u.fld CLK.SSY_CTL CLK.SSY_CTL_CENTRE == 1
       let d := u.fld CLK.SSY_CTL CLK.SSY_CTL_DEPTH
       1 ≤ d ∧ d ≤ 20 ∧ (CLK.SSY_CTL_SSC_EN.get w = 0 → u.clk.spreadPend = some ⟨false, false, 0⟩) ∧
       (CLK.SSY_CTL_SSC_EN.get w = 1 → spreadOk s.clk.maxSpread c d = true → u.clk.spreadPend = some ⟨true, c, d⟩) ∧
       (CLK.SSY_CTL_SSC_EN.get w = 1 → spreadOk s.clk.maxSpread c d = false → u.clk.spreadPend = s.clk.spreadPend))) ∧
    (k < 16 → ∃ u, exec (.clkoutConfigWrite t p k 0 v) s = .next u ∧ State.onlyWord s u (CLK.CLKOUT_CTL k) ∧
      u.rd (CLK.CLKOUT_CTL k) = merged (s.rd (CLK.CLKOUT_CTL k)) 0xFF w ∧
      (u.fld (CLK.CLKOUT_CTL k) CLK.CLKOUT_CTL_SRC ≠ s.fld (CLK.CLKOUT_CTL k) CLK.CLKOUT_CTL_SRC ∨
        u.fld (CLK.CLKOUT_CTL k) CLK.CLKOUT_CTL_PHASE ≠ s.fld (CLK.CLKOUT_CTL k) CLK.CLKOUT_CTL_PHASE → (outOf u k).placed = none)) ∧
    (k < 16 → ∃ u, exec (.clkoutConfigWrite t p k 1 v) s = .next u ∧ State.onlyWord s u (CLK.CLKOUT_DIV k) ∧
      u.rd (CLK.CLKOUT_DIV k) = clkoutDivValue s k (merged (s.rd (CLK.CLKOUT_DIV k)) (typeMask (CLK.CLKOUT_DIV k) (fun x => x == .rw)) w)) ∧
    (k < 16 → ∃ u, exec (.clkoutConfigWrite t p k 2 v) s = .next u ∧ State.onlyWord s u (CLK.CLKOUT_DLY k) ∧
      u.rd (CLK.CLKOUT_DLY k) = merged (s.rd (CLK.CLKOUT_DLY k)) 0x1FFFFFF w) ∧
    (∃ u, exec (.syncArm t p v) s = .next u ∧ State.onlyWord s u CLK.SYNC_CTL ∧ u.fld CLK.SYNC_CTL CLK.SYNC_CTL_ARM = 1)

/-- Writes that a unit other than a STANDBY takes. A side of a present port whose EN falls is off; one whose EN rises with settings that the side can run
starts to anchor, or waits for its outside clock; settings it cannot run leave it in CFG_ERR with its event. A mask that selects no more channels than
the placement gives the side is stored; one that selects more is refused with its event, and the old mask stands; on a side that its settings
leave as it is no other register but its faults changes. A gain is stored, and its output moves towards the level that it and the mutes want. -/
def Obligations.AportWrites : Prop :=
  ∀ (t v x : Nat) (p : Path) (s : State), s.plainWrite bAPORT = true → (twinned s && s.twin.role == .standby) = false →
    let calm := fun (x : Nat) => if s.flag (APORT.SIDE_CTL x) APORT.SIDE_CTL_EN then sideCfgOk s x && (sideOf s x).st != .off && (sideOf s x).st != .cfgErr
      else (sideOf s x).st == .off
    (x < 88 → sideHere s x = true → ∃ u, exec (.sideConfigWrite t p x 0 v) s = .next u ∧ u.mem = s.mem ∧ u.cmd = s.cmd ∧
      (u.fld (APORT.SIDE_CTL x) APORT.SIDE_CTL_EN = 0 → (sideOf u x).st = .off) ∧
      (u.fld (APORT.SIDE_CTL x) APORT.SIDE_CTL_EN = 1 → sideCfgOk u x = true → s.fld (APORT.SIDE_CTL x) APORT.SIDE_CTL_EN = 0 →
        (sideOf u x).st = if sideMaster u x then .anchoring else .wait) ∧
      (u.fld (APORT.SIDE_CTL x) APORT.SIDE_CTL_EN = 1 → sideCfgOk u x = false → (sideOf u x).st = .cfgErr ∧
        ⟨.aport, 0x8008, sevERROR, x, []⟩ ∈ u.recorder.evq)) ∧
    (x < 64 → sideHere s x = true → popcount 32 (maskEff s x (v % 2 ^ 32)) ≤ s.fld (APORT.SIDE_BLOCK x) APORT.SIDE_BLOCK_CH_CAP →
      ∃ u, exec (.maskWrite t p x v) s = .next u ∧ u.rd (APORT.MASK x) = BitVec.ofNat 32 v ∧ u.mem = s.mem ∧ u.cmd = s.cmd ∧
        (calm x = true → State.onlyWord s u (APORT.MASK x) ∧ (sideOf u x).st = (sideOf s x).st)) ∧
    (x < 64 → sideHere s x = true → s.fld (APORT.SIDE_BLOCK x) APORT.SIDE_BLOCK_CH_CAP < popcount 32 (maskEff s x (v % 2 ^ 32)) →
      ∃ u, exec (.maskWrite t p x v) s = .next u ∧ u.rd (APORT.MASK x) = s.rd (APORT.MASK x) ∧ u.mem = s.mem ∧ u.cmd = s.cmd ∧
        ⟨.aport, 0x800A, sevNOTICE, x, []⟩ ∈ u.recorder.evq ∧
        (calm x = true → State.onlyWord s u (APORT.SIDE_FAULT x) ∧ (sideOf u x).st = (sideOf s x).st)) ∧
    (x < 1296 → outHere s x = true → ∃ u, exec (.outGainWrite t p x v) s = .next u ∧ State.onlyWord s u (APORT.OUT_GAIN x) ∧
      u.rd (APORT.OUT_GAIN x) = merged (s.rd (APORT.OUT_GAIN x)) 0x1FFFF (BitVec.ofNat 32 v) ∧ (gainOf u x).eff = (gainOf s x).eff ∧
      (gainOf u x).target = (let g := gainWanted u x u.time.stc; if g = (gainOf s x).eff then none else some g))

/-- A TAIL that posts no more slots than the ring has is stored; one that posts more is refused with its cause and event, and the old TAIL stands. Enabling
a stopped ring that the placement or its kind defines starts it at slot 0 in a new generation; disabling a running one takes EN away.
Unmasking a vector whose message is pending sends it. -/
def Obligations.RingAndVectorWrites : Prop :=
  ∀ (t v r : Nat) (p : Path) (s : State), s.plainWrite bDMA = true →
    (r < 224 → (v % 65536 + 65536 - ringHead s r) % 65536 ≤ 2 ^ s.fld (DMA.RING_SIZE r) DMA.RING_SIZE_LOG2 → ∃ u, exec (.ringTailWrite t p r v) s = .next u ∧
      State.onlyWord s u (DMA.RING_TAIL r) ∧ ringTail u r = v % 65536) ∧
    (r < 224 → 2 ^ s.fld (DMA.RING_SIZE r) DMA.RING_SIZE_LOG2 < (v % 65536 + 65536 - ringHead s r) % 65536 → ∃ u, exec (.ringTailWrite t p r v) s = .next u ∧
      State.onlyWord s u (DMA.RING_CAUSE r) ∧ ⟨.pcie, 0xA001, sevNOTICE, r, []⟩ ∈ u.recorder.evq) ∧
    (r < 256 → ringEn s r = false → isAudioRing r = false ∨ (ringDef s r).isSome = true → ∃ u, exec (.ringEnable t p r v) s = .next u ∧
      ringEn u r = true ∧ ringHead u r = 0 ∧ (s.now < t → ringTail u r = 0) ∧ (u.ring r).gen = (s.ring r).gen + 1 ∧ u.mem = s.mem ∧ u.cmd = s.cmd ∧
      ∀ a, a ≠ DMA.RING_CTL r → a ≠ DMA.RING_HEAD r → a ≠ DMA.RING_TAIL r → u.rd a = s.rd a) ∧
    (r < 256 → ringEn s r = true → ∃ u, exec (.ringDisable t p r v) s = .next u ∧ ringEn u r = false ∧ u.mem = s.mem ∧ State.onlyWord s u (DMA.RING_CTL r)) ∧
    (r < 64 → bit s.dma.pend r = true → s.dma.fmask = false → s.dma.msixEn = true → s.dma.linkUp = true → ∃ u, exec (.msixUnmask t p r v) s = .next u ∧
      State.onlyWord s u (DMA.MSIX_TABLE r 3) ∧ bit (u.rd (DMA.MSIX_TABLE r 3)).toNat 0 = false ∧
      u.dma = { s.dma with pend := setBit s.dma.pend r false, msix := r :: s.dma.msix })

/-- FORM on a lane set of at most 64 units forms the fabric of the units it reaches, with its event, and reads back 0. A keyed write of TWIN_FORCE that forces
ACTIVE on a twinned unit is accepted only once Gander and the peer have been lost for 1 s: the unit is ACTIVE then; otherwise FORCE reads back 0 with the
event of a refusal, and either way the path's unlock is used up. STATE_RESET on the ACTIVE unit sets the restart of the nodes for the first whole
millisecond at least 2 ms ahead, and reads back 0. -/
def Obligations.FabricAndTwinWrites : Prop :=
  ∀ (t v : Nat) (p : Path) (s : State),
    (s.plainWrite bFAB = true → fabPart s = true → FAB.CTL_EN.get (BitVec.ofNat 32 v) = 1 → (fabReach (s.at t)).length ≤ 64 → ∃ u, exec (.form t p v) s = .next u ∧
      u.fld FAB.CTL FAB.CTL_FORM = 0 ∧ u.fab.st = .formed ∧ u.fab.formed = fabReach (s.at t) ∧
      ⟨.fabric, 0xC003, sevNOTICE, 0, []⟩ ∈ u.recorder.evq ∧ u.mem = s.mem ∧ u.cmd = s.cmd) ∧
    (s.plainWrite bTWIN = true → twinned s = true → armed (s.at t) p = true → v % 8 = 5 →
      (s.twin.gander = .lost → s.twin.peerSeen = false → s.twin.lostFrom + secs 1 ≤ (s.at t).now → ∃ u, exec (.twinForceWrite t p v) s = .next u ∧
        u.twin.role = .active ∧ u.twin.forced = true ∧ u.rd TWIN.TWIN_FORCE = merged (s.rd TWIN.TWIN_FORCE) 7 (BitVec.ofNat 32 v) ∧ (u.path p).armedTill = none ∧
        ⟨.fabric, 0xB00F, sevWARNING, 0, []⟩ ∈ u.recorder.evq ∧ u.mem = s.mem) ∧
      (s.twin.gander ≠ .lost ∨ s.twin.peerSeen = true ∨ (s.at t).now < s.twin.lostFrom + secs 1 → ∃ u, exec (.twinForceWrite t p v) s = .next u ∧ u.twin.forced = false ∧
        u.fld TWIN.TWIN_FORCE TWIN.TWIN_FORCE_FORCE = 0 ∧ u.fld TWIN.TWIN_FORCE TWIN.TWIN_FORCE_EN = 1 ∧ (u.path p).armedTill = none ∧ ⟨.fabric, 0xB00E, sevWARNING, 0, []⟩ ∈ u.recorder.evq ∧ u.mem = s.mem)) ∧
    (s.plainWrite bTWIN = true → s.twin.role = .active → ∃ u, exec (.stateReset t p v) s = .next u ∧ u.fld TWIN.RESYNC_CTL TWIN.RESYNC_CTL_STATE_RESET = 0 ∧
      State.onlyWord s u TWIN.RESYNC_CTL ∧ ∃ e, u.twin.stateAt = some e ∧ (s.at t).time.stc + stcMs 2 ≤ stcMs e)

/-- With no transfer under way, XFER_READ and XFER_PROGRAM start one of the partition that the value names, at the offset and length that stand. A keyed
erasure of a partition that no load is reading, on a medium where no block is lost or near its endurance, leaves its blocks without programmed pages and
bytes and every other partition's bytes as they were, with its event and a good status; a keyed format leaves the log empty, with its event. Without the
unlock, either ends LOCKED and changes nothing of the medium. -/
def Obligations.MediumWrites : Prop :=
  ∀ (t v : Nat) (p : Path) (s : State), s.plainWrite bSTORE = true →
    (s.nand.xferBusy = false → ∃ u, exec (.xferRead t p v) s = .next u ∧ State.onlyWord s u STORE.XFER_CTL ∧ u.nand = { s.nand with
      xferBusy := true, xfer := some (v % 8, 0, (s.rd STORE.XFER_OFF).toNat, s.fld STORE.XFER_LEN STORE.XFER_LEN_LEN) }) ∧
    (s.nand.xferBusy = false → ∃ u, exec (.xferProgram t p v) s = .next u ∧ State.onlyWord s u STORE.XFER_CTL ∧ u.nand = { s.nand with
      xferBusy := true, xfer := some (v % 8, 1, (s.rd STORE.XFER_OFF).toNat, s.fld STORE.XFER_LEN STORE.XFER_LEN_LEN) }) ∧
    (armed (s.at t) p = true → s.nand.ready = true → s.nand.fault = false → 1 ≤ v % 8 → v % 8 < 4 → loadReads s (v % 8) = false →
      s.nand.gone = [] → (s.nand.endurance = 0 ∨ (partBlks s (v % 8) < s.nand.endurance ∧ ∀ e ∈ s.nand.wear, e.2 + partBlks s (v % 8) < s.nand.endurance)) →
      ∃ u, exec (.partitionErased t p v) s = .next u ∧ u.nand.xferStatus = xOK ∧
        (∀ e ∈ u.nand.cells, e.1 / 2 ^ 32 = v % 8 → partBlks s (v % 8) ≤ e.1 % 2 ^ 32 / (pageLen s * blkPages s)) ∧
        (∀ e ∈ u.nand.pages, e.1 / 2 ^ 20 = v % 8 → partBlks s (v % 8) ≤ e.1 % 2 ^ 20 / blkPages s) ∧ (∀ e ∈ s.nand.cells, e.1 / 2 ^ 32 ≠ v % 8 → e ∈ u.nand.cells) ∧
        ⟨.control, 0xD00E, sevNOTICE, 0, []⟩ ∈ u.recorder.evq ∧ (u.path p).armedTill = none ∧ u.regs = s.regs ∧ u.mem = s.mem) ∧
    (armed (s.at t) p = true → s.nand.ready = true → s.nand.fault = false → s.cmd.loading = none → ∃ u, exec (.nandFormatted t p v) s = .next u ∧
      u.nand.xferStatus = xOK ∧ ⟨.control, 0xD00A, sevNOTICE, 0, []⟩ ∈ u.recorder.evq ∧ u.recorder.main = [] ∧ u.recorder.wbuf = [] ∧ u.nand.images = [] ∧ u.aon.journal = none ∧ (u.path p).armedTill = none ∧
      u.mem = s.mem) ∧
    (armed (s.at t) p = false → (∃ u, exec (.nandFormatted t p v) s = .next u ∧ (u.path p).last.status = aLOCKED ∧ u.nand = s.nand ∧
      u.recorder.main = s.recorder.main ∧ u.mem = s.mem) ∧ ∃ u, exec (.partitionErased t p v) s = .next u ∧ (u.path p).last.status = aLOCKED ∧
      u.nand = s.nand ∧ u.recorder.main = s.recorder.main ∧ u.mem = s.mem)

/-- Where every domain that is on is due: a write of DOM_REQ that takes no request away stores the requests of the domains that the variant has and
switches nothing off; a keyed write that newly forces off a domain in use switches it off, shows it as forced off and records the domain. -/
def Obligations.DomainWrites : Prop :=
  ∀ (t v d : Nat) (p : Path) (s : State), s.plainWrite bPWR = true →
    (∀ b, b < 12 → 3 ≤ b → bit (s.rd PWR.DOM_REQ).toNat b = true → bit v b = true) → (∀ b, b < 12 → 3 ≤ b → bit s.pwr.on b = true → domDue s b = true) →
    (∃ u, exec (.domainRequestWrite t p v) s = .next u ∧ State.onlyWord s u PWR.DOM_REQ ∧ u.pwr = s.pwr ∧
      ∀ b, 3 ≤ b → b < 12 → bit (u.rd PWR.DOM_REQ).toNat b = (bit v b && domHere s b)) ∧
    (armed (s.at t) p = true → 3 ≤ d → d < 12 → v = 2 ^ d → s.rd PWR.DOM_FORCE = 0 → domHere s d = true → domInUse s d = true → bit s.pwr.on d = true →
      bit s.pwr.forcedOff d = false → ∃ u, exec (.domainForceWrite t p v) s = .next u ∧ bit u.pwr.on d = false ∧ bit u.pwr.forcedOff d = true ∧
        u.rd PWR.DOM_FORCE = BitVec.ofNat 32 (2 ^ d) ∧ ⟨.control, 0x1002, sevWARNING, d, []⟩ ∈ u.recorder.evq ∧ (u.path p).armedTill = none)

/-- A write of a word in a shadow bank of the pathway table, on a unit other than a STANDBY, stores the writable bits of the bytes it enables, and nothing else of the registers; SET, CLR and
TGL act on the writable bits written 1. A register of an absent block takes no write, and the access is OK. An access above the map is UNMAPPED and is
captured; a protected register without the unlock is LOCKED and keeps its word; a block whose domain is off TIMES OUT. -/
def Obligations.RegisterWriteOutcomes : Prop :=
  ∀ (t a be v view : Nat) (p : Path) (s : State), s.live = true → s.cmd.mode ≠ .sleep → s.cmd.dirty = false → s.domOn 1 = true → be < 16 →
    let m := typeMask a (fun y => y == .rw || y == .rwh || y == .rwp)
    let w := BitVec.ofNat 32 v
    (s.plainWrite bROUTE = true → (twinned s && s.twin.role == .standby) = false → s.cmd.copying = false → 0x910000 ≤ a → a < 0x91C000 → a % 4 = 0 →
      (∃ u, exec (.registerWrite t p a be v) s = .next u ∧ State.onlyWord s u a ∧ u.rd a = merged (s.rd a) (m &&& beMask be) w ∧ (u.path p).last = ⟨aOK, 0⟩) ∧
      (1 ≤ view → view < 4 → ∃ u, exec (.aliasWrite t p (a + view * 0x40000) be v) s = .next u ∧ State.onlyWord s u a ∧
        u.rd a = (let b := w &&& beMask be &&& m; if view = 1 then s.rd a ||| b else if view = 2 then s.rd a &&& ~~~ b else s.rd a ^^^ b) ∧
        (u.path p).last = ⟨aOK, 0⟩)) ∧
    (a < 0x1300000 → s.present (blkOf a) = false → exec (.registerWrite t p a be v) s = .next ((s.at t).ended p)) ∧
    (0x1300000 ≤ a → a < 2 ^ 26 → bit (s.rd SYS.ACC_FAULT_INFO).toNat 31 = false → ∃ u, exec (.registerWrite t p a be v) s = .next u ∧
      State.onlyWordOr s u SYS.ACC_FAULT_ADDR SYS.ACC_FAULT_INFO ∧ u.rd SYS.ACC_FAULT_ADDR = BitVec.ofNat 32 a ∧
      (u.path p).last = ⟨aUNMAPPED, 0⟩ ∧ ⟨.control, 0x0004, sevNOTICE, 0, [aUNMAPPED, b2n (p == .pcie), a]⟩ ∈ u.recorder.evq) ∧
    (armed (s.at t) p = false → ∃ u, exec (.registerWrite t p PWR.DOM_FORCE 15 v) s = .next u ∧ (u.path p).last = ⟨aLOCKED, 0⟩ ∧
      u.rd PWR.DOM_FORCE = s.rd PWR.DOM_FORCE ∧ u.mem = s.mem ∧ u.pwr = s.pwr) ∧
    (s.present bSTX = true → s.domOn 5 = false → ∃ u, exec (.registerWrite t p STX.CAUSE_EN 15 v) s = .next u ∧ (u.path p).last = ⟨aTIMEOUT, 0⟩ ∧
      u.rd STX.CAUSE_EN = s.rd STX.CAUSE_EN ∧ u.mem = s.mem)

/-- The key arms the path that writes it for 100 ms; another value is LOCKED and disarms it; the arm lapses when its time has passed. Reading ATTN_SUMMARY
releases attention on both paths and clears the pending bit of vector 0; reading CMD_DONE answers the oldest completion and takes it, and 0 where
there is none, each where nothing else happens at that instant; reading a present tile's TILE_LOAD takes the peak back to 0. -/
def Obligations.UnlockAndReadEffects : Prop :=
  ∀ (t v k : Nat) (p : Path) (s : State), s.plainWrite bSYS = true →
    (exec (.unlockKeyWrite t p 0xC3A5) s = .next (((s.at t).setPath p { s.path p with armedTill := some ((s.at t).now + ms 100) }).ended p)) ∧
    (v < 2 ^ 32 → v ≠ 0xC3A5 → ∃ u, exec (.unlockKeyWrite t p v) s = .next u ∧ (u.path p).armedTill = none ∧ (u.path p).last = ⟨aLOCKED, 0⟩ ∧ u.mem = s.mem) ∧
    (armed (s.at t) p = false → exec (.unlockLapse t p) s = .next ((s.at t).setPath p { s.path p with armedTill := none })) ∧
    (s.now < t → ∃ u, exec (.attnSummaryRead t p) s = .next u ∧ u.host.attn = false ∧ u.host.attnSeen = false ∧ u.dma = { s.dma with pend := setBit s.dma.pend 0 false } ∧
      u.regs = s.regs ∧ u.mem = s.mem ∧ u.cmd = s.cmd) ∧
    (s.now < t → ∃ u, exec (.cmdDoneRead t p) s = .next u ∧ u.cmd = { s.cmd with done := s.cmd.done.drop 1 } ∧ u.regs = s.regs ∧ u.mem = s.mem ∧
      (u.path p).last = ⟨aOK, match s.cmd.done with | [] => 0 | c :: _ => c.word % 2 ^ 32⟩) ∧
    (k < s.variant.tiles → s.plainWrite bDSPC = true → ∃ u, exec (.tileLoadRead t p k) s = .next u ∧ (tileOf u k).peak = 0 ∧
      (tileOf u k).st = (tileOf s k).st ∧ u.regs = s.regs ∧ u.mem = s.mem ∧ u.cmd = s.cmd)

/-- One flipped bit of a register that carries parity and is not in a shadow bank: the scan sets the block's bit of PARITY_STATUS and records the
address and the byte, the block holds its last values where its policy is HOLD_LAST, and PARITY stands as a cause of SAFE where it is SAFE. With nothing
flipped and nothing corrupt a scan changes nothing. -/
def Obligations.ParityScanFindsFlips : Prop :=
  ∀ (t a k : Nat) (s : State), s.domOn 1 = true → s.cmd.mode ≠ .sleep → s.calm = true → s.host.corrupt = [] → s.cmd.started = [] →
    s.cmd.deferred = [] →
    (exec (.parityScan t []) s = .next (s.at t)) ∧
    (parityReg s a = true → isShadow a = false → k < 32 → blkOf a < 19 → ∃ u, exec (.parityScan t [(a, k)]) s = .next u ∧
      bit (u.rd SYS.PARITY_STATUS).toNat (blkOf a) = true ∧ ⟨islandOf (blkOf a), 0x0005, sevCRITICAL, 0, [a % 2 ^ 32, k / 8]⟩ ∈ u.recorder.evq ∧
      (parityPolicy s (blkOf a) = 0 → bit u.host.polHold (blkOf a) = true ∧ u.cmd.mode = s.cmd.mode) ∧
      (parityPolicy s (blkOf a) = 2 → bit u.cmd.safeCause scPARITY = true ∧ (s.cmd.mode = .run → u.cmd.mode = .safe)) ∧ u.mem = s.mem)

/-- A transaction of a known opcode with an aligned address in range opens with a clear status; an unknown opcode is refused with its code and captured.
READ_STATUS answers the last status, the first bad status and the words; READ_ID answers the chip word. A write and a read of a register that the control
cores hold complete at once and count; a word of another island, and of the memory window, waits, and HRDY is low. The transaction closes. -/
def Obligations.SpiTransactions : Prop :=
  ∀ (t op a v : Nat) (s : State), s.live = true → s.cmd.dirty = false → s.cmd.mode ≠ .sleep → s.domOn 1 = true →
    let x := s.host.spi
    let spi := fun (y : SpiS) => { s.at t with host := { s.host with spi := y } }
    (x.csLow = false → x.wait = [] → op = 0x02 ∨ op = 0x03 ∨ op = 0x12 ∨ op = 0x13 → a < 2 ^ 26 → a % 4 = 0 → exec (.spiTransactionStart t op a) s =
      .next (spi { x with csLow := true, opcode := op, addr := a, out := [], refused := false, lastStatus := 0, firstBad := 0, words := 0 })) ∧
    (x.csLow = false → x.wait = [] → op ∉ [0x02, 0x03, 0x05, 0x12, 0x13, 0x9F] → ∃ u, exec (.spiTransactionStart t op a) s = .next u ∧
      u.host.spi.refused = true ∧ u.host.spi.lastStatus = aOPCODE ∧ u.host.spi.words = 0 ∧
      ⟨.control, 0x0004, sevNOTICE, 0, [aOPCODE, 0, 0]⟩ ∈ u.recorder.evq ∧ u.mem = s.mem) ∧
    (exec (.spiTransactionEnd t) s = .next (spi { x with csLow := false })) ∧
    (x.csLow = true → x.opcode = 0x05 → exec (.readStatus t) s =
      .next (spi { x with out := x.out ++ [⟨aOK, x.lastStatus % 256 + 256 * (x.firstBad % 256) + 2 ^ 16 * Nat.min 65535 x.words⟩] })) ∧
    (x.csLow = true → x.opcode = 0x9F → exec (.readId t) s = .next (spi { x with out := x.out ++ [⟨aOK, 0x5A010009⟩] })) ∧
    (x.csLow = true → x.refused = false → x.wait = [] →
      (x.opcode = 0x02 → x.addr = SYS.CMD_ARG0 → s.host.corrupt = [] → v < 2 ^ 32 → ∃ u, exec (.write t [v]) s = .next u ∧ (u.path .spi).arg0 = v ∧ u.host.spi.wait = [] ∧
        u.host.spi.addr = x.addr + 4 ∧ u.host.spi.lastStatus = aOK ∧ u.host.spi.words = Nat.min 65535 (x.words + 1) ∧ u.regs = s.regs ∧ u.mem = s.mem) ∧
      (x.opcode = 0x03 → x.addr = SYS.CHIP → ∃ u, exec (.read t 1) s = .next u ∧ u.host.spi.out = x.out ++ [⟨aOK, 0x5A010009⟩] ∧
        u.host.spi.wait = [] ∧ u.regs = s.regs ∧ u.mem = s.mem) ∧
      (x.opcode = 0x02 → s.plainWrite bSTX = true → x.addr = STX.CAUSE_EN → v < 2 ^ 32 → exec (.write t [v]) s =
        .next (spi { x with wait := [⟨true, false, x.addr, 15, v, 4, (s.at t).now⟩], addr := x.addr + 4 })) ∧
      (x.opcode = 0x12 → winStatus s x.addr = 0 → x.addr < 0x3000000 → v < 2 ^ 32 → exec (.writeWin t [v]) s =
        .next (spi { x with wait := [⟨true, true, x.addr, 15, v, 4, (s.at t).now⟩], addr := x.addr + 4 })) ∧
      (x.opcode = 0x13 → winStatus s x.addr = 0 → x.addr < 0x3000000 → exec (.readWin t 1) s =
        .next (spi { x with wait := [⟨false, true, x.addr, 15, 0, 4, (s.at t).now⟩], addr := x.addr + 4 })))

/-- The one access of a path that waits for the media store is performed when that answers: a write stores its bytes and no other, and a read answers the
bytes of the window; it is discarded with TIMEOUT when the store does not answer. On an empty queue, a BAR0 write of a register that the control cores
hold leaves the queue done, a read completes with its data, and one of more than 16 words is refused with LENGTH; a BAR2 request of the media store
waits for it. -/
def Obligations.CrossingsAndBars : Prop :=
  ∀ (t a v n e : Nat) (s : State), s.live = true → s.cmd.dirty = false → s.cmd.mode ≠ .sleep → s.domOn 1 = true →
    let le := fun k => BitVec.ofNat 8 (v / 2 ^ (8 * k))
    (s.host.spi.wait = [⟨true, true, a, 15, v, 4, e⟩] → s.host.spi.refused = false → a % 4 = 0 → a < 0x2FFFFFF → s.domOn 6 = true →
      (∃ u, exec (.accessComplete t .spi) s = .next u ∧ u.host.spi.wait = [] ∧ u.host.spi.lastStatus = aOK ∧ u.regs = s.regs ∧ u.cmd.mode = s.cmd.mode ∧
        (∀ k, k < 4 → u.memB (a + k) = le k) ∧ ∀ b, b < a ∨ a + 4 ≤ b → u.memB b = s.memB b) ∧
      (∃ u, exec (.accessTimeout t .spi) s = .next u ∧ u.host.spi.wait = [] ∧ u.host.spi.lastStatus = aTIMEOUT ∧ u.mem = s.mem ∧
        ⟨.control, 0x0004, sevWARNING, 0, [aTIMEOUT, 0, a]⟩ ∈ u.recorder.evq)) ∧
    (s.host.queue = [⟨true, 0, [⟨true, true, a, 3, v, 2, e⟩], []⟩] → s.host.spi.wait = [] → a < 0x2FFFFFE → s.domOn 6 = true →
      (∃ u, exec (.accessComplete t .pcie) s = .next u ∧ u.host.queue = [] ∧ u.host.cpls = s.host.cpls ∧ u.regs = s.regs ∧
        u.memB a = le 0 ∧ u.memB (a + 1) = le 1 ∧ ∀ b, b < a ∨ a + 2 ≤ b → u.memB b = s.memB b) ∧
      (∃ u, exec (.accessTimeout t .pcie) s = .next u ∧ u.host.queue = [] ∧ u.host.cpls = s.host.cpls ∧ u.mem = s.mem ∧
        ⟨.control, 0x0004, sevWARNING, 0, [aTIMEOUT, 1, a]⟩ ∈ u.recorder.evq)) ∧
    (s.host.queue = [⟨false, 2, [⟨false, true, a, 3, 0, 2, e⟩], []⟩] → s.host.spi.wait = [] → a < 0x2FFFFFE → s.domOn 6 = true →
      (∃ u, exec (.accessComplete t .pcie) s = .next u ∧ u.mem = s.mem ∧ u.regs = s.regs ∧ u.host.queue = [] ∧
        u.host.cpls = s.host.cpls ++ [⟨aOK, [(storeByte s a).toNat, (storeByte s (a + 1)).toNat]⟩]) ∧
      (∃ u, exec (.accessTimeout t .pcie) s = .next u ∧ u.host.queue = [] ∧ u.host.cpls = s.host.cpls ++ [⟨aTIMEOUT, []⟩] ∧ u.mem = s.mem)) ∧
    (s.host.queue = [] → s.host.corrupt = [] → v < 2 ^ 32 → ∃ u, exec (.bar0Write t SYS.CMD_ARG0 15 0 [v]) s = .next u ∧ (u.path .pcie).arg0 = v ∧
      u.host.queue = [] ∧ u.regs = s.regs ∧ u.mem = s.mem) ∧
    (s.host.queue = [] → ∃ u, exec (.bar0Read t SYS.CHIP 1 15 0) s = .next u ∧ u.host.cpls = s.host.cpls ++ [⟨aOK, [0x5A010009]⟩] ∧ u.host.queue = [] ∧
      u.regs = s.regs ∧ u.mem = s.mem) ∧
    (s.host.queue = [] → 16 < n → ∃ u, exec (.bar0Read t a n 15 15) s = .next u ∧ u.host.cpls = s.host.cpls ++ [⟨aLENGTH, []⟩] ∧ u.host.queue = [] ∧
      u.mem = s.mem) ∧
    (s.host.queue = [] → a < 0x2FFFF00 → s.domOn 6 = true →
      exec (.bar2Access t true a 0 [le 0, le 1]) s = .next { s.at t with host := { s.host with
        queue := [⟨true, 0, [⟨true, true, a, 3, v % 65536, 2, (s.at t).now⟩], []⟩] } } ∧
      (0 < n → exec (.bar2Access t false a n []) s = .next { s.at t with host := { s.host with
        queue := [⟨false, n, [⟨false, true, a, 2 ^ n - 1, 0, n, (s.at t).now⟩], []⟩] } }))

/-- A pause that has ended is taken back, and the time paused is counted, the part below a nanosecond kept. On an idle line the one frame that waits, staged, not
paused and clear of the stream frames, starts: it leaves its queue and goes on the line with its FCS and its timestamp; a control frame whose line time is over has
ended, and is counted. The gate entry in force is the one in whose interval the STC lies. A frame, not of a ring, that runs short before its line time is over
ends there, is counted, leaves its inter-frame gap behind, and raises the staging threshold by one step up to 32, with its event. -/
def Obligations.PortTransmission : Prop :=
  ∀ (t p q a b staged sent : Nat) (f : TxFrame) (s : State), p < 3 →
    let m := s.mac p
    let at25 := (max s.now t) * 25
    let n := m.pausedRem + (b - max a m.pausedTo)
    (m.pauses = [(q, (a, b))] → b ≤ at25 → exec (.pauseExpiry t p q) s = .next ((s.at t).setMac p { m with
      pauses := [], pausedTo := at25, pausedRem := n % (25 * 65536)
      ctr := if n / (25 * 65536) = 0 then m.ctr else ctrAdd m.ctr 0x26 (n / (25 * 65536)) })) ∧
    (s.blkOn (portBlk p) = true → linkUp s p = true → txEn s p = true → m.cur = none → m.lineFree ≤ at25 → m.queues = [(q, [f])] → q < 8 →
      f.src = .control → f.bytes.length ≤ f.staged → m.pauses = [] → s.fld (MAC.GCL_STATUS p) MAC.GCL_STATUS_LEN = 0 →
      clearOfStreams (s.at t) p q f.line.length = true → exec (.txFrameStart t p staged) s = .next ((s.at t).setMac p { m with
        queues := [], cur := some f, curQ := q, curAt := at25, curLost := false
        lineFree := at25 + (f.line.length + 20) * byte25 (portRate s p) * 65536
        sent := if lpbk s p then m.sent else ⟨f.line, txStampAt (s.at t) p⟩ :: m.sent
        loop := if lpbk s p then m.loop ++ [f.line] else m.loop })) ∧
    (m.cur = some f → m.queues = [] → f.src = .control → m.lineFree ≤ at25 → exec (.txFrameStart t p staged) s = .next ((s.at t).setMac p { m with
        cur := none, ctr := ctrAdd (ctrAdd (ctrAdd m.ctr 0x20 1) 0x21 f.line.length) (0x30 + m.curQ) 1 })) ∧
    (let upTo := fun n => (((gateList s p).take n).map (fun e => e.1)).sum * 2 ^ 56
     s.fld (MAC.GCL_STATUS p) MAC.GCL_STATUS_LEN ≠ 0 → gatePos (s.at t) p < upTo (s.fld (MAC.GCL_STATUS p) MAC.GCL_STATUS_LEN) →
      ∃ u, exec (.gateIntervalBoundary t p) s = .next u ∧ State.noWord s u ∧ u.mac p = { m with gate := (u.mac p).gate } ∧
        upTo (u.mac p).gate ≤ gatePos (s.at t) p ∧ gatePos (s.at t) p < upTo ((u.mac p).gate + 1)) ∧
    (s.now < t → s.blkOn (portBlk p) = true → m.cur = some f → at25 < m.lineFree → canUnderrun s p sent f = true → srcCode f ≠ 3 →
      ∃ u, exec (.txUnderrun t p sent) s = .next u ∧
      State.onlyWordOr s u (MAC.TX_THRESH p) (MAC.MAC_CAUSE p) ∧ (u.mac p).cur = none ∧ (u.mac p).ctr = ctrAdd m.ctr 0x22 1 ∧ (u.mac p).queues = m.queues ∧
      (u.mac p).lineFree = at25 + 12 * byte25 (portRate s p) * 65536 ∧
      u.fld (MAC.TX_THRESH p) MAC.TX_THRESH_STEPS = Nat.min 32 (s.fld (MAC.TX_THRESH p) MAC.TX_THRESH_STEPS + 1) ∧
      ⟨portIsl p, 0x4004, sevWARNING, p, [m.curQ % 2 ^ 32, srcCode f]⟩ ∈ u.recorder.evq)

/-- When the conditions of a link go, its queued stream frame is discarded and counted, LINK clears and its event is recorded; PCS_LOCK, FEC_LOCK and AN_DONE
show what the line still has where the port's mode has them, and a refused speed sets SPEED_FAULT where the port runs SGMII or RGMII. When it rises, LINK and the
rate in force show, with its event. At 25 GbE corrected and uncorrectable code words are counted. A frame with a line error, a short
one and one with a wrong FCS each count where the first check that fails says; on a port without link or reception a frame does nothing; a good frame
counts with its bytes, and a PTP frame that the policer admits reaches the PTP engine with its timestamp. -/
def Obligations.LinksAndReception : Prop :=
  ∀ (t p q n k : Nat) (pcs fec an fault : Bool) (f : TxFrame) (bs : List Byte) (s : State), p < 3 → s.blkOn (portBlk p) = true →
    let m := s.mac p
    let shows := fun (u : State) => State.onlyWordOr s u (MAC.MAC_STATUS p) (MAC.MAC_CAUSE p) ∧ linkUp u p = false ∧
      u.fld (MAC.MAC_STATUS p) MAC.MAC_STATUS_PCS_LOCK = b2n (pcs && !rgmii s p) ∧
      u.fld (MAC.MAC_STATUS p) MAC.MAC_STATUS_FEC_LOCK = b2n (fec && portRate s p == 2) ∧
      u.fld (MAC.MAC_STATUS p) MAC.MAC_STATUS_AN_DONE = b2n (an && (portRate s p == 0 && s.flag (MAC.MAC_CTL p) MAC.MAC_CTL_AN_EN && !rgmii s p)) ∧
      u.fld (MAC.MAC_STATUS p) MAC.MAC_STATUS_SPEED_FAULT = b2n (fault && (sgmii s p || rgmii s p))
    (linkUp s p = true → m.cur = none → m.queues = [(q, [f])] → f.src = .stream n k → ∃ u, exec (.linkDown t p pcs fec an fault) s = .next u ∧
      shows u ∧ (u.mac p).queues = [] ∧
      (u.mac p).ctr = ctrAdd (ctrAdd m.ctr 0x25 1) 0x40 1 ∧ ⟨portIsl p, 0x4002, sevWARNING, p, []⟩ ∈ u.recorder.evq) ∧
    (linkUp s p = false → ∃ u, exec (.linkDown t p pcs fec an fault) s = .next u ∧ shows u ∧ u.mac p = m) ∧
    (linkUp s p = false → ∃ u, exec (.linkUp t p) s = .next u ∧ State.onlyWordOr s u (MAC.MAC_STATUS p) (MAC.MAC_CAUSE p) ∧ linkUp u p = true ∧
      u.fld (MAC.MAC_STATUS p) MAC.MAC_STATUS_RATE_ACT = portRate s p ∧ (p = 2 ∨ rxActive (s.at t) = [] → u.mac p = m) ∧
      ⟨portIsl p, 0x4001, sevNOTICE, p, []⟩ ∈ u.recorder.evq) ∧
    (p < 2 → portRate s p = 2 →
      (exec (.fecCodeword t p false true) s = .next ((s.at t).setMac p { m with ctr := ctrAdd m.ctr 0x11 1 })) ∧
      (∃ u, exec (.fecCodeword t p true false) s = .next u ∧ State.onlyWord s u (MAC.MAC_CAUSE p) ∧ u.mac p = { m with ctr := ctrAdd m.ctr 0x12 1 })) ∧
    (lpbk s p = false →
      (linkUp s p = false ∨ rxEn s p = false → exec (.macFrameReceived t p false bs) s = .next (s.at t)) ∧
      (linkUp s p = true → rxEn s p = true →
        let ctr := fun k => exec (.macFrameReceived t p false bs) s = .next ((s.at t).setMac p { m with ctr := ctrAdd m.ctr k 1 })
        exec (.macFrameReceived t p true bs) s = .next ((s.at t).setMac p { m with ctr := ctrAdd m.ctr 0x10 1 }) ∧
        (bs.length < 64 → ctr 0x03) ∧
        (64 ≤ bs.length → fcsOk bs = false → ctr 0x02) ∧
        (64 ≤ bs.length → fcsOk bs = true → beAt bs 12 2 ≠ 0x8808 → addrOk s p bs = false → ctr 0x05) ∧
        (64 ≤ bs.length → bs.length ≤ s.fld (MAC.MAX_FRAME p) MAC.MAX_FRAME_BYTES → fcsOk bs = true → beAt bs 12 2 ≠ 0x8808 → addrOk s p bs = true →
          s.blkOn bSRX = false → ∃ u, exec (.macFrameReceived t p false bs) s = .next u ∧ State.onlyWord s u (MAC.WAKE_HIT p) ∧
            u.mac p = { m with ctr := ctrAdd (ctrAdd m.ctr 0 1) 1 bs.length } ∧ u.srx = s.srx) ∧
        (64 ≤ bs.length → bs.length ≤ s.fld (MAC.MAX_FRAME p) MAC.MAX_FRAME_BYTES → fcsOk bs = true → beAt bs 12 2 ≠ 0x8808 → addrOk s p bs = true →
          s.blkOn bSRX = true → builtIn (bs.take (bs.length - 4)) = some .ptp → (∀ k, k < 16 → s.fld (SRX.KILL_CTL k) SRX.KILL_CTL_EN = 0) →
          (mgmtBucket (s.at t) p).tok ≠ 0 → s.srx.rings = [] → bs.length ≤ 2048 → ∃ u, exec (.macFrameReceived t p false bs) s = .next u ∧
            State.onlyWord s u (MAC.WAKE_HIT p) ∧ u.mac p = { m with ctr := ctrAdd (ctrAdd m.ctr 0 1) 1 bs.length } ∧
            u.srx = { s.srx with ptp := ⟨p, bs.take (bs.length - 4), rxStampAt (s.at t) p bs.length⟩ :: s.srx.ptp, ctr := ctrAdd s.srx.ctr (4 * (0x1000 + p)) 1
                                 mgmtPol := Tbl.put s.srx.mgmtPol p { mgmtBucket (s.at t) p with tok := (mgmtBucket (s.at t) p).tok - 1 } })))

/-- At the end of a packet interval a killed entry builds nothing and counts one kill; an enabled one builds the packet of the interval once, and its frame
stands on the queue of a port that it names, this unit serves and the link of which is up. At its launch instant the frame that waits is due. A bucket holds what
it has gained, up to its depth. At a read-out instant an entry with nothing in its buffer gives no sample, and its position is taken. An entry silent for
1,024 packet times unlocks; one silent for 16 shows no live path, and a locked one sets PATH_DOWN if a port that it names was live. -/
def Obligations.StreamRows : Prop :=
  ∀ (t n p k : Nat) (f : TxFrame) (s : State), n < 1024 → p < 2 →
    let s0 := s.at t
    let c := STX.TXS_W0_PTIME.get (s0.use (STX.TXSA_W0 n))
    let i := pktIdx c s0.time.stc - 1
    let w0 := txWord s0 (cdiv (pktAt3 c i) 3) n 0
    let q := STX.TXS_W1_QUEUE.get (txWord s0 (cdiv (pktAt3 c i) 3) n 1)
    (s.blkOn bSTX = true → 0 < pktIdx c s0.time.stc → Tbl.getD s.stx.next n 0 ≤ i → s.place.now.isSome = true → STX.TXS_W0_EN.get w0 = 1 →
      Tbl.getD s.stx.lastK n 0 ≤ i →
      (txKilled s n = true → exec (.streamPacketBuild t n) s = .next { s0 with stx := { s.stx with
        next := Tbl.put s.stx.next n (i + 1), ctr := ctrAdd s.stx.ctr (4 * 0x402) 1 } }) ∧
      (txKilled s n = false → digestsOn s = false → Tbl.getD s.stx.clearK n 0 ≤ i → ∃ u, exec (.streamPacketBuild t n) s = .next u ∧ State.noWord s u ∧
        u.stx.lastK = Tbl.put s.stx.lastK n (i + 1) ∧ u.stx.next = Tbl.put s.stx.next n (i + 1) ∧ u.stx.clearK = s.stx.clearK ∧
        (txPort w0 p = true → unitPort s p = true → s.blkOn (portBlk p) = true → linkUp s p = true → txEn s p = true →
          (macQ u p q).any (fun f => f.src == .stream n i) = true))) ∧
    (s.blkOn (portBlk p) = true → (s.mac p).queues = [(STX.TXS_W1_QUEUE.get (s0.use (STX.TXSA_W1 n)), [f])] → f.src = .stream n k →
      launchAt3 s0 n k ≤ s0.time.stc * 3 → exec (.streamLaunch t p n) s =
        .next (s0.setMac p { s.mac p with queues := [(STX.TXS_W1_QUEUE.get (s0.use (STX.TXSA_W1 n)), [{ f with due := true }])] })) ∧
    (s.blkOn bSRX = true → ∃ u, exec (.policerToken t 0 n p) s = .next u ∧ State.noWord s u ∧ u.srx = { s.srx with pol := u.srx.pol } ∧
      ∃ b, u.srx.pol.find (2 * n + p) = some b ∧ b.idx = pktIdx (rxPtime s0.use n) s0.time.stc ∧
        b.tok ≤ Nat.max 1 (SRX.RXS_W6_POL_BURST.get (rxWord s0.use n 6))) ∧
    (s.blkOn bSRX = true → (rxsOf s n).tick = mediaNow s0 (rxFs s0 s0.use n) → (rxsOf s n).buf = [] → 0 < (rxsOf s n).tick → ∃ u, exec (.rxSampleReadout t n) s = .next u ∧
      State.onlyWord s u SRX.CAUSE ∧ rxsOf u n = { rxsOf s n with tick := (rxsOf s n).tick + 1 } ∧
      ((rxsOf s n).locked = true → s.causeLet SRX.CAUSE 2 = true → bit (u.rd SRX.CAUSE).toNat 2 = true)) ∧
    ((rxsOf s n).locked = true → rxSilent s0 n 1024 = true → exec (.rxLockTimeout t n) s =
      .next (setRxs s0 n { rxsOf s n with locked := false, map := [], run := 0 })) ∧
    ((rxsOf s n).locked = false → rxSilent s0 n 16 = true → exec (.pathLiveTimeout t n) s =
      .next (setRxs s0 n { rxsOf s n with aLive := false, bLive := false })) ∧
    ((rxsOf s n).locked = true → rxSilent s0 n 16 = true → ∃ u, exec (.pathLiveTimeout t n) s = .next u ∧ State.onlyWord s u SRX.CAUSE ∧
      (rxsOf u n) = { rxsOf s n with aLive := false, bLive := false } ∧
      ((rxsOf s n).aLive = true ∧ rxPort s0.use n 0 = true ∨ (rxsOf s n).bLive = true ∧ rxPort s0.use n 1 = true → s.causeLet SRX.CAUSE 1 = true →
        bit (u.rd SRX.CAUSE).toNat 1 = true))

/-- A slot whose source meets its loss condition is LOST; one whose wait-to-restore time is over is QUALIFIED again; each with its event. At a second a new
slot within the hard limit is QUALIFIED with its FFO. With OSC_M the only usable slot, and no fabric formed, an evaluation takes it: the clock holds over
at its learned frequency. A pull within 1 ns of its end is over. An edge of a pin that no slot uses is time-stamped; a generator armed on it at least 1 µs
before aligns. At a pulse instant a generator gives one pulse, and an output that carries its pulses, low and with no change waiting, rises its delay later. -/
def Obligations.TimeRows : Prop :=
  ∀ (t n p k a w : Nat) (v d f : Int) (lanes : List Int) (s : State), s.blkOn bTIME = true → n < 16 →
    let s0 := s.at t
    let x := slotOf s n
    (x.st ≠ .off → x.st ≠ .lost → slotLoss s0 n = true ∨ slotType s n = 4 → ∃ u, exec (.refLossTimeout t n) s = .next u ∧ State.onlyWord s u TIME.CAUSE ∧
      (slotOf u n).st = .lost ∧ (slotOf u n).ffo = none ∧ (slotOf u n).since = s0.now ∧ ⟨.time, 0x3002, sevWARNING, n, []⟩ ∈ u.recorder.evq ∧
      ∀ m, m ≠ n → slotOf u m = slotOf s m) ∧
    (x.st = .wait → secs (s.fld TIME.SEL_CTL TIME.SEL_CTL_WTR_S) ≤ s0.now - x.waitFrom → ∃ u, exec (.waitToRestoreExpiry t n) s = .next u ∧
      State.onlyWord s u TIME.CAUSE ∧ (slotOf u n).st = .qualified ∧ (slotOf u n).ffo = x.ffo ∧ ⟨.time, 0x3005, sevNOTICE, n, []⟩ ∈ u.recorder.evq ∧
      ∀ m, m ≠ n → slotOf u m = slotOf s m) ∧
    ((∀ m, m < 16 → m ≠ n → slotType s m = 0) → slotType s n ≠ 0 → slotType s n ≠ 8 → x.st = .new → s.time.inUse = none →
      (v + s.time.learned / 1000000).natAbs ≤ hardLim s → ∃ u, exec (.ffoUpdate t [(n, v)]) s = .next u ∧ State.onlyWord s u TIME.CAUSE ∧
        (slotOf u n).st = .qualified ∧ (slotOf u n).ffo = some (v + s.time.learned / 1000000) ∧ u.time.learned = s.time.learned) ∧
    ((∀ m, m < 16 → m ≠ n → slotType s m = 0 ∧ (slotOf s m).st = .off) → slotType s n = 8 → x.st = .qualified → x.far = false → s.time.inUse = none →
      s.time.st = .freerun → s.cmd.dirty = false → s.cmd.started = [] → s.time.selQ = [] → fabFormed s = false → s.fab.tm = none →
      ∃ u, exec (.bellwetherEvaluation t lanes []) s = .next u ∧
        State.onlyWord s u TIME.CAUSE ∧ u.time.inUse = some n ∧ u.time.st = .holdover ∧ goalOf u = some (yFor s 0) ∧ u.time.stc = s0.time.stc ∧
        ⟨.time, 0x3001, sevNOTICE, n, []⟩ ∈ u.recorder.evq ∧ ⟨.time, 0x300A, sevWARNING, 0, []⟩ ∈ u.recorder.evq) ∧
    (s.time.pull.isSome = true → (pullLeft s0).natAbs ≤ 256 → ∃ u, exec (.pullComplete t) s = .next u ∧ State.noWord s u ∧
      u.time = { s0.time with pull := none, hist := u.time.hist } ∧ goalOf u = baseGoal s) ∧
    ((∀ m, m < 16 → slotType s m = 0) → (∀ m, m < 4 → m ≠ k → fpgSrc s m ≠ p + 1) → p < 3 → k < 4 →
      (fpgSrc s k ≠ p + 1 → exec (.refPinEdge t p) s = .next { s0 with time := { s0.time with edges := Tbl.put s.time.edges p s0.time.stc } }) ∧
      (s.now < t → fpgSrc s k = p + 1 → (fpgOf s k).alignAt = some a → a + 1000 * 2 ^ 56 ≤ s0.time.stc → ∃ u, exec (.refPinEdge t p) s = .next u ∧
        State.onlyWordOr s u (TIME.FPG_CTL k) TIME.CAUSE ∧ u.time.edges = Tbl.put s.time.edges p s0.time.stc ∧ u.fld (TIME.FPG_CTL k) TIME.FPG_CTL_ALIGN = 0 ∧
        fpgOf u k = { fpgOf s k with t0 := some s0.time.stc, alignAt := none, last := none, edge := some s0.time.stc } ∧
        ⟨.time, 0x300F, sevNOTICE, 0, [k]⟩ ∈ u.recorder.evq)) ∧
    (fpgLast s0 k = some (((a : Nat) : Int), v) → (fpgOf s k).last ≠ some a → ∃ u, exec (.framePulse t k) s = .next u ∧ State.noWord s u ∧
      u.time = (setFpg s0 k { fpgOf s k with pulses := (fpgOf s k).pulses + 1, last := some a }).time ∧
      ((outNow s0 n).cur = some (.pulse k w d f []) → f ≤ a - s0.time.jump + d → (outOf s n).wait = false →
        (outOf u n).cur = some (.pulse k w d f [a - s0.time.jump + d])))

/-- A slave that measures its path by requests sends one in its interval under the next sequence number, on the control lane of its port, where it will be time-stamped as it starts.
A slave-only instance whose announces fail goes back to LISTENING without a master. A one-step Sync from the parent sets the offset from its timestamps; a message of
another domain does nothing; a Delay_Resp for the request sets the mean path delay. -/
def Obligations.PtpRows : Prop :=
  ∀ (t i len lane src res : Nat) (m : PtpMsg) (b : PtpAnnounce) (t3 : Int) (s : State), i < 6 → ptpRuns s i = true →
    let s0 := s.at t
    let x := ptpOf s i
    (x.st = .slave ∨ x.st = .uncalibrated → i < 5 → ptpCtl s i TIME.PTP_CTL_P2P = 0 → ∃ u, exec (.ptpMessageInterval t i 2) s = .next u ∧
      State.noWord s u ∧ ptpOf u i = { x with seqOut := (x.seqOut + 1) % 65536, dreqSeq := x.seqOut % 65536, dreqT3 := none } ∧
      (∀ j, j ≠ i → ptpOf u j = ptpOf s j) ∧
      (s.blkOn (portBlk (ptpPort i)) = true → linkUp s (ptpPort i) = true → txEn s (ptpPort i) = true →
        ((macQ u (ptpPort i) 7).getLast?).map (fun f => f.src) = some (.event i 2 (x.seqOut % 65536) []) ∧
        (macQ u (ptpPort i) 7).dropLast = macQ s (ptpPort i) 7)) ∧
    (x.st = .slave ∨ x.st = .uncalibrated → ptpCtl s i TIME.PTP_CTL_SLAVE_ONLY = 1 → ptpCtl s i TIME.PTP_CTL_BC = 0 →
      ∃ u, exec (.ptpAnnounceTimeout t i) s = .next u ∧ State.onlyWord s u TIME.CAUSE ∧ ptpOf u i = { x with best := none, foreign := [], st := .listening } ∧
        ⟨.time, 0x300E, sevNOTICE, i, []⟩ ∈ u.recorder.evq ∧ ∀ j, j ≠ i → ptpOf u j = ptpOf s j) ∧
    (i < 5 → x.st = .slave → x.best = some b → b.srcClock = m.srcClock → b.srcPort = m.srcPort →
      (m.domain ≠ ptpCtl s i TIME.PTP_CTL_DOMAIN → exec (.ptpMessageReceived t i len lane src res m) s = .next s0) ∧
      (m.domain = ptpCtl s i TIME.PTP_CTL_DOMAIN → m.kind = .sync → m.twoStep = false → ∃ u, exec (.ptpMessageReceived t i len lane src res m) s = .next u ∧
        State.noWord s u ∧ (ptpOf u i).offset = ptpStampIn s0 i len - (m.ts + m.corr) - x.delay ∧ (ptpOf u i).cSync = x.cSync + 1 ∧ (ptpOf u i).lastSync = some s0.now ∧
        (ptpOf u i).st = .slave ∧ (ptpOf u i).best = x.best ∧ ∀ j, j ≠ i → ptpOf u j = ptpOf s j) ∧
      (m.domain = ptpCtl s i TIME.PTP_CTL_DOMAIN → m.kind = .delayResp → m.reqClock = clockIdentity s → m.reqPort = ptpNumber i → m.seq = x.dreqSeq →
        x.dreqT3 = some t3 → exec (.ptpMessageReceived t i len lane src res m) s =
          .next (setPtp s0 i { x with delay := (x.offset + x.delay + (m.ts - m.corr - t3)) / 2, dreqT3 := none })))

/-- The correction moves by at most 1 ppm towards its goal within 250 ppm, and every synthesiser that runs and follows, its VCO not held, takes it. At a whole second of the STC,
and at no other instant, a synthesiser that runs loads its seed. A synthesiser that runs without lock locks with the comparison that makes 1,000 good ones in a row, with
its phase origin at the next whole second, and not before; so does the system synthesiser. A spread that waits, and that the limit and the lock allow, comes into force
at its period. An edge of SYNC_IN that is armed once places a masked SYNC output whose source runs, and disarms. -/
def Obligations.ClkRows : Prop :=
  ∀ (t k : Nat) (y : Int) (cmp : List (Int × Nat)) (w : Spread) (s : State), s.blkOn bCLK = true → k < 4 →
    let s0 := s.at t
    (s.blkOn bTIME = true → ∃ u, exec (.frequencyCorrectionUpdate t y) s = .next u ∧ State.noWord s u ∧ (u.time.y - s.time.y).natAbs ≤ 1099511 ∧
      (s.time.y.natAbs ≤ 274877906 → u.time.y.natAbs ≤ 274877906) ∧
      (goalOf s0 = none → (y - s.time.y).natAbs ≤ 1099511 → y.natAbs ≤ 274877906 → u.time.y = y) ∧
      (msyFollow s k = true → (msyOf s k).run = true → (msyOf s k).held = false → (msyOf u k).y = u.time.y) ∧ (msyOf u k).lock = (msyOf s k).lock ∧ u.time.stc = s0.time.stc) ∧
    (s0.time.stc % stcSec 1 < 2 ^ 56 → ∃ u, exec (.ditherSeedLoad t) s = .next u ∧ State.noWord s u ∧
      ((msyOf s k).run = true → (msyOf u k).dither = (s.rd (CLK.MSY_SEED k)).toNat ∧ (msyOf u k).ditherFrom = s0.now ∧ (msyOf u k).lock = (msyOf s k).lock) ∧
      ((msyOf s k).run = false → msyOf u k = msyOf s k)) ∧
    (2 ^ 56 ≤ s0.time.stc % stcSec 1 → exec (.ditherSeedLoad t) s = .next s0) ∧
    (let c := cmp.foldl countCmp ((msyOf s k).good, (msyOf s k).bad)
     (msyOf s k).run = true → (msyOf s k).lock = false → ∃ u, exec (.synthLock t k cmp) s = .next u ∧ State.noWord s u ∧
      (msyOf u k).good = c.1 ∧ (msyOf u k).bad = c.2 ∧ (c.1 < 1000 → (msyOf u k).lock = false) ∧
      (1000 ≤ c.1 → (msyOf u k).lock = true ∧ (msyOf u k).relock = false ∧ (msyOf u k).held = false ∧ (msyOf u k).origin = cdiv s0.time.stc (stcSec 1) ∧
        (msyOf u k).dither = (s.rd (CLK.MSY_SEED k)).toNat)) ∧
    (let c := cmp.foldl countCmp (s.clk.ssyGood, s.clk.ssyBad)
     exec (.synthLock t 4 cmp) s = .next { s0 with clk := { s.clk with
      ssyGood := c.1, ssyBad := c.2, ssyLock := s.clk.ssyLock || decide (1000 ≤ c.1) } }) ∧
    (s.clk.spreadPend = some w → s.clk.spreadFrom + spreadPeriod ≤ s0.now → w.en = false ∨ spreadOk s.clk.maxSpread w.centre w.depth = true ∧ s.clk.ssyLock = true →
      exec (.spreadPeriodStart t) s = .next { s0 with clk := { s.clk with spread := w, spreadPend := none, spreadFrom := s0.now } }) ∧
    (s.blkOn bTIME = true → (∀ m, m < 16 → slotType s m = 0) → (∀ m, m < 4 → fpgSrc s m ≠ 4) → s.fld CLK.SYNC_CTL CLK.SYNC_CTL_MODE = 0 →
      (s.fld CLK.SYNC_CTL CLK.SYNC_CTL_ARM = 0 → exec (.syncInEdge t) s =
        .next { s0 with time := { s0.time with edges := Tbl.put s.time.edges 3 s0.time.stc } }) ∧
      (s.now < t → s.fld CLK.SYNC_CTL CLK.SYNC_CTL_ARM = 1 → outPhase s k = 2 → outSrc s k < 5 → srcRuns s (outSrc s k) = true →
        bit (s.fld CLK.SYNC_CTL CLK.SYNC_CTL_MASK) k = true → ∃ u, exec (.syncInEdge t) s = .next u ∧ State.onlyWordOr s u CLK.SYNC_CTL CLK.CAUSE ∧
          u.fld CLK.SYNC_CTL CLK.SYNC_CTL_ARM = 0 ∧ (outOf u k).placed = some (syncTarget s0 k) ∧
          (s.causeLet CLK.CAUSE 7 = true → bit (u.rd CLK.CAUSE).toNat 7 = true)))

/-- A pending gain applies at a zero sample or an invalid one and otherwise when its time is over. A stopped clock takes a receive side in RUN to WAIT, its input unlocked, and a glitch
to ANCHORING, with one slip counted and the event. An anchored side is in RUN, with a relock recorded, once a master's hold is over; a side in LOCKING is so with the sixteenth
frame at its rate; a returning clock takes WAIT to LOCKING. At a block start a receive side takes its mask, its time and its level; between block starts nothing happens.
The comparison that makes 4 bad ones in a row takes a synthesiser's lock, holds its VCO and is recorded; the system synthesiser ends its spread; without that nothing is lost. -/
def Obligations.SideRows : Prop :=
  ∀ (t x k v run rate : Nat) (cmp : List (Int × Nat)) (p : Smp) (fr : List (List (Option Smp))) (s : State), s.blkOn bAPORT = true → sideHere s x = true →
    let s0 := s.at t
    let g := gainOf s k
    let c := sideOf s x
    (g.target = some v → (p.v % 2 ^ 32 = 0 ∨ p.ok = false → exec (.zeroCrossingApply t k p) s =
        .next (setGain s0 k { g with eff := v, target := none, prevNeg := decide (2 ^ 31 ≤ p.v % 2 ^ 32), started := true })) ∧
      (p.v % 2 ^ 32 ≠ 0 → p.ok = true → g.started = false → exec (.zeroCrossingApply t k p) s =
        .next (setGain s0 k { g with prevNeg := decide (2 ^ 31 ≤ p.v % 2 ^ 32), started := true })) ∧
      (g.since + ms (s.fld APORT.ZC_CTL APORT.ZC_CTL_TIMEOUT + 1) ≤ s0.now → exec (.zeroCrossingTimeout t k) s =
        .next (setGain s0 k { g with eff := v, target := none }))) ∧
    (c.st = .run → isTx x = false → s.fld (APORT.SIDE_COUNT x) APORT.SIDE_COUNT_SLIPS < 65535 →
      (∃ u, exec (.portFault t x 3) s = .next u ∧ State.onlyWordOr s u (APORT.SIDE_COUNT x) (APORT.SIDE_FAULT x) ∧ (sideOf u x).st = .wait ∧
        (sideOf u x).rateDet = 0 ∧ (sideOf u x).locked = (c.locked && decide (x < 64)) ∧
        u.fld (APORT.SIDE_COUNT x) APORT.SIDE_COUNT_SLIPS = s.fld (APORT.SIDE_COUNT x) APORT.SIDE_COUNT_SLIPS + 1 ∧
        ⟨.aport, 0x8003, sevWARNING, x, []⟩ ∈ u.recorder.evq) ∧
      (∃ u, exec (.portFault t x 2) s = .next u ∧ State.onlyWordOr s u (APORT.SIDE_COUNT x) (APORT.SIDE_FAULT x) ∧ (sideOf u x).st = .anchoring ∧
        (sideOf u x).locked = c.locked ∧
        u.fld (APORT.SIDE_COUNT x) APORT.SIDE_COUNT_SLIPS = s.fld (APORT.SIDE_COUNT x) APORT.SIDE_COUNT_SLIPS + 1 ∧
        ⟨.aport, 0x8002, sevWARNING, x, []⟩ ∈ u.recorder.evq)) ∧
    (c.st = .anchoring → s0.time.stc < c.holdTo → exec (.portAnchor t x run rate) s = .next s0) ∧
    (c.st = .anchoring → c.holdTo ≤ s0.time.stc → ∃ u, exec (.portAnchor t x run rate) s = .next u ∧ State.onlyWord s u (APORT.SIDE_FAULT x) ∧
      sideOf u x = { c with st := .run, blocks := 0, holdTo := 0 } ∧ ⟨.aport, 0x8005, sevNOTICE, x, []⟩ ∈ u.recorder.evq) ∧
    (c.st = .locking → 16 ≤ run → x < 64 ∨ c.locked = true → rate = sideRate s x + 1 → ∃ u, exec (.portAnchor t x run rate) s = .next u ∧
      State.onlyWord s u (APORT.SIDE_FAULT x) ∧ (sideOf u x).st = .run ∧ (sideOf u x).rateDet = rate ∧ sideRate u x = sideRate s x ∧
      ⟨.aport, 0x8005, sevNOTICE, x, []⟩ ∈ u.recorder.evq) ∧
    (c.st = .wait → exec (.portClockReturns t x) s = .next (setSide s0 x { c with st := .locking, rateDet := 0 })) ∧
    (c.st = .run → x < 64 → isTx x = false → c.cut = none → sideMode s x = 0 ∨ sideMode s x = 3 →
      (frameWindow s0 x % Nat.max 1 (sideB s x) ≠ 0 → exec (.portBlockBoundary t x fr) s = .next s0) ∧
      (frameWindow s0 x % Nat.max 1 (sideB s x) = 0 → ∃ u, exec (.portBlockBoundary t x fr) s = .next u ∧ State.noWord s u ∧
        sideOf u x = { c with maskAct := (maskNow s0 x).toNat, actCh := sideActive s x (maskNow s0 x).toNat, blockAt := s0.time.stc, blockFrom := s0.now
                              blockN := frameWindow s0 x, blocks := c.blocks + 1, level := frameLevel s0 x })) ∧
    (s.blkOn bCLK = true → k < 4 → s.blkOn bTWIN = false → s.aport.sides = [] →
      let n := (cmp.foldl countCmp ((msyOf s k).good, (msyOf s k).bad)).2
      let m := (cmp.foldl countCmp (s.clk.ssyGood, s.clk.ssyBad)).2
      ((msyOf s k).lock = true → 4 ≤ n → ∃ u, exec (.synthLossOfLock t k cmp) s = .next u ∧ State.onlyWord s u CLK.CAUSE ∧
        (msyOf u k).lock = false ∧ (msyOf u k).held = true ∧ ⟨.time, 0x2002, sevERROR, 0, []⟩ ∈ u.recorder.evq) ∧
      ((msyOf s k).lock = false ∨ n < 4 → exec (.synthLossOfLock t k cmp) s = .next (comparisons s0 k cmp)) ∧
      (s.clk.ssyLock = true → 4 ≤ m → ∃ u, exec (.synthLossOfLock t 4 cmp) s = .next u ∧ State.onlyWord s u CLK.CAUSE ∧
        u.clk.ssyLock = false ∧ u.clk.spread = ⟨false, false, 0⟩ ∧ ⟨.time, 0x2003, sevCRITICAL, 0, []⟩ ∈ u.recorder.evq))

/-- An AES3 input at a rate of its classes, or a MADI input on frames of its format, that locks shows it, and a side in WAIT enters LOCKING, with its event; an AES3 input's channel status is no longer valid. One that unlocks keeps
its state, with its event. At the end of a channel-status block a locked AES3 input captures a block of the consumer form or with a right check character, and
counts an error for another. -/
def Obligations.DigitalInputs : Prop :=
  ∀ (t p rate : Nat) (cs : List Byte) (s : State), s.blkOn bAPORT = true →
    let s0 := s.at t
    let a := s.aport
    (p < s.variant.aes → (sideOf s (65 + 2 * p)).locked = false → 1 ≤ rate → rate ≤ 3 → ∃ u, exec (.aesLock t p rate) s = .next u ∧ State.noWord s u ∧
      u.aport.csValid = setBit a.csValid p false ∧ (sideOf u (65 + 2 * p)).locked = true ∧ ⟨.aport, 0x800B, sevNOTICE, 65 + 2 * p, []⟩ ∈ u.recorder.evq ∧
      (sideOf u (65 + 2 * p)).st = (if (sideOf s (65 + 2 * p)).st = .wait then .locking else (sideOf s (65 + 2 * p)).st)) ∧
    (p < s.variant.madi → (sideOf s (81 + 2 * p)).locked = false → exec (.madiLock t p (sideFmt s (81 + 2 * p) APORT.SIDE_FMT_FORMAT)) s = .next ((setSide s0 (81 + 2 * p) { sideOf s (81 + 2 * p) with
      locked := true, st := if (sideOf s (81 + 2 * p)).st = .wait then .locking else (sideOf s (81 + 2 * p)).st }).emit .aport 0x800D sevNOTICE (81 + 2 * p) [])) ∧
    (p < s.variant.aes → (sideOf s (65 + 2 * p)).locked = true → exec (.aesUnlock t p) s = .next ((setSide s0 (65 + 2 * p)
      { sideOf s (65 + 2 * p) with locked := false }).emit .aport 0x800C sevWARNING (65 + 2 * p) [])) ∧
    (p < s.variant.madi → (sideOf s (81 + 2 * p)).locked = true → exec (.madiUnlock t p) s = .next ((setSide s0 (81 + 2 * p)
      { sideOf s (81 + 2 * p) with locked := false }).emit .aport 0x800E sevWARNING (81 + 2 * p) [])) ∧
    (p < s.variant.aes → (sideOf s (65 + 2 * p)).locked = true → cs.length = 48 →
      (byteAt cs 0 % 2 = 0 → exec (.aesCsBlockEnd t p cs) s = .next { s0 with aport := { a with
        csDiff := setBit a.csDiff p (cs.take 24 != cs.drop 24), csIn := Tbl.put a.csIn p (cs.take 24), csValid := setBit a.csValid p true
        csConsumer := setBit a.csConsumer p true } }) ∧
      (byteAt cs 0 % 2 = 1 → withCrcc (cs.take 24) ≠ cs.take 24 → ∃ u, exec (.aesCsBlockEnd t p cs) s = .next u ∧
        State.onlyWordOr s u (APORT.SIDE_COUNT (65 + 2 * p)) (APORT.SIDE_FAULT (65 + 2 * p)) ∧ u.aport.csIn = a.csIn ∧ u.aport.csValid = a.csValid))

/-- A tile that runs one invocation issues the bundle at its address, and the next one follows in 8 bytes; the samples of the block in progress whose media times have passed stand
in the input bank before. A three-register operation writes its result for
the next bundle and nothing else; a load keeps its word for two bundles; a store writes its four bytes and no other; a multiply-accumulate writes its pair
of accumulators; a taken branch has two delay slots. A bundle that is no bundle stops the tile with cause 2, and its nodes move to a free spare. -/
def Obligations.BundlesTakeEffect : Prop :=
  ∀ (t tile sp r x y k : Nat) (off : Int) (f : Alu) (m0 m1 mac : MacOp) (v : Inv) (p : NodeP) (c : Ctx) (rest : List Nat) (s : State),
    s.plainTile tile v p c = true → m0.op = 0 → m1.op = 0 →
    let s1 := fillPassed (s.at t) p
    let b := bundleOf (ofLe (s1.memBytes (tileBase tile + c.pc) 8))
    let ptr := c.p.getD k 0
    let next := { c with pc := c.pc + 8, n := c.n + 1, cyc := (c.cyc + 1) % 2 ^ 32, line := c.pc / 32, lastPair := false, target := none }
    let at_ := fun (u : State) (q : Ctx) => (tileOf u tile).cur = some { v with ctx := some q } ∧ u.regs = s.regs ∧ u.cmd = s.cmd ∧ u.way = s.way
    (b = some ⟨m0, m1, .nop, none, .alu f r x y⟩ → r < 16 → ∃ u, exec (.bundleIssue t tile 0 false) s = .next u ∧ u.mem = s1.mem ∧
      at_ u { next with d := setAt c.d r (aluVal f (c.d.getD x 0) (c.d.getD y 0) % 2 ^ 32) }) ∧
    (b = some ⟨m0, m1, .lds r k false, none, .nop⟩ → r < 16 → accOk s p .split ⟨ptr, 4⟩ = true → ∃ u, exec (.bundleIssue t tile 0 false) s = .next u ∧
      u.mem = s1.mem ∧ at_ u { next with pend := [⟨c.n + 2, c.n, r, ofLe (s1.memBytes (tileBase tile + ptr) 4), c.pc⟩] }) ∧
    (b = some ⟨m0, m1, .sts r k false, none, .nop⟩ → r < 16 → accOk s p .split ⟨ptr, 4⟩ = true → ∃ u, exec (.bundleIssue t tile 0 false) s = .next u ∧
      at_ u next ∧ (∀ j, j < 4 → u.memB (tileBase tile + ptr + j) = BitVec.ofNat 8 (c.d.getD r 0 / 2 ^ (8 * j))) ∧
      ∀ a, a < tileBase tile + ptr ∨ tileBase tile + ptr + 4 ≤ a → u.memB a = s1.memB a) ∧
    (b = some ⟨mac, m1, .nop, none, .nop⟩ → 1 ≤ mac.op → mac.op ≤ 3 → ∃ u, exec (.bundleIssue t tile 0 false) s = .next u ∧ u.mem = s1.mem ∧
      (let w := fun i => sgn 32 (c.d.getD i 0)
       let lo := accOp mac.op mac.sat (c.a.getD (2 * mac.k) 0) (c.ax.getD (2 * mac.k) 0) (w (2 * mac.i) * w (2 * mac.j))
       let hi := accOp mac.op mac.sat (c.a.getD (2 * mac.k + 1) 0) (c.ax.getD (2 * mac.k + 1) 0) (w (2 * mac.i + 1) * w (2 * mac.j + 1))
       ∃ q, (tileOf u tile).cur = some q ∧ ∃ z, q.ctx = some z ∧ z.pc = c.pc + 8 ∧ z.d = c.d ∧ z.p = c.p ∧
         z.a = setAt (setAt c.a (2 * mac.k) lo.a) (2 * mac.k + 1) hi.a ∧ z.ax = setAt (setAt c.ax (2 * mac.k) lo.ax) (2 * mac.k + 1) hi.ax)) ∧
    (b = some ⟨m0, m1, .nop, none, .br off⟩ → ∃ u, exec (.bundleIssue t tile 0 false) s = .next u ∧ u.mem = s1.mem ∧
      at_ u { next with slot := 2, target := some (offTarget c.pc off) }) ∧
    (b = none → s.spareWaits tile sp rest = true → ∃ u, exec (.bundleIssue t tile 0 false) s = .next u ∧ State.faulted s1 u tile 2 v.node c.pc sp rest)

/-- When a block ends, an idle tile enters the node's invocation at its program with the registers that the rule names, and only its input bank is written. An invocation not done by
its deadline, and a preemption deferred for more than 256 cycles, stop the tile with causes 4 and 5. A pending interrupt is taken at a boundary that
permits it; TIMER reaching 0 sets its pending bit; a transfer that completes moves its bytes and no other, and sets its pending bit. When a
re-placement ends the spare runs and the nodes are on it. -/
def Obligations.TileRows : Prop :=
  ∀ (t tile sp ch src dst len b at_ : Nat) (p : NodeP) (v : Inv) (c : Ctx) (r : List Nat) (s : State), v.ctx = some c →
    let s0 := s.at t
    let k := nodeBlocks s0 p - 1
    let bank := tileBase p.tile + (nodeOf s p.id).xbase + k % 2 * inBytes s p
    let n := nodeOf s v.node
    let x := tileOf s tile
    (nodeP s p.id = some p → (tileOf s p.tile).st = .run → (tileOf s p.tile).cur = none → (tileOf s p.tile).queue = [] →
      (nodeOf s p.id).lastK < nodeBlocks s0 p → (nodeOf s p.id).cwPend = false → ∃ u, exec (.nodeRelease t p.id) s = .next u ∧ u.regs = s.regs ∧
        (nodeOf u p.id).lastK = nodeBlocks s0 p ∧ (∀ a, a < bank ∨ bank + inBytes s p ≤ a → u.memB a = s.memB a) ∧
        ∃ w, (tileOf u p.tile).cur = some w ∧ w.node = p.id ∧ w.k = k ∧ ∃ z, w.ctx = some z ∧ z.pc = (nodeOf s p.id).pbase ∧ z.n = 0 ∧
          z.d.take 4 = [p.block, p.nin, p.nout, k % 2 ^ 32] ∧ z.tsw = 0 ∧ z.m = List.replicate 8 0 ∧ z.l = List.replicate 8 0) ∧
    (x.st = .run → x.cur = some v → x.queue = [] → c.ending = false →
      (s0.time.stc < v.deadline → exec (.deadlineMiss t tile) s = .next s0) ∧
      (v.deadline ≤ s0.time.stc → s.spareWaits tile sp r = true → ∃ u, exec (.deadlineMiss t tile) s = .next u ∧
        State.faulted s u tile 4 v.node c.pc sp r) ∧
      (c.deferred ≤ 256 → exec (.preemptionDeferExpiry t tile) s = .next s0) ∧
      (256 < c.deferred → s.spareWaits tile sp r = true → ∃ u, exec (.preemptionDeferExpiry t tile) s = .next u ∧
        State.faulted s u tile 5 v.node c.pc sp r) ∧
      (c.takes = some b → ∃ u, exec (.programInterrupt t tile) s = .next u ∧ State.noWord s u ∧ ∃ w, (tileOf u tile).cur = some w ∧
        ∃ z, w.ctx = some z ∧ z.pc = c.ivec ∧ z.ipc = c.pc ∧ z.itsw = c.tsw ∧ bit z.tsw 0 = false ∧ (c.timer = 0 → bit z.ipend b = false) ∧ z.d = c.d) ∧
      (c.timer = 1 → ∃ u, exec (.tileTimerExpiry t tile) s = .next u ∧ State.noWord s u ∧ ∃ w, (tileOf u tile).cur = some w ∧
        ∃ z, w.ctx = some z ∧ z.timer = 0 ∧ bit z.ipend 1 = true ∧ z.cyc = (c.cyc + 1) % 2 ^ 32 ∧ z.pc = c.pc) ∧
      (nodeP s v.node = some p → p.tile = tile → Tbl.find n.xrun ch = some (src, dst, len, 0) → ch < 4 → ∃ u,
        exec (.transferComplete t tile v.node ch) s = .next u ∧ u.regs = s.regs ∧ u.cmd = s.cmd ∧ Tbl.find (nodeOf u v.node).xrun ch = none ∧
        (∀ j, j < len → u.memB (tileBase tile + dst + j) = s.memB (sharedBase p + src + j)) ∧
        (∀ a, a < tileBase tile + dst ∨ tileBase tile + dst + len ≤ a → u.memB a = s.memB a) ∧ ∃ w, (tileOf u tile).cur = some w ∧
          ∃ z, w.ctx = some z ∧ bit z.ipend (2 + ch) = true ∧ z.pc = c.pc ∧ z.d = c.d)) ∧
    (s.place.replacing = some (tile, sp, at_) → s.place.waiting = [] → tile ≠ sp → ∃ u, exec (.tileReplaced t) s = .next u ∧ (tileOf u sp).st = .run ∧
      (tileOf u sp).mode = x.mode ∧ u.place.replacing = none ∧ u.place.used = s.place.used ++ [(sp, tile)] ∧ State.onlyWord { s with mem := u.mem } u PLACE.CAUSE ∧
      placedNodes u = (placedNodes s).map (fun q => if q.tile = tile then { q with tile := sp } else q) ∧
      ⟨.control, 0xE004, sevWARNING, tile, []⟩ ∈ u.recorder.evq)

/-- An extraction ring takes its block once: the samples go to the posted buffer and a completion behind the descriptor, HEAD advances and the block is counted; with
nothing posted the block is counted as missed and nothing is written. An injection ring takes the slot at HEAD for its block; the samples read become the channels'
values one block later, with a completion. An item at its deadline completes LATE and its block is zero samples marked invalid. A failed descriptor
read stops the ring with ERR. -/
def Obligations.AudioBlockRings : Prop :=
  ∀ (t r a : Nat) (desc data : List Byte) (d : RingP) (x : RingItem) (s : State), r < 96 → ringDef s r = some d → d.rate < 4 → ringLive s r = true →
    let s0 := s.at t
    let fs := rateHz s d.rate
    let len := 2 ^ (r / 16 + 1)
    let w := wordsOfBytes desc 8
    let counted := fun (u : State) (pos : Nat) => ctrGet u.dma.ctr (4 * r + pos) = (ctrGet s.dma.ctr (4 * r + pos) + 1) % 2 ^ 64
    let done := fun (m : List Host.Cell) (idx k status inv : Nat) => hostPut m (ringSlot s r idx + 12)
      (bytesOfWords ([k % 2 ^ 32] ++ stampWords (mediaAt fs (k * len)) ++ [status + inv % 2 ^ 15 * 16 + 2 ^ 31]))
    let silent := fun (u : State) (k : Nat) => ∀ c, c < d.nch → ∀ f, f < len → srcAt u (d.base + c) (mediaAt fs ((k + 1) * len + f)) = smpBad
    let e := blockIdx s r d (s0.time.stc - 104 * 2 ^ 56)
    let i := blockIdx s r d s0.time.stc
    (d.extract = true →
      (e ≤ (s.ring r).lastK → exec (.extractionBlock t r desc) s = .next s0) ∧
      ((s.ring r).lastK < e → ringPosted s r = 0 → ∃ u, exec (.extractionBlock t r desc) s = .next u ∧ State.onlyWord s u (DMA.RING_CAUSE r) ∧
        u.dma.hostMem = s.dma.hostMem ∧ counted u 1 ∧ (u.ring r).lastK = e) ∧
      ((s.ring r).lastK < e → ringPosted s r ≠ 0 → audioBad w = false → len * d.nch * 4 ≤ w.getD 2 0 →
        let smp := (List.range len).flatMap (fun f => (List.range d.nch).map (fun c => outAt s0 bDMA 3 (d.base + c) (mediaAt fs ((e - 1) * len + f))))
        ∃ u, exec (.extractionBlock t r desc) s = .next u ∧ State.onlyWord s u (DMA.RING_HEAD r) ∧ ringHead u r = (ringHead s r + 1) % 65536 ∧ counted u 0 ∧
          (u.ring r).lastK = e ∧ u.dma.hostMem = done (hostPut s.dma.hostMem (w.getD 0 0 + w.getD 1 0 * 2 ^ 32)
            (smp.flatMap (fun y => leBytes 4 (if y.ok then y.v else 0)))) (ringHead s r) (e - 1) 0 (smp.filter (fun y => !y.ok)).length)) ∧
    (d.extract = false →
      ((s.ring r).lastK ≤ i → ringPosted s r = 0 → ∃ u, exec (.injectionBlockCheck t r) s = .next u ∧ State.onlyWord s u (DMA.RING_CAUSE r) ∧
        u.dma.hostMem = s.dma.hostMem ∧ counted u 1 ∧ silent u i) ∧
      ((s.ring r).lastK ≤ i → ringPosted s r ≠ 0 → ∃ u, exec (.injectionBlockCheck t r) s = .next u ∧ State.onlyWord s u (DMA.RING_HEAD r) ∧
        ringHead u r = (ringHead s r + 1) % 65536 ∧ u.way = s.way ∧ (u.ring r).items = (s.ring r).items ++ [⟨ringHead s r, i, []⟩] ∧ (u.ring r).lastK = i + 1) ∧
      ((s.ring r).items = [x] → x.desc = [] → audioBad w = false → len * d.nch * 4 ≤ w.getD 2 0 → ∃ u, exec (.dmaReadCompletion t r false true a desc) s = .next u ∧
        State.noWord s u ∧ (u.ring r).items = [{ x with desc := w }] ∧ u.way = s.way ∧ u.dma.hostMem = s.dma.hostMem) ∧
      ((s.ring r).items = [x] → x.desc ≠ [] → ∃ u, exec (.dmaReadCompletion t r true true a data) s = .next u ∧ State.noWord s u ∧ (u.ring r).items = [] ∧
        counted u 0 ∧ u.dma.hostMem = done s.dma.hostMem x.idx x.k 0 0 ∧ ∀ c, c < d.nch → ∀ f, f < len →
          srcAt u (d.base + c) (mediaAt fs ((x.k + 1) * len + f)) = ⟨leAt data (4 * (f * d.nch + c)) 4, true, none⟩) ∧
      ((s.ring r).items = [x] → s0.time.stc < mediaAt fs ((x.k + 1) * len) → exec (.injectionDeadline t r) s = .next s0) ∧
      ((s.ring r).items = [x] → mediaAt fs ((x.k + 1) * len) ≤ s0.time.stc → ∃ u, exec (.injectionDeadline t r) s = .next u ∧
        State.onlyWord s u (DMA.RING_CAUSE r) ∧ (u.ring r).items = [] ∧ counted u 2 ∧ u.dma.hostMem = done s.dma.hostMem x.idx x.k 1 0 ∧ silent u x.k) ∧
      (s.now < t → (s.ring r).items = [x] → x.desc = [] → ∃ u, exec (.dmaReadTimeout t r false a) s = .next u ∧
        State.onlyWordOr s u (DMA.RING_CTL r) (DMA.RING_CAUSE r) ∧ ringEn u r = false ∧ u.fld (DMA.RING_CTL r) DMA.RING_CTL_ERR = 1 ∧ (u.ring r).items = [] ∧
        u.dma.hostMem = s.dma.hostMem ∧ ⟨.pcie, 0xA002, sevERROR, r, [a % 2 ^ 32, a / 2 ^ 32 % 2 ^ 32]⟩ ∈ u.recorder.evq))

/-- A frame that fits one posted buffer is written there with its write-back behind the descriptor; with nothing posted it is counted as dropped. A good posted
transmit descriptor puts its frame on queue 0 of the ring's port when the ring has its turn; a descriptor of no length completes as BAD_DESC. A coalescing time that is over sends the ring's vector.
When the link goes, when bus mastering is withdrawn or D3hot is entered, and at a function level reset every ring stops without a further write to host memory. -/
def Obligations.HostPath : Prop :=
  ∀ (t r : Nat) (others : List Nat) (d3 : Bool) (f : RingFrame) (desc bytes : List Byte) (s : State),
    let s0 := s.at t
    let sz := 256 * s.fld (ringParam r) DMA.RING_PARAM_RX_BUF
    let p := txRingPort s r
    let w2 := f.bytes.length % 2 ^ 14 + 2 ^ 14 + 2 ^ 15 + 2 ^ 16 * b2n f.oversize + f.port % 4 * 2 ^ 17 + 2 ^ 19 * b2n (!f.mgmt) +
      (if f.mgmt then f.rule % 16 * 2 ^ 20 else 0)
    let more := fun (u : State) (pos n : Nat) => ctrGet u.dma.ctr (4 * r + pos) = (ctrGet s.dma.ctr (4 * r + pos) + n) % 2 ^ 64
    let quiet := fun (u : State) => (∀ q, q < 256 → ringEn u q = false) ∧ u.dma.hostMem = s.dma.hostMem ∧ u.mem = s.mem ∧ u.cmd = s.cmd
    let stopped := fun (u : State) => quiet u ∧ u.dma.bme = false
    (96 ≤ r → r < 160 → s.srx.rings.find? (fun g => g.ring == r - 96) = some f →
      (ringLive s r = false → ∃ u, exec (.rxRingFrameWrite t r [desc]) s = .next u ∧ State.noWord s u ∧ u.srx.rings = s.srx.rings.erase f ∧ more u 2 1 ∧
        u.dma.hostMem = s.dma.hostMem) ∧
      (ringLive s r = true → ringPosted s r = 0 → ∃ u, exec (.rxRingFrameWrite t r [desc]) s = .next u ∧
        State.onlyWordOr s u (DMA.RING_CAUSE r) (DMA.RING_HEAD r) ∧ ringHead u r = ringHead s r ∧ u.srx.rings = s.srx.rings.erase f ∧ more u 2 1 ∧
        u.dma.hostMem = s.dma.hostMem) ∧
      (ringLive s r = true → ringPosted s r ≠ 0 → rxDescBad desc = false → f.bytes ≠ [] → f.bytes.length ≤ sz → ∃ u,
        exec (.rxRingFrameWrite t r [desc]) s = .next u ∧ State.onlyWord s u (DMA.RING_HEAD r) ∧ ringHead u r = (ringHead s r + 1) % 65536 ∧
        u.srx.rings = s.srx.rings.erase f ∧ more u 0 1 ∧ more u 1 f.bytes.length ∧
        u.dma.hostMem = hostPut (hostPut s.dma.hostMem (descWord desc 0 + descWord desc 1 * 2 ^ 32) f.bytes) (ringSlot s r (ringHead s r) + 8)
          (bytesOfWords ([w2, f.bytes.length % 2 ^ 14] ++ stampWords f.stamp ++ [2 ^ 31])))) ∧
    (160 ≤ r → r < 224 → ringLive s r = true → ringPosted s r ≠ 0 → txEof desc = true → nextTurn (Tbl.getD s.dma.txLast p 223) (r :: others) = some r →
      (txSof desc = true → txDescBad desc = false → txLen desc + 4 ≤ s.fld (MAC.MAX_FRAME p) MAC.MAX_FRAME_BYTES → s.blkOn (portBlk p) = true →
        linkUp s p = true → txEn s p = true → bytes.length = txLen desc → ∃ u, exec (.txRingFrameFetch t r others [desc] bytes) s = .next u ∧
          State.onlyWord s u (DMA.RING_HEAD r) ∧ ringHead u r = (ringHead s r + 1) % 65536 ∧ u.dma.hostMem = s.dma.hostMem ∧
          macQ u p 0 = macQ s p 0 ++ [⟨.ring (r - 160) (ringHead s r) 1 (s.ring r).gen (bit (descWord desc 2) 16) (bit (descWord desc 2) 17),
            bytes, 0, false⟩]) ∧
      (txLen desc = 0 → ∃ u, exec (.txRingFrameFetch t r others [desc] bytes) s = .next u ∧ State.onlyWord s u (DMA.RING_HEAD r) ∧
        ringHead u r = (ringHead s r + 1) % 65536 ∧ more u 2 1 ∧ (∀ q, u.mac q = s.mac q) ∧
        u.dma.hostMem = hostPut s.dma.hostMem (ringSlot s r (ringHead s r) + 28) (leBytes 4 (7 + 2 ^ 31)))) ∧
    ((s.ring r).cnt ≠ 0 →
      (s0.now < (s.ring r).cntFrom + us (s.fld (DMA.RING_IRQ r) DMA.RING_IRQ_TIME_US) → exec (.msixCoalesceTimeout t r) s = .next s0) ∧
      (s.fld (DMA.RING_IRQ r) DMA.RING_IRQ_TIME_US ≠ 0 → (s.ring r).cntFrom + us (s.fld (DMA.RING_IRQ r) DMA.RING_IRQ_TIME_US) ≤ s0.now →
        ∃ u, exec (.msixCoalesceTimeout t r) s = .next u ∧ State.noWord s u ∧ (u.ring r).cnt = 0 ∧ (u.ring r).items = (s.ring r).items ∧
          (s.dma.msixEn = true → s.dma.linkUp = true → s.dma.fmask = false →
            bit (s.rd (DMA.MSIX_TABLE (s.fld (DMA.RING_IRQ r) DMA.RING_IRQ_VEC) 3)).toNat 0 = false →
              u.dma.msix = s.fld (DMA.RING_IRQ r) DMA.RING_IRQ_VEC :: s.dma.msix ∧ u.dma.pend = s.dma.pend))) ∧
    (s.blkOn bDMA = true → s.dma.linkUp = true →
      (∃ u, exec (.pcieLinkLost t false) s = .next u ∧ stopped u ∧ u.dma.linkUp = false ∧ u.dma.pend = 0 ∧ (∀ x, blkOf x ≠ bDMA → u.rd x = s.rd x) ∧
        u.host.queue = s.host.queue.filter (fun q => q.write) ∧ ⟨.pcie, 0xA003, sevWARNING, 0, []⟩ ∈ u.recorder.evq) ∧
      (∃ u, exec (.pcieLinkLost t true) s = .next u ∧ u.dma.linkUp = false ∧ u.pwr.pcieUp = false ∧ u.dma.hostMem = s.dma.hostMem) ∧
      (∃ u, exec (.pcieFlr t) s = .next u ∧ stopped u ∧ u.dma.linkUp = true ∧ u.dma.pend = 0 ∧ (∀ x, blkOf x ≠ bDMA → u.rd x = s.rd x) ∧
        ⟨.pcie, 0xA005, sevWARNING, 0, []⟩ ∈ u.recorder.evq)) ∧
    (s.now < t → ∃ u, exec (.busMasterOff t d3) s = .next u ∧ quiet u ∧ u.dma.linkUp = s.dma.linkUp ∧ u.dma.bme = (d3 && s.dma.bme) ∧
      u.dma.d3 = (d3 || s.dma.d3) ∧
      ((∀ q, q < 256 → ringEn s q = false) → u = { s0 with dma := { s.dma with bme := d3 && s.dma.bme, d3 := d3 || s.dma.d3 } }))

/-- HB_OUT shows FAIL while an indicator stands, DIVERGE until 10 ms after a mismatch that it did not cause, and OK otherwise. Heartbeats and hellos go out on the lanes that are
up with what the unit shows. The third heartbeat in a row raises PEER_SEEN; a standby whose mode is not the active's goes ISOLATED; 300 µs without a heartbeat end it. The
hundredth average in a row beyond TIME_NS ends TIME_OK. A hello that agrees pairs the units, another code refuses with 2. A digest is compared with its
counterpart, and one that waits 2 ms is missing. A link that comes back isolates a standby. -/
def Obligations.TwinLinkRows : Prop :=
  ∀ (t l a : Nat) (off : Int) (h : Heartbeat) (g : Hello) (d e : Digest) (s : State), s.blkOn bTWIN = true → twinned s = true → s.twin.forced = false →
    s.twin.yield = [] → s.twin.takeover = [] → s.cmd.mode = .run →
    let s0 := s.at t
    let mine := helloOf s
    let calm := s.twin.role = .isolated ∧ s.twin.gander = .standby
    let follower := s.twin.role = .standby ∧ s.twin.gander = .standby
    let left := fun (u : State) (why : Nat) => u.twin.role = .isolated ∧ ⟨.fabric, 0xB009, sevNOTICE, 0, [2, 3, why]⟩ ∈ u.recorder.evq
    let counted := fun (u : State) (k : Nat) => ctrGet u.twin.ctr k = (ctrGet s.twin.ctr k + 1) % 2 ^ 64
    (s.domOn 1 = true → s.twin.ind ≠ 0 → ∃ u, exec (.hbSymbol t) s = .next u ∧ State.noWord s u ∧ u.twin.hb = .fail) ∧
    (s.domOn 1 = true → s.twin.ind = 0 → s.twin.resyncing = false → s.fld TWIN.TWIN_FORCE TWIN.TWIN_FORCE_FORCE = 0 →
      (s.twin.misAt = [] → s.twin.divTill ≤ s0.now → exec (.hbSymbol t) s = .next { s0 with twin := { s.twin with hb := .ok } }) ∧
      (s.twin.misAt = [a] → a + us 200 ≤ s0.now → s0.now < a + ms 10 → ∃ u, exec (.hbSymbol t) s = .next u ∧ State.noWord s u ∧ u.twin.hb = .diverge ∧
        u.twin.misAt = [])) ∧
    (∃ u, exec (.twinHeartbeatTx t) s = .next u ∧ State.noWord s u ∧ ∀ k, k < 2 → bit s.twin.lanes k = true →
      .heartbeat k ⟨s.twin.role.code, s.twin.gander.code, s.twin.hb.code, s.cmd.mode.code, s.cmd.groups, s0.stc8, false⟩ ∈ u.twin.out) ∧
    (bit s.twin.lanes l = false → exec (.twinHeartbeatRx t l h) s = .next s0 ∧ exec (.twinLaneDown t l) s = .next s0) ∧
    (bit s.twin.lanes l = true → calm → s.twin.peerSeen = false → s.twin.hbRun = 2 → s.twin.hbLast = some a → a + us 50 ≤ s0.now → s0.now ≤ a + us 150 →
      exec (.twinHeartbeatRx t l h) s =
        .next { s0 with twin := { s.twin with peer := some h, peerSeen := true, hbLast := some s0.now, hbRun := 3 } }) ∧
    (bit s.twin.lanes l = true → follower → h.role = 1 → h.mode ≠ s.cmd.mode.code → s.cmd.modeStc / 2 ^ 48 ≤ h.stc8 → s.cmd.groupsStc / 2 ^ 48 ≤ h.stc8 → ∃ u,
      exec (.twinHeartbeatRx t l h) s = .next u ∧ State.onlyWord s u TWIN.TWIN_CAUSE ∧ u.twin.peer = some h ∧ left u 9) ∧
    (s.twin.peerSeen = true → s.twin.hbLast = some a →
      (s0.now < a + us 300 → exec (.peerSilenceTimeout t) s = .next s0) ∧
      (a + us 300 ≤ s0.now → calm → ∃ u, exec (.peerSilenceTimeout t) s = .next u ∧ State.onlyWord s u TWIN.TWIN_CAUSE ∧ u.twin.peerSeen = false ∧
        u.twin.role = .isolated ∧ u.twin.lostFrom = s0.now ∧ ⟨.fabric, 0xB002, sevWARNING, 0, []⟩ ∈ u.recorder.evq)) ∧
    (s.twin.lanes ≠ 0 → follower → s.twin.ind = 0 → s.fld TWIN.TWIN_FORCE TWIN.TWIN_FORCE_FORCE = 0 → s.twin.timeOk = true →
      s.fld TWIN.TWIN_CTL TWIN.TWIN_CTL_TIME_NS * 256 < off.natAbs →
        (s.twin.timeBad < 99 → exec (.twinTimeAverage t off) s =
          .next { s0 with twin := { s.twin with timeOff := off, timeBad := s.twin.timeBad + 1, timeGood := 0 } }) ∧
        (s.twin.timeBad = 99 → ∃ u, exec (.twinTimeAverage t off) s = .next u ∧ State.onlyWord s u TWIN.TWIN_CAUSE ∧ u.twin.timeOk = false ∧
          u.twin.timeOff = off ∧ left u 10 ∧ ⟨.fabric, 0xB003, sevWARNING, 0, []⟩ ∈ u.recorder.evq)) ∧
    (bit s.twin.lanes l = true → ∃ u, exec (.twinLaneDown t l) s = .next u ∧ State.onlyWord s u TWIN.TWIN_CAUSE ∧ u.twin.lanes = setBit s.twin.lanes l false ∧
      u.twin.role = s.twin.role ∧ ⟨.fabric, 0xB001, sevWARNING, l, []⟩ ∈ u.recorder.evq) ∧
    (l < 2 → s.twin.lanes = 0 → s.twin.role = .standby → ∃ u, exec (.twinLaneUp t l) s = .next u ∧ State.onlyWord s u TWIN.TWIN_CAUSE ∧
      u.twin.lanes = setBit 0 l true ∧ left u 8) ∧
    (s.twin.lanes ≠ 0 → exec (.helloTx t) s = .next { s0 with twin := { s.twin with out := .hello mine :: s.twin.out } }) ∧
    (s.twin.lanes ≠ 0 → calm → s.twin.clash = false → g.unit ≠ mine.unit →
      (g = { mine with serial := g.serial, unit := g.unit, tileFault := g.tileFault, clockId := g.clockId } → ∃ u, exec (.helloReceived t g) s = .next u ∧
        State.noWord s u ∧ u.twin.paired = true ∧ u.twin.refuse = 0 ∧ u.twin.clockId = (if unitSel s = 1 then g.clockId else clockIdentity s)) ∧
      (g.code ≠ mine.code → s.twin.refuse ≠ 2 → ∃ u, exec (.helloReceived t g) s = .next u ∧ State.onlyWord s u TWIN.TWIN_CAUSE ∧ u.twin.paired = false ∧
        u.twin.refuse = 2 ∧ u.twin.clockId = s.twin.clockId ∧ ⟨.fabric, 0xB004, sevERROR, 0, []⟩ ∈ u.recorder.evq)) ∧
    (s.twin.lanes ≠ 0 → s.twin.paired = true → s.twin.role ≠ .solo → s.twin.localD = [⟨d, a⟩] → d.block = e.block → d.index = e.index → d.k = e.k →
      (d.crc = e.crc → ∃ u, exec (.digestReceived t e) s = .next u ∧ State.noWord s u ∧ u.twin.localD = [] ∧ u.twin.misAt = s.twin.misAt ∧
        u.twin.cmpAt = some s0.now ∧ counted u 0) ∧
      (d.crc ≠ e.crc → ∃ u, exec (.digestReceived t e) s = .next u ∧ State.onlyWordOr s u TWIN.TWIN_CAUSE TWIN.MISMATCH_INFO ∧ u.twin.localD = [] ∧
        u.twin.misAt = s.twin.misAt ++ [s0.now] ∧ u.twin.cleanFrom = s0.now ∧ counted u 0 ∧ counted u 1)) ∧
    (s.twin.localD = [⟨d, a⟩] → s.twin.peerD = [] →
      (s0.now < a + ms 2 → exec (.digestTimeout t) s = .next s0) ∧
      (a + ms 2 ≤ s0.now → ∃ u, exec (.digestTimeout t) s = .next u ∧ State.noWord s u ∧ u.twin.localD = [] ∧ u.twin.cleanFrom = s0.now ∧ counted u 2)) ∧
    (l ≠ 8 → s.twin.misAt = [] → Tbl.find s.twin.indTill l = some a →
      (s0.now < a → exec (.checkIndicatorExpiry t l) s = .next s0) ∧
      (a ≤ s0.now → ∃ u, exec (.checkIndicatorExpiry t l) s = .next u ∧ State.noWord s u ∧ u.twin.ind = setBit s.twin.ind l false))

/-- Two symbols of GRANT in a row on ROLE_IN make an ISOLATED unit or a STANDBY the ACTIVE one; two of STANDBY make an ACTIVE unit STANDBY, or ISOLATED with the
verdict FAIL; symbols of two kinds change no role. A STANDBY that loses Gander but sees its peer stays. Gander takes a heartbeat symbol by its high time, holds an input silent
after 300 µs, gives the first grant to the unit PREFER names once its settling time is over, moves it from a unit that is not good to one that is, and
shows RESYNC to the other unit while they diverge. Both lines never carry GRANT. -/
def Obligations.GanderRows : Prop :=
  ∀ (t i high h1 h2 a : Nat) (s : State),
    let s0 := s.at t
    let gin := fun (u : State) (k : Nat) => if k = 0 then u.gander.in0 else u.gander.in1
    let line := fun (u : State) (k : Nat) => if k = 0 then u.gander.grant0 else u.gander.grant1
    let own := gin s s.gander.holder
    let other := gin s (1 - s.gander.holder)
    let took := fun (u : State) (k : Nat) => u.gander.holder = k ∧ line u k = .grant ∧ line u (1 - k) = .standby ∧
      ⟨.control, 0xB010, sevNOTICE, 0, [s.gander.in0.sym.code, s.gander.in1.sym.code]⟩ ∈ u.recorder.evq
    (s.blkOn bTWIN = true → twinned s = true → s.twin.forced = false → s.twin.yield = [] → s.twin.takeover = [] → s.cmd.mode = .run →
      s.fld TWIN.TWIN_FORCE TWIN.TWIN_FORCE_FORCE = 0 →
      (s.twin.role = .standby ∨ s.twin.role = .isolated → 6500 ≤ h1 → h1 ≤ 8500 → 6500 ≤ h2 → h2 ≤ 8500 → ∃ u,
        exec (.ganderSymbolRecognised t h1 h2) s = .next u ∧ State.onlyWordOr s u TWIN.TWIN_CAUSE TWIN.TWIN_CTL ∧ u.twin.gander = .grant ∧ u.twin.role = .active ∧
        u.twin.gLast = some s0.now ∧ ⟨.fabric, 0xB009, sevNOTICE, 0, [s.twin.role.code, 1, 1]⟩ ∈ u.recorder.evq) ∧
      (s.twin.role = .active → 1500 ≤ h1 → h1 ≤ 3500 → 1500 ≤ h2 → h2 ≤ 3500 → ∃ u,
        exec (.ganderSymbolRecognised t h1 h2) s = .next u ∧ State.onlyWord s u TWIN.TWIN_CAUSE ∧ u.twin.gander = .standby ∧
        u.twin.role = (if s.twin.ind = 0 then .standby else .isolated) ∧ u.twin.resyncing = false) ∧
      (gKind h1 ≠ gKind h2 → ∃ u, exec (.ganderSymbolRecognised t h1 h2) s = .next u ∧ State.noWord s u ∧ u.twin.gander = s.twin.gander ∧
        u.twin.role = s.twin.role ∧ u.recorder = s.recorder) ∧
      (s.twin.gander ≠ .lost → s.twin.gLast = some a → s0.now < a + us 30 → exec (.ganderLostTimeout t) s = .next s0) ∧
      (s.twin.gander ≠ .lost → s.twin.gLast = some a → a + us 30 ≤ s0.now → s.twin.role = .standby → s.twin.ind = 0 → s.twin.timeOk = true → s.twin.paired = true →
        ∃ u, exec (.ganderLostTimeout t) s = .next u ∧ State.onlyWord s u TWIN.TWIN_CAUSE ∧ u.twin.gander = .lost ∧
          u.twin.role = (if s.twin.peerSeen then .standby else .isolated) ∧ ⟨.fabric, 0xB008, sevWARNING, 0, []⟩ ∈ u.recorder.evq)) ∧
    (arbOn s = true → i < 2 →
      (15000 ≤ high → high ≤ 25000 → ∃ u, exec (.arbHbSymbol t i high) s = .next u ∧ State.noWord s u ∧ (gin u i).sym = .ok ∧ (gin u i).last = some s0.now ∧
        (gin u i).divRun = 0 ∧ gin u (1 - i) = gin s (1 - i) ∧ u.gander.first = some (s.gander.first.getD s0.now)) ∧
      (high < 15000 ∨ 85000 < high → ∃ u, exec (.arbHbSymbol t i high) s = .next u ∧ State.noWord s u ∧ gin u i = { gin s i with divRun := 0 } ∧
        gin u (1 - i) = gin s (1 - i) ∧ u.gander.first = s.gander.first) ∧
      ((gin s i).sym ≠ .none → (gin s i).last = some a → s0.now < a + us 300 → exec (.arbInputSilent t i) s = .next s0) ∧
      ((gin s i).sym ≠ .none → (gin s i).last = some a → a + us 300 ≤ s0.now → ∃ u, exec (.arbInputSilent t i) s = .next u ∧
        State.onlyWord s u SYS.ARB_STATUS ∧ gin u i = { gin s i with sym := .none, divRun := 0 } ∧ gin u (1 - i) = gin s (1 - i) ∧
        ⟨.control, 0xB011, sevWARNING, 0, [(gin u 0).sym.code, (gin u 1).sym.code]⟩ ∈ u.recorder.evq)) ∧
    (arbOn s = false → exec (.arbHbSymbol t i high) s = .next s0 ∧ exec (.ganderDecision t) s = .next s0) ∧
    (arbOn s = true → s.gander.resyncTill ≤ s0.now →
      (s.gander.holder = 2 → s.gander.first = some a → a + ms (s.fld SYS.ARB_CTL SYS.ARB_CTL_SETTLE_MS) ≤ s0.now → s.fld SYS.ARB_CTL SYS.ARB_CTL_PREFER = i →
        (gin s i).sym = .ok → ∃ u, exec (.ganderDecision t) s = .next u ∧ State.onlyWord s u SYS.ARB_STATUS ∧ took u i) ∧
      (s.gander.holder < 2 → own.sym = .none ∨ own.sym = .fail ∨ own.sym = .yield → other.sym = .ok → other.from_ + ms 1 ≤ s0.now → ∃ u,
        exec (.ganderDecision t) s = .next u ∧ State.onlyWord s u SYS.ARB_STATUS ∧ took u (1 - s.gander.holder)) ∧
      (s.gander.holder < 2 → own.sym = .ok → own.divRun < 10 → other.divRun < 10 → ∃ u, exec (.ganderDecision t) s = .next u ∧ State.noWord s u ∧
        u.gander.holder = s.gander.holder ∧ line u s.gander.holder = .grant ∧ line u (1 - s.gander.holder) = .standby ∧ u.recorder = s.recorder) ∧
      (s.gander.holder < 2 → own.sym = .ok → other.sym = .diverge → 10 ≤ other.divRun → ∃ u, exec (.ganderDecision t) s = .next u ∧
        State.onlyWord s u SYS.ARB_STATUS ∧ u.gander.holder = s.gander.holder ∧ u.gander.divergent = true ∧ line u s.gander.holder = .grant ∧
        line u (1 - s.gander.holder) = .resync))

/-- An ISOLATED unit that is paired with the ACTIVE one asks for a snapshot; the ACTIVE one sends its tables, its time offset and where the stream restarts; the installed
snapshot gives the table words it lists and the others their reset values. A unit that is taking a snapshot holds mirror items; one that follows isolates at a gap in
their numbers. After a clean interval the unit rejoins as STANDBY, unless REJOIN is needed; without one within LIMIT_S it fails. TAKEOVER and YIELD not
done within 10 ms complete with FAILED. -/
def Obligations.ResyncRows : Prop :=
  ∀ (t n a since : Nat) (c : Cmd) (x : Snapshot) (m : MirrorItem) (h : Heartbeat) (s : State), s.blkOn bTWIN = true → twinned s = true → s.cmd.mode = .run →
    s.calm = true → bit s.cmd.safeCause scPARITY = false →
    let s0 := s.at t
    let clean := secs (s.fld TWIN.RESYNC_CTL TWIN.RESYNC_CTL_CLEAN_S)
    let table := fun (b : Bool) (w : Nat) => (snapMask (phys b w) = 0 ∨ swapBank w ≠ w : Prop)
    let seen := s.twin.paired = true ∧ s.twin.peerSeen = true ∧ s.twin.peer = some h ∧ h.role = 1 ∧ s.twin.ind = 0
    (s.twin.role = .isolated → seen → s.twin.resyncing = false → s.twin.resync = .idle → s.twin.lanes ≠ 0 → ∃ u, exec (.resyncStart t) s = .next u ∧
      State.noWord s u ∧ u.twin.resyncing = true ∧ u.twin.resync = .asked ∧ u.twin.held = [] ∧ u.twin.out = .snapReq :: s.twin.out) ∧
    (s.twin.paired = false → exec (.resyncStart t) s = .next s0 ∧ exec (.resyncSnapshot t since) s = .next s0) ∧
    (s.twin.role = .active → s.twin.paired = true → s.twin.lanes ≠ 0 → since + ms 2 ≤ s0.now → ∃ u, exec (.resyncSnapshot t since) s = .next u ∧ State.noWord s u ∧
      u.twin.out = .snapshot (snapshotOf s) :: s.twin.out ∧ (snapshotOf s).off = s.time.off ∧ (snapshotOf s).named = s.time.named ∧
      (snapshotOf s).seq = s.twin.seqOut ∧ ∀ e ∈ s.regs, snapMask (phys s.bankSel e.1) ≠ 0 →
        (phys s.bankSel e.1, (e.2 &&& snapMask (phys s.bankSel e.1)).toNat) ∈ (snapshotOf s).regs) ∧
    (s.twin.role = .isolated → s.twin.resyncing = true → s.twin.held = [] → x.off = s.time.off → (∀ e ∈ s.regs, table s.bankSel e.1) →
      (∀ e ∈ x.regs, table false e.1) → ∃ u, exec (.resyncInstallDone t x) s = .next u ∧ u.twin.role = .isolated ∧ u.twin.resyncing = false ∧
        u.twin.resync = .watching s0.now ∧ u.twin.seqIn = some x.seq ∧ u.time.named = x.named ∧ u.time.steps = s.time.steps ∧ u.mem = s.mem ∧ u.cmd = s.cmd ∧
        (∀ w, snapMask w = 0 → u.rd w = s.rd w) ∧ ∀ w, snapMask w ≠ 0 → swapBank w ≠ w → u.rd w = (match x.regs.find? (fun e => e.1 == w) with
          | some e => BitVec.ofNat 32 e.2
          | none => resetWord w)) ∧
    (s.twin.lanes ≠ 0 → s.twin.resyncing = true → exec (.mirrorItemReceived t n m) s = .next { s0 with twin := { s.twin with held := s.twin.held ++ [(n, m)] } }) ∧
    (s.twin.lanes ≠ 0 → s.twin.resyncing = false → s.twin.role = .standby → s.twin.seqIn = some a → s.twin.yield = [] → s.twin.takeover = [] →
      (n ≠ a + 1 → ∃ u, exec (.mirrorItemReceived t n m) s = .next u ∧ State.onlyWord s u TWIN.TWIN_CAUSE ∧ u.twin.role = .isolated ∧
        ⟨.fabric, 0xB009, sevNOTICE, 0, [2, 3, 8]⟩ ∈ u.recorder.evq) ∧
      (n = a + 1 → m = .banks since (banksCrc s) → exec (.mirrorItemReceived t n m) s = .next { s0 with twin := { s.twin with seqIn := some n } }) ∧
      (n = a + 1 → m = .stateReset since → ∃ u, exec (.mirrorItemReceived t n m) s = .next u ∧ State.noWord s u ∧ u.twin.seqIn = some n ∧
        u.twin.stateAt = some since ∧ u.twin.role = .standby)) ∧
    (s.twin.lanes ≠ 0 → s.twin.resyncing = false → s.twin.role = .isolated → s.twin.resync = .idle → m = .write n since →
      exec (.mirrorItemReceived t n m) s = .next s0) ∧
    (s.twin.resync = .watching since → s.twin.cleanSeen = false → s0.now < s.twin.cleanFrom + clean →
      (s0.now < since + secs (s.fld TWIN.RESYNC_CTL TWIN.RESYNC_CTL_LIMIT_S) → exec (.resyncLimitExpiry t) s = .next s0) ∧
      (since + secs (s.fld TWIN.RESYNC_CTL TWIN.RESYNC_CTL_LIMIT_S) ≤ s0.now → ∃ u, exec (.resyncLimitExpiry t) s = .next u ∧
        State.onlyWord s u TWIN.TWIN_CAUSE ∧ u.twin.resync = .failed ∧ u.twin.role = s.twin.role ∧ ⟨.fabric, 0xB00B, sevERROR, 0, []⟩ ∈ u.recorder.evq)) ∧
    (s.twin.role = .isolated → seen → s.twin.timeOk = true → s.twin.gander = .standby → s.twin.resyncing = false → s.twin.resync = .watching since →
      s.fld TWIN.TWIN_FORCE TWIN.TWIN_FORCE_FORCE = 0 → s.twin.cleanFrom + clean ≤ s0.now → s.twin.cmpAt = some a → s0.now ≤ a + clean →
      (s.now < t → s.flag TWIN.TWIN_CTL TWIN.TWIN_CTL_AUTO_REJOIN = true → s.twin.rejoinHeld = false → s.twin.yield = [] → s.twin.takeover = [] → ∃ u,
        exec (.rejoin t) s = .next u ∧ State.onlyWordOr s u TWIN.TWIN_CAUSE TWIN.TWIN_CTL ∧ u.twin.role = .standby ∧ u.twin.divergent = false ∧
        ⟨.fabric, 0xB00C, sevNOTICE, 0, []⟩ ∈ u.recorder.evq) ∧
      (s.twin.rejoinHeld = true → s.twin.rejoinOk = false → exec (.rejoin t) s = .next s0)) ∧
    (s.twin.takeover = [(c, a)] →
      (s0.now < a + ms 10 → exec (.takeoverTimeout t) s = .next s0) ∧
      (a + ms 10 ≤ s0.now → exec (.takeoverTimeout t) s = .next (finishStarted { s0 with twin := { s.twin with takeover := [] } } c cFAILED 5))) ∧
    (s.twin.role = .active →
      (s.twin.yield = [(none, a)] → s0.now < a + ms 10 → exec (.yieldTimeout t) s = .next s0) ∧
      (s.twin.yield = [(none, a)] → a + ms 10 ≤ s0.now → exec (.yieldTimeout t) s = .next { s0 with twin := { s.twin with yield := [], yieldIso := false, rejoinHeld := false } }) ∧
      (s.twin.yield = [(some c, a)] → a + ms 10 ≤ s0.now → s.twin.peerSeen = false → exec (.yieldTimeout t) s =
        .next (finishStarted { s0 with twin := { s.twin with yield := [], yieldIso := false, rejoinHeld := false } } c cFAILED 2)) ∧
      (s.twin.yield = [(some c, a)] → a + ms 10 ≤ s0.now → s.twin.peerSeen = true → s.twin.peer = some h → h.sym = 1 → s.twin.gander = .lost →
        exec (.yieldTimeout t) s = .next (finishStarted { s0 with twin := { s.twin with yield := [], yieldIso := false, rejoinHeld := false } } c cFAILED 3)))

/-- A hello goes out under the lane's number with the serial heard. The third hello within 3 ms that shows this device as heard brings the lane up; one with its own serial, 3 ms
without a hello, the loss of block lock and a mean delay above 100 ns take it down; the delay is half of the round trip less the far end's residence. A newer record that changes
no reachable device is kept and passed on over every other lane that is up, this device's own is not; the own record goes out under a new version. When the number of reachable devices has been EXPECT for 100 ms the fabric forms with the IDs in
the order of the serials. -/
def Obligations.FabricLanes : Prop :=
  ∀ (t l a b k trip res : Nat) (h : LaneHello) (rec : LinkState) (s : State), fabHere s l = true → fabTwin s = false → s.fab.tm = none → s.fab.st = .discovering →
    let s0 := s.at t
    let x := fabLane s l
    let others := fun (u : State) => ∀ j, j ≠ l → fabLane u j = fabLane s j
    let ctr := fun (u : State) (pos : Nat) => ctrGet u.fab.ctr (4 * (0x100 + l) + pos) = (ctrGet s.fab.ctr (4 * (0x100 + l) + pos) + 1) % 2 ^ 64
    let fell := fun (u : State) => State.onlyWord s u FAB.CAUSE ∧ (fabLane u l).up = false ∧ others u ∧ ctr u 3 ∧
      ⟨.fabric, 0xC002, sevWARNING, l, []⟩ ∈ u.recorder.evq
    let last := ((trip - res) :: x.samples).take 16
    let mean := last.foldl (· + ·) 0 / (2 * last.length)
    let newer := s.fab.recs.filter (fun r => r.serial != rec.serial) ++ [rec]
    (∃ u, exec (.laneHelloTx t l) s = .next u ∧ State.noWord s u ∧ fabLane u l = { x with lock := true } ∧ others u ∧ ctr u 0 ∧
      u.fab.out = .hello l ⟨s.chip.fuses.serial, l, x.neigh.map (fun n => n.1)⟩ :: s.fab.out) ∧
    (x.up = false → x.refuse ≠ 2 → x.hellos = [a, b] → s0.now ≤ b + ms 3 → h.serial ≠ s.chip.fuses.serial → h.heard = some s.chip.fuses.serial → ∃ u,
      exec (.laneHelloReceived t l h) s = .next u ∧ State.onlyWord s u FAB.CAUSE ∧ ctr u 1 ∧ others u ∧
      fabLane u l = { x with up := true, lock := true, hellos := [s0.now, a, b], neigh := some (h.serial, h.lane), refuse := 0 } ∧
      ⟨.fabric, 0xC001, sevNOTICE, l, []⟩ ∈ u.recorder.evq) ∧
    (x.up = true → h.serial = s.chip.fuses.serial → ∃ u, exec (.laneHelloReceived t l h) s = .next u ∧ fell u ∧ (fabLane u l).refuse = 1) ∧
    (x.up = true → s0.now < x.hellos.headD 0 + ms 3 → exec (.laneHelloTimeout t l) s = .next s0) ∧
    (x.up = true → x.hellos.headD 0 + ms 3 ≤ s0.now → ∃ u, exec (.laneHelloTimeout t l) s = .next u ∧ fell u) ∧
    (x.up = true → ∃ u, exec (.ubleyBlockLockLoss t l) s = .next u ∧ fell u ∧ fabLane u l = UbLaneS.init) ∧
    (x.up = true → mean ≤ 10000 → exec (.laneDelayExchange t l trip res) s =
      .next (setFabLane s0 l { x with samples := last, delay := mean })) ∧
    (x.up = true → 10000 < mean → ∃ u, exec (.laneDelayExchange t l trip res) s = .next u ∧ fell u ∧ (fabLane u l).refuse = 2) ∧
    (fabPart s = true → k < 8 → (fabLane s k).up = true → ∃ u, exec (.linkStateTx t) s = .next u ∧ State.noWord s u ∧ u.fab.ver = s.fab.ver + 1 ∧
      .link k { ownRecord s false with ver := s.fab.ver + 1 } ∈ u.fab.out ∧ u.fab.lanes = s.fab.lanes) ∧
    (fabPart s = true → x.up = true → rec.serial ≠ s.chip.fuses.serial → (∀ r ∈ s.fab.recs, r.serial = rec.serial → r.ver < rec.ver) → rec.form = false →
      fabReach { s with fab := { s.fab with recs := newer } } = s.fab.reach → k < 8 → k ≠ l → (fabLane s k).up = true → ∃ u,
        exec (.linkStateRecord t l rec) s = .next u ∧ State.noWord s u ∧ u.fab.recs = newer ∧ .link k rec ∈ u.fab.out ∧ ctr u 1) ∧
    (fabPart s = true → x.up = true → rec.serial = s.chip.fuses.serial → ∃ u, exec (.linkStateRecord t l rec) s = .next u ∧ State.noWord s u ∧
      u.fab.recs = s.fab.recs ∧ u.fab.out = s.fab.out ∧ ctr u 1) ∧
    (fabPart s = true → s.fld FAB.CTL FAB.CTL_EXPECT = (fabReach s).length → s.fab.flows = [] →
      (s0.now < s.fab.changeAt + ms 100 → exec (.fabricFormTimer t) s = .next s0) ∧
      (s.fab.changeAt + ms 100 ≤ s0.now → 0 < (fabReach s).length → (fabReach s).length ≤ 64 → ∃ u, exec (.fabricFormTimer t) s = .next u ∧
        State.onlyWordOr s u FAB.CTL FAB.CAUSE ∧ u.fld FAB.CTL FAB.CTL_FORM = 0 ∧ u.fab.st = .formed ∧ u.fab.formed = fabReach s ∧
        u.fab.present = 2 ^ (fabReach s).length - 1 ∧ ⟨.fabric, 0xC003, sevNOTICE, 0, []⟩ ∈ u.recorder.evq))

/-- A rebuild gives every present member the lane of the fewest hops and takes a flow DOWN whose path is broken and that is stopped. The time master sends its time on the lanes of
the routing paths; the sixteenth message in a row from it makes fabric time valid, the tenth in a row beyond 100 µs sets the skew, and each goes on
with the delay of the lane and the residence time added. The newest whole cell of a flow goes out
once with its CRC; a cell for this member fills the receive buffer, one for another goes on with one hop less, and one with a false CRC is dropped. At its read-out instant the newest
sample becomes its channels' value. -/
def Obligations.FabricFlows : Prop :=
  ∀ (t l f i m res : Nat) (stc8 : Int) (cell : List Byte) (x : FabFlowS) (r : List (Nat × Nat)) (s : State), fabFormed s = true →
    let s0 := s.at t
    let me := myId s
    let d := fabDef s f
    let g := Nat.max 1 d.g
    let hz := fabHz s d
    let n := s0.time.stc * hz / stcSec 1
    let body := cell.take (cell.length - 4)
    let good := fabHere s l = true ∧ (fabLane s l).up = true ∧ cell.length = cellLen d ∧ leAt cell 4 2 = f ∧ f < 256 ∧ byteAt cell 0 = 1 ∧ byteAt cell 6 = d.g
    let whole := leAt cell (cell.length - 4) 4 = crc32 body
    let at_ := leAt cell 8 8
    let here := stc8 + ((fabLane s l).delay : Int) * 256 / 100
    let skewed := 25600 < (here - (s0.stc8 : Int)).natAbs
    let from_ := fabHere s l = true ∧ (fabLane s l).up = true ∧ s.fab.tm = some m ∧ m ≠ me ∧ fabMaster s0 = s0
    let run := s.fab.valid = false ∧ s0.now < s.fab.tmAt + ms 2
    let passed := fun (u : State) => u.fab.ft = here - (s0.stc8 : Int) ∧ ∀ k ∈ treeLanes s m, k ≠ l → .time k m (here + (res : Int)).toNat ∈ u.fab.out
    let ctr := fun (u : State) (pos : Nat) => ctrGet u.fab.ctr (4 * f + pos) = (ctrGet s.fab.ctr (4 * f + pos) + 1) % 2 ^ 64
    (fabTopology s0 = s0 → s.fab.flows = [] → ∃ u, exec (.routeRebuild t) s = .next u ∧ State.onlyWord s u FAB.CAUSE ∧
      (∀ q ∈ fabPresent s, Tbl.find u.fab.routes q = routeOf (fabEdges s) me q) ∧ u.fab.present = s.fab.present ∧ u.fab.rebuilt = true ∧
      ⟨.fabric, 0xC008, sevNOTICE, 0, []⟩ ∈ u.recorder.evq) ∧
    (fabTopology s0 = s0 → s.fab.flows = [(f, x)] → x.st = 1 → x.stopped = true → pathWhole (fabEdges s) x.path = false → ∃ u,
      exec (.routeRebuild t) s = .next u ∧ State.onlyWord s u FAB.CAUSE ∧ (fabFlow u f).st = 2 ∧ (fabFlow u f).path = x.path ∧
      ⟨.fabric, 0xC00C, sevWARNING, 0, [f % 2 ^ 32]⟩ ∈ u.recorder.evq) ∧
    (fabMaster s0 = s0 → s.fab.tm ≠ some me → exec (.fabricTimeTx t) s = .next s0) ∧
    (fabMaster s0 = s0 → s.fab.tm = some me → i ∈ treeLanes s me → ∃ u, exec (.fabricTimeTx t) s = .next u ∧ State.noWord s u ∧
      .time i me s0.stc8 ∈ u.fab.out ∧ u.time = s0.time) ∧
    (from_ → run → s.fab.tmRun < 15 → ∃ u, exec (.fabricTimeMessage t l m stc8 res) s = .next u ∧ State.noWord s u ∧ u.fab.tmRun = s.fab.tmRun + 1 ∧
      u.fab.valid = false ∧ passed u) ∧
    (from_ → run → 15 ≤ s.fab.tmRun → ¬skewed → s.fab.skew = false → ∃ u, exec (.fabricTimeMessage t l m stc8 res) s = .next u ∧ State.noWord s u ∧
      u.fab.valid = true ∧ passed u ∧ u.fab.skewBad = 0 ∧ u.fab.skew = false) ∧
    (from_ → s.fab.valid = true → skewed → s.fab.skew = false → s.fab.skewBad = 9 → ∃ u, exec (.fabricTimeMessage t l m stc8 res) s = .next u ∧
      State.onlyWord s u FAB.CAUSE ∧ u.fab.skew = true ∧ passed u ∧ ⟨.fabric, 0xC00A, sevWARNING, me, []⟩ ∈ u.recorder.evq) ∧
    (fabFlow s f = x → x.st = 1 → d.src = me → g ≤ n + 1 → x.sent ≤ ((n + 1) / g - 1) * g → x.path = (me, l) :: r →
      let k := ((n + 1) / g - 1) * g
      let smp := (List.range g).flatMap (fun j => (List.range d.nch).map (fun c => outAt s0 bFAB 4 (7168 + x.txBase + c) (mediaAt hz (k + j))))
      ∃ u, exec (.cellSend t f) s = .next u ∧ State.noWord s u ∧ fabFlow u f = { x with sent := k + g } ∧
        u.fab.out = .cell l (withCrc (cellBody d.src d.dst 63 f g k smp)) :: s.fab.out) ∧
    (fabFlow s f = x → x.st = 1 → n + 1 < x.sent → exec (.cellSend t f) s = .next s0) ∧
    (good → whole → byteAt cell 2 = me → fabFlow s f = x → d.f = f → x.st = 1 → s0.time.stc < mediaAt hz (at_ + x.lF) → at_ < n + 1 - x.lF + 512 → i < d.nch * d.g →
      d.g ≤ 512 → ∃ u, exec (.cellReceived t l cell) s = .next u ∧ State.noWord s u ∧ ctr u 1 ∧ { fabFlow u f with buf := [] } = { x with buf := [] } ∧
        Tbl.getD (fabFlow u f).buf (i % d.nch * 512 + (at_ + i / d.nch) % 512) smpBad =
          (if bit (byteAt cell (16 + 4 * d.nch * d.g + i / 8)) (i % 8) then ⟨leAt cell (16 + 4 * i) 4, true, none⟩ else smpBad)) ∧
    (good → whole → byteAt cell 2 ≠ me → byteAt cell 3 ≠ 0 → (fabFlow s f).path.find? (fun y => y.1 == me) = some (me, i) → ∃ u,
      exec (.cellReceived t l cell) s = .next u ∧ State.noWord s u ∧ fabFlow u f = fabFlow s f ∧
      u.fab.out = .cell i (withCrc (body.take 3 ++ [BitVec.ofNat 8 (byteAt cell 3 - 1)] ++ body.drop 4)) :: s.fab.out) ∧
    (good → ¬whole → ∃ u, exec (.cellReceived t l cell) s = .next u ∧ State.onlyWord s u FAB.CAUSE ∧ ctr u 3 ∧ fabFlow u f = fabFlow s f ∧
      u.fab.out = s.fab.out ∧ u.way = s.way) ∧
    (fabFlow s f = x → d.f = f → x.st = 1 → d.dst = me → x.lF ≤ n → x.read ≤ n - x.lF → i < d.nch → ∃ u, exec (.fabricSampleReadout t f) s = .next u ∧ State.noWord s u ∧
      (fabFlow u f).read = n - x.lF + 1 ∧ srcAt u (7168 + x.rxBase + i) (mediaAt hz n) = Tbl.getD x.buf (i * 512 + (n - x.lF) % 512) smpBad) ∧
    (fabFlow s f = x → n - x.lF < x.read → exec (.fabricSampleReadout t f) s = .next s0)

/-- The descriptor at HEAD of a live command ring is one command: LOG_FREEZE freezes the log and completes, one with reserved bits set completes with BAD_ARG, and HEAD
advances. A phase step due moves the STC by its amount once; a seconds load gives the STC that number of seconds and keeps the fraction. A member's CONFIG_ID is noted; where
not every member has reported after 1 s the APPLY fails with FABRIC_STATE and the device is in BOOT again. -/
def Obligations.SequencerRows : Prop :=
  ∀ (t r tag m c a : Nat) (d : Int) (desc : List Byte) (l : LoadS) (s : State), s.calm = true → s.cmd.started = [] → s.twin.mirCmds = [] →
    let s0 := s.at t
    let src : CmdSrc := .ring r (ringHead s r) (s.ring r).gen
    let taken := takeHead { s0 with dma := { s.dma with cmdLast := r } } r
    let cmd := fun op b => (s.at t).cmdOf src op tag b 0 0
    let stepped := fun (e : Int) => ((s0.time.stc : Int) + e * (2 : Int) ^ 48).toNat
    let later := fun (back : Bool) => ({ s with cmd := if back then { s.cmd with outs := [] } else s.cmd } : State)
    let moved := satOff (s.time.off + d) - s.time.off
    let still := s.blkOn bTIME = true ∧ s.aport.sides = [] ∧ s.blkOn bSTX = false
    (224 ≤ r → r < 256 → s.fld (ringParam r) DMA.RING_PARAM_CE_MODE = 0 → ringLive s r = true → ringPosted s r ≠ 0 →
      (∀ q, q < 256 → 224 ≤ q → q ≠ r → ringLive s q = false) → (s.at t).takesNow src = true → tag < 256 →
      (descWord desc 0 = 0x10 + 256 * tag → descWord desc 1 = 0 → descWord desc 2 = 0 → (∀ i ∈ [3, 4, 5, 6, 7], descWord desc i = 0) → s.cmd.mode = .run →
        s.recorder.frozen = false → exec (.commandRingFetch t r desc) s =
          .next (finish ({ taken.numbered with recorder := { s.recorder with frozen := true } }.emit .aon 0xD006 sevNOTICE 0 []) (cmd 0x10 false) cOK 0)) ∧
      (descWord desc 0 = 0x10 + 256 * tag + 2 ^ 17 → exec (.commandRingFetch t r desc) s =
        .next ((finish taken (cmd 0x10 false) cBADARG 0).emit .control 0x000F sevNOTICE 0 [0x10, tag, 1, s.modeWord]))) ∧
    (ringLive s r = false → exec (.commandRingFetch t r desc) s = .next s0) ∧
    (s.blkOn bTIME = true → s.time.step = none → s.time.steps = [] → exec (.phaseStepAtOnce t) s = .next s0) ∧
    (still → s.time.step = some d → s.time.steps = [] → stepped d / 2 ^ 56 / 1000000 ≤ s.time.epoch → ∃ u, exec (.phaseStepAtOnce t) s = .next u ∧
      State.noWord (later (decide (d < 0))) u ∧ u.time.stc = stepped d ∧ u.time.step = none ∧ u.time.steps = [] ∧ u.time.off = s.time.off ∧
      u.time.epoch = s.time.epoch ∧ ⟨.time, 0x300D, sevNOTICE, 0, [pw d % 2 ^ 32]⟩ ∈ u.recorder.evq) ∧
    (still → s.time.step = none → s.time.steps = [d] → stepped moved / 2 ^ 56 / 1000000 ≤ s.time.epoch → ∃ u, exec (.phaseStepAtOnce t) s = .next u ∧
      State.noWord (later (decide (moved < 0))) u ∧ u.time.stc = stepped moved ∧ u.time.step = none ∧ u.time.steps = [] ∧
      u.time.off = satOff (s.time.off + d) ∧ u.time.epoch = s.time.epoch ∧ ⟨.time, 0x300D, sevNOTICE, 0, [pw d % 2 ^ 32]⟩ ∈ u.recorder.evq) ∧
    (s.flag TIME.SEC_LOAD_HI TIME.SEC_LOAD_HI_GO = false → exec (.secLoadApply t) s = .next s0) ∧
    (still → s.now < t → s.flag TIME.SEC_LOAD_HI TIME.SEC_LOAD_HI_GO = true → (secLoadValue s + 1) * 1000 ≤ s.time.epoch → ∃ u,
      exec (.secLoadApply t) s = .next u ∧ State.onlyWord (later (decide (secLoadValue s < s0.stcSecs))) u TIME.SEC_LOAD_HI ∧
      u.flag TIME.SEC_LOAD_HI TIME.SEC_LOAD_HI_GO = false ∧ u.stcSecs = secLoadValue s ∧ u.time.stc % stcSec 1 = s0.time.stc % stcSec 1 ∧
      u.time.epoch = s.time.epoch) ∧
    (s.cmd.applying = false → s.place.now = none → fabFormed s = true → m ≠ myId s → m < s.fab.formed.length →
      exec (.fabricConfigReport t m (.configId c)) s = .next { s0 with fab := { s.fab with reports := Tbl.put s.fab.reports m c } }) ∧
    (s.cmd.applying = false → s.cmd.loading = none → exec (.fabricAgreeTimeout t) s = .next s0) ∧
    (s.blkOn bFAB = true → s.cmd.applying = true → s.cmd.restarting = false → s.cmd.sleeping = false → s.cmd.mode = .load → s.cmd.deferred = [] → s.cmd.loading = some l → l.auto = false →
      l.begun = .boot → s.fab.waitCfg = some a → s.fab.late = false →
      (s0.now < a + secs 1 → exec (.fabricAgreeTimeout t) s = .next s0) ∧
      (a + secs 1 ≤ s0.now → m ∈ fabOthers s → Tbl.find s.fab.reports m = none → ∃ u, exec (.fabricAgreeTimeout t) s = .next u ∧
        u.place.st = 3 ∧ u.place.rejCode = 0x060 ∧ u.cmd.mode = .boot ∧ u.cmd.loading = none ∧ u.cmd.applying = false ∧
        ⟨.control, 0xE002, sevERROR, 0, [0xFFFF0060, 0xFFFF0000, 0, 0]⟩ ∈ u.recorder.evq))
end

