-- ==== Sys2Proof/Laws/State.lean ====
section
/-!
SUPPORT. What each named update of the state leaves alone: one lemma for each field it does not change.
-/
namespace Sys2Proof.Machine

variable (s : State)

/-! ### `at` -/

@[simp] theorem State.at_pending (t : Nat) : (s.at t).pending = s.pending := rfl
@[simp] theorem State.at_free (t : Nat) : (s.at t).free = s.free := rfl
@[simp] theorem State.at_regs (t : Nat) : (s.at t).regs = s.regs := rfl
@[simp] theorem State.at_bankSel (t : Nat) : (s.at t).bankSel = s.bankSel := rfl
@[simp] theorem State.at_banks (t : Nat) : (s.at t).banks = s.banks := rfl
@[simp] theorem State.at_mem (t : Nat) : (s.at t).mem = s.mem := rfl
@[simp] theorem State.at_chip (t : Nat) : (s.at t).chip = s.chip := rfl
@[simp] theorem State.at_pwr (t : Nat) : (s.at t).pwr = s.pwr := rfl
@[simp] theorem State.at_host (t : Nat) : (s.at t).host = s.host := rfl
@[simp] theorem State.at_cmd (t : Nat) : (s.at t).cmd = s.cmd := rfl
@[simp] theorem State.at_aon (t : Nat) : (s.at t).aon = s.aon := rfl
@[simp] theorem State.at_recorder (t : Nat) : (s.at t).recorder = s.recorder := rfl
@[simp] theorem State.at_nand (t : Nat) : (s.at t).nand = s.nand := rfl
@[simp] theorem State.at_macA (t : Nat) : (s.at t).macA = s.macA := rfl
@[simp] theorem State.at_macB (t : Nat) : (s.at t).macB = s.macB := rfl
@[simp] theorem State.at_macM (t : Nat) : (s.at t).macM = s.macM := rfl
@[simp] theorem State.at_stx (t : Nat) : (s.at t).stx = s.stx := rfl
@[simp] theorem State.at_srx (t : Nat) : (s.at t).srx = s.srx := rfl
@[simp] theorem State.at_way (t : Nat) : (s.at t).way = s.way := rfl
@[simp] theorem State.at_place (t : Nat) : (s.at t).place = s.place := rfl
@[simp] theorem State.at_clk (t : Nat) : (s.at t).clk = s.clk := rfl
@[simp] theorem State.at_aport (t : Nat) : (s.at t).aport = s.aport := rfl
@[simp] theorem State.at_dsp (t : Nat) : (s.at t).dsp = s.dsp := rfl
@[simp] theorem State.at_dma (t : Nat) : (s.at t).dma = s.dma := rfl
@[simp] theorem State.at_twin (t : Nat) : (s.at t).twin = s.twin := rfl
@[simp] theorem State.at_gander (t : Nat) : (s.at t).gander = s.gander := rfl
@[simp] theorem State.at_fab (t : Nat) : (s.at t).fab = s.fab := rfl

/-! ### `wr` -/

@[simp] theorem State.wr_pending (a : Nat) (v : Word) : (s.wr a v).pending = s.pending := rfl
@[simp] theorem State.wr_now (a : Nat) (v : Word) : (s.wr a v).now = s.now := rfl
@[simp] theorem State.wr_free (a : Nat) (v : Word) : (s.wr a v).free = s.free := rfl
@[simp] theorem State.wr_bankSel (a : Nat) (v : Word) : (s.wr a v).bankSel = s.bankSel := rfl
@[simp] theorem State.wr_banks (a : Nat) (v : Word) : (s.wr a v).banks = s.banks := rfl
@[simp] theorem State.wr_inst (a : Nat) (v : Word) : (s.wr a v).inst = s.inst := rfl
@[simp] theorem State.wr_mem (a : Nat) (v : Word) : (s.wr a v).mem = s.mem := rfl
@[simp] theorem State.wr_chip (a : Nat) (v : Word) : (s.wr a v).chip = s.chip := rfl
@[simp] theorem State.wr_pwr (a : Nat) (v : Word) : (s.wr a v).pwr = s.pwr := rfl
@[simp] theorem State.wr_host (a : Nat) (v : Word) : (s.wr a v).host = s.host := rfl
@[simp] theorem State.wr_cmd (a : Nat) (v : Word) : (s.wr a v).cmd = s.cmd := rfl
@[simp] theorem State.wr_aon (a : Nat) (v : Word) : (s.wr a v).aon = s.aon := rfl
@[simp] theorem State.wr_recorder (a : Nat) (v : Word) : (s.wr a v).recorder = s.recorder := rfl
@[simp] theorem State.wr_nand (a : Nat) (v : Word) : (s.wr a v).nand = s.nand := rfl
@[simp] theorem State.wr_macA (a : Nat) (v : Word) : (s.wr a v).macA = s.macA := rfl
@[simp] theorem State.wr_macB (a : Nat) (v : Word) : (s.wr a v).macB = s.macB := rfl
@[simp] theorem State.wr_macM (a : Nat) (v : Word) : (s.wr a v).macM = s.macM := rfl
@[simp] theorem State.wr_stx (a : Nat) (v : Word) : (s.wr a v).stx = s.stx := rfl
@[simp] theorem State.wr_srx (a : Nat) (v : Word) : (s.wr a v).srx = s.srx := rfl
@[simp] theorem State.wr_way (a : Nat) (v : Word) : (s.wr a v).way = s.way := rfl
@[simp] theorem State.wr_place (a : Nat) (v : Word) : (s.wr a v).place = s.place := rfl
@[simp] theorem State.wr_time (a : Nat) (v : Word) : (s.wr a v).time = s.time := rfl
@[simp] theorem State.wr_clk (a : Nat) (v : Word) : (s.wr a v).clk = s.clk := rfl
@[simp] theorem State.wr_aport (a : Nat) (v : Word) : (s.wr a v).aport = s.aport := rfl
@[simp] theorem State.wr_dsp (a : Nat) (v : Word) : (s.wr a v).dsp = s.dsp := rfl
@[simp] theorem State.wr_dma (a : Nat) (v : Word) : (s.wr a v).dma = s.dma := rfl
@[simp] theorem State.wr_twin (a : Nat) (v : Word) : (s.wr a v).twin = s.twin := rfl
@[simp] theorem State.wr_gander (a : Nat) (v : Word) : (s.wr a v).gander = s.gander := rfl
@[simp] theorem State.wr_fab (a : Nat) (v : Word) : (s.wr a v).fab = s.fab := rfl

/-! ### `setFld` -/

@[simp] theorem State.setFld_pending (a : Nat) (f : Fld) (x : Nat) : (s.setFld a f x).pending = s.pending := rfl
@[simp] theorem State.setFld_now (a : Nat) (f : Fld) (x : Nat) : (s.setFld a f x).now = s.now := rfl
@[simp] theorem State.setFld_free (a : Nat) (f : Fld) (x : Nat) : (s.setFld a f x).free = s.free := rfl
@[simp] theorem State.setFld_bankSel (a : Nat) (f : Fld) (x : Nat) : (s.setFld a f x).bankSel = s.bankSel := rfl
@[simp] theorem State.setFld_banks (a : Nat) (f : Fld) (x : Nat) : (s.setFld a f x).banks = s.banks := rfl
@[simp] theorem State.setFld_inst (a : Nat) (f : Fld) (x : Nat) : (s.setFld a f x).inst = s.inst := rfl
@[simp] theorem State.setFld_mem (a : Nat) (f : Fld) (x : Nat) : (s.setFld a f x).mem = s.mem := rfl
@[simp] theorem State.setFld_chip (a : Nat) (f : Fld) (x : Nat) : (s.setFld a f x).chip = s.chip := rfl
@[simp] theorem State.setFld_pwr (a : Nat) (f : Fld) (x : Nat) : (s.setFld a f x).pwr = s.pwr := rfl
@[simp] theorem State.setFld_host (a : Nat) (f : Fld) (x : Nat) : (s.setFld a f x).host = s.host := rfl
@[simp] theorem State.setFld_cmd (a : Nat) (f : Fld) (x : Nat) : (s.setFld a f x).cmd = s.cmd := rfl
@[simp] theorem State.setFld_aon (a : Nat) (f : Fld) (x : Nat) : (s.setFld a f x).aon = s.aon := rfl
@[simp] theorem State.setFld_recorder (a : Nat) (f : Fld) (x : Nat) : (s.setFld a f x).recorder = s.recorder := rfl
@[simp] theorem State.setFld_nand (a : Nat) (f : Fld) (x : Nat) : (s.setFld a f x).nand = s.nand := rfl
@[simp] theorem State.setFld_macA (a : Nat) (f : Fld) (x : Nat) : (s.setFld a f x).macA = s.macA := rfl
@[simp] theorem State.setFld_macB (a : Nat) (f : Fld) (x : Nat) : (s.setFld a f x).macB = s.macB := rfl
@[simp] theorem State.setFld_macM (a : Nat) (f : Fld) (x : Nat) : (s.setFld a f x).macM = s.macM := rfl
@[simp] theorem State.setFld_stx (a : Nat) (f : Fld) (x : Nat) : (s.setFld a f x).stx = s.stx := rfl
@[simp] theorem State.setFld_srx (a : Nat) (f : Fld) (x : Nat) : (s.setFld a f x).srx = s.srx := rfl
@[simp] theorem State.setFld_way (a : Nat) (f : Fld) (x : Nat) : (s.setFld a f x).way = s.way := rfl
@[simp] theorem State.setFld_place (a : Nat) (f : Fld) (x : Nat) : (s.setFld a f x).place = s.place := rfl
@[simp] theorem State.setFld_time (a : Nat) (f : Fld) (x : Nat) : (s.setFld a f x).time = s.time := rfl
@[simp] theorem State.setFld_clk (a : Nat) (f : Fld) (x : Nat) : (s.setFld a f x).clk = s.clk := rfl
@[simp] theorem State.setFld_aport (a : Nat) (f : Fld) (x : Nat) : (s.setFld a f x).aport = s.aport := rfl
@[simp] theorem State.setFld_dsp (a : Nat) (f : Fld) (x : Nat) : (s.setFld a f x).dsp = s.dsp := rfl
@[simp] theorem State.setFld_dma (a : Nat) (f : Fld) (x : Nat) : (s.setFld a f x).dma = s.dma := rfl
@[simp] theorem State.setFld_twin (a : Nat) (f : Fld) (x : Nat) : (s.setFld a f x).twin = s.twin := rfl
@[simp] theorem State.setFld_gander (a : Nat) (f : Fld) (x : Nat) : (s.setFld a f x).gander = s.gander := rfl
@[simp] theorem State.setFld_fab (a : Nat) (f : Fld) (x : Nat) : (s.setFld a f x).fab = s.fab := rfl

/-! ### `emit` -/

@[simp] theorem State.emit_pending (isl : Island) (c v i : Nat) (p : List Nat) : (s.emit isl c v i p).pending = s.pending := rfl
@[simp] theorem State.emit_now (isl : Island) (c v i : Nat) (p : List Nat) : (s.emit isl c v i p).now = s.now := rfl
@[simp] theorem State.emit_free (isl : Island) (c v i : Nat) (p : List Nat) : (s.emit isl c v i p).free = s.free := rfl
@[simp] theorem State.emit_regs (isl : Island) (c v i : Nat) (p : List Nat) : (s.emit isl c v i p).regs = s.regs := rfl
@[simp] theorem State.emit_bankSel (isl : Island) (c v i : Nat) (p : List Nat) : (s.emit isl c v i p).bankSel = s.bankSel := rfl
@[simp] theorem State.emit_banks (isl : Island) (c v i : Nat) (p : List Nat) : (s.emit isl c v i p).banks = s.banks := rfl
@[simp] theorem State.emit_inst (isl : Island) (c v i : Nat) (p : List Nat) : (s.emit isl c v i p).inst = s.inst := rfl
@[simp] theorem State.emit_mem (isl : Island) (c v i : Nat) (p : List Nat) : (s.emit isl c v i p).mem = s.mem := rfl
@[simp] theorem State.emit_chip (isl : Island) (c v i : Nat) (p : List Nat) : (s.emit isl c v i p).chip = s.chip := rfl
@[simp] theorem State.emit_pwr (isl : Island) (c v i : Nat) (p : List Nat) : (s.emit isl c v i p).pwr = s.pwr := rfl
@[simp] theorem State.emit_host (isl : Island) (c v i : Nat) (p : List Nat) : (s.emit isl c v i p).host = s.host := rfl
@[simp] theorem State.emit_cmd (isl : Island) (c v i : Nat) (p : List Nat) : (s.emit isl c v i p).cmd = s.cmd := rfl
@[simp] theorem State.emit_aon (isl : Island) (c v i : Nat) (p : List Nat) : (s.emit isl c v i p).aon = s.aon := rfl
@[simp] theorem State.emit_nand (isl : Island) (c v i : Nat) (p : List Nat) : (s.emit isl c v i p).nand = s.nand := rfl
@[simp] theorem State.emit_macA (isl : Island) (c v i : Nat) (p : List Nat) : (s.emit isl c v i p).macA = s.macA := rfl
@[simp] theorem State.emit_macB (isl : Island) (c v i : Nat) (p : List Nat) : (s.emit isl c v i p).macB = s.macB := rfl
@[simp] theorem State.emit_macM (isl : Island) (c v i : Nat) (p : List Nat) : (s.emit isl c v i p).macM = s.macM := rfl
@[simp] theorem State.emit_stx (isl : Island) (c v i : Nat) (p : List Nat) : (s.emit isl c v i p).stx = s.stx := rfl
@[simp] theorem State.emit_srx (isl : Island) (c v i : Nat) (p : List Nat) : (s.emit isl c v i p).srx = s.srx := rfl
@[simp] theorem State.emit_way (isl : Island) (c v i : Nat) (p : List Nat) : (s.emit isl c v i p).way = s.way := rfl
@[simp] theorem State.emit_place (isl : Island) (c v i : Nat) (p : List Nat) : (s.emit isl c v i p).place = s.place := rfl
@[simp] theorem State.emit_time (isl : Island) (c v i : Nat) (p : List Nat) : (s.emit isl c v i p).time = s.time := rfl
@[simp] theorem State.emit_clk (isl : Island) (c v i : Nat) (p : List Nat) : (s.emit isl c v i p).clk = s.clk := rfl
@[simp] theorem State.emit_aport (isl : Island) (c v i : Nat) (p : List Nat) : (s.emit isl c v i p).aport = s.aport := rfl
@[simp] theorem State.emit_dsp (isl : Island) (c v i : Nat) (p : List Nat) : (s.emit isl c v i p).dsp = s.dsp := rfl
@[simp] theorem State.emit_dma (isl : Island) (c v i : Nat) (p : List Nat) : (s.emit isl c v i p).dma = s.dma := rfl
@[simp] theorem State.emit_twin (isl : Island) (c v i : Nat) (p : List Nat) : (s.emit isl c v i p).twin = s.twin := rfl
@[simp] theorem State.emit_gander (isl : Island) (c v i : Nat) (p : List Nat) : (s.emit isl c v i p).gander = s.gander := rfl
@[simp] theorem State.emit_fab (isl : Island) (c v i : Nat) (p : List Nat) : (s.emit isl c v i p).fab = s.fab := rfl

/-! ### `setMemB` -/

@[simp] theorem State.setMemB_pending (a : Nat) (b : Byte) : (s.setMemB a b).pending = s.pending := rfl
@[simp] theorem State.setMemB_now (a : Nat) (b : Byte) : (s.setMemB a b).now = s.now := rfl
@[simp] theorem State.setMemB_free (a : Nat) (b : Byte) : (s.setMemB a b).free = s.free := rfl
@[simp] theorem State.setMemB_regs (a : Nat) (b : Byte) : (s.setMemB a b).regs = s.regs := rfl
@[simp] theorem State.setMemB_bankSel (a : Nat) (b : Byte) : (s.setMemB a b).bankSel = s.bankSel := rfl
@[simp] theorem State.setMemB_banks (a : Nat) (b : Byte) : (s.setMemB a b).banks = s.banks := rfl
@[simp] theorem State.setMemB_inst (a : Nat) (b : Byte) : (s.setMemB a b).inst = s.inst := rfl
@[simp] theorem State.setMemB_chip (a : Nat) (b : Byte) : (s.setMemB a b).chip = s.chip := rfl
@[simp] theorem State.setMemB_pwr (a : Nat) (b : Byte) : (s.setMemB a b).pwr = s.pwr := rfl
@[simp] theorem State.setMemB_host (a : Nat) (b : Byte) : (s.setMemB a b).host = s.host := rfl
@[simp] theorem State.setMemB_cmd (a : Nat) (b : Byte) : (s.setMemB a b).cmd = s.cmd := rfl
@[simp] theorem State.setMemB_aon (a : Nat) (b : Byte) : (s.setMemB a b).aon = s.aon := rfl
@[simp] theorem State.setMemB_recorder (a : Nat) (b : Byte) : (s.setMemB a b).recorder = s.recorder := rfl
@[simp] theorem State.setMemB_nand (a : Nat) (b : Byte) : (s.setMemB a b).nand = s.nand := rfl
@[simp] theorem State.setMemB_macA (a : Nat) (b : Byte) : (s.setMemB a b).macA = s.macA := rfl
@[simp] theorem State.setMemB_macB (a : Nat) (b : Byte) : (s.setMemB a b).macB = s.macB := rfl
@[simp] theorem State.setMemB_macM (a : Nat) (b : Byte) : (s.setMemB a b).macM = s.macM := rfl
@[simp] theorem State.setMemB_stx (a : Nat) (b : Byte) : (s.setMemB a b).stx = s.stx := rfl
@[simp] theorem State.setMemB_srx (a : Nat) (b : Byte) : (s.setMemB a b).srx = s.srx := rfl
@[simp] theorem State.setMemB_way (a : Nat) (b : Byte) : (s.setMemB a b).way = s.way := rfl
@[simp] theorem State.setMemB_place (a : Nat) (b : Byte) : (s.setMemB a b).place = s.place := rfl
@[simp] theorem State.setMemB_time (a : Nat) (b : Byte) : (s.setMemB a b).time = s.time := rfl
@[simp] theorem State.setMemB_clk (a : Nat) (b : Byte) : (s.setMemB a b).clk = s.clk := rfl
@[simp] theorem State.setMemB_aport (a : Nat) (b : Byte) : (s.setMemB a b).aport = s.aport := rfl
@[simp] theorem State.setMemB_dsp (a : Nat) (b : Byte) : (s.setMemB a b).dsp = s.dsp := rfl
@[simp] theorem State.setMemB_dma (a : Nat) (b : Byte) : (s.setMemB a b).dma = s.dma := rfl
@[simp] theorem State.setMemB_twin (a : Nat) (b : Byte) : (s.setMemB a b).twin = s.twin := rfl
@[simp] theorem State.setMemB_gander (a : Nat) (b : Byte) : (s.setMemB a b).gander = s.gander := rfl
@[simp] theorem State.setMemB_fab (a : Nat) (b : Byte) : (s.setMemB a b).fab = s.fab := rfl

/-! ### `takeFree` -/

@[simp] theorem State.takeFree_pending (w : Nat) : ((s.takeFree w).2).pending = s.pending := rfl
@[simp] theorem State.takeFree_now (w : Nat) : ((s.takeFree w).2).now = s.now := rfl
@[simp] theorem State.takeFree_regs (w : Nat) : ((s.takeFree w).2).regs = s.regs := rfl
@[simp] theorem State.takeFree_bankSel (w : Nat) : ((s.takeFree w).2).bankSel = s.bankSel := rfl
@[simp] theorem State.takeFree_banks (w : Nat) : ((s.takeFree w).2).banks = s.banks := rfl
@[simp] theorem State.takeFree_inst (w : Nat) : ((s.takeFree w).2).inst = s.inst := rfl
@[simp] theorem State.takeFree_mem (w : Nat) : ((s.takeFree w).2).mem = s.mem := rfl
@[simp] theorem State.takeFree_chip (w : Nat) : ((s.takeFree w).2).chip = s.chip := rfl
@[simp] theorem State.takeFree_pwr (w : Nat) : ((s.takeFree w).2).pwr = s.pwr := rfl
@[simp] theorem State.takeFree_host (w : Nat) : ((s.takeFree w).2).host = s.host := rfl
@[simp] theorem State.takeFree_cmd (w : Nat) : ((s.takeFree w).2).cmd = s.cmd := rfl
@[simp] theorem State.takeFree_aon (w : Nat) : ((s.takeFree w).2).aon = s.aon := rfl
@[simp] theorem State.takeFree_recorder (w : Nat) : ((s.takeFree w).2).recorder = s.recorder := rfl
@[simp] theorem State.takeFree_nand (w : Nat) : ((s.takeFree w).2).nand = s.nand := rfl
@[simp] theorem State.takeFree_macA (w : Nat) : ((s.takeFree w).2).macA = s.macA := rfl
@[simp] theorem State.takeFree_macB (w : Nat) : ((s.takeFree w).2).macB = s.macB := rfl
@[simp] theorem State.takeFree_macM (w : Nat) : ((s.takeFree w).2).macM = s.macM := rfl
@[simp] theorem State.takeFree_stx (w : Nat) : ((s.takeFree w).2).stx = s.stx := rfl
@[simp] theorem State.takeFree_srx (w : Nat) : ((s.takeFree w).2).srx = s.srx := rfl
@[simp] theorem State.takeFree_way (w : Nat) : ((s.takeFree w).2).way = s.way := rfl
@[simp] theorem State.takeFree_place (w : Nat) : ((s.takeFree w).2).place = s.place := rfl
@[simp] theorem State.takeFree_time (w : Nat) : ((s.takeFree w).2).time = s.time := rfl
@[simp] theorem State.takeFree_clk (w : Nat) : ((s.takeFree w).2).clk = s.clk := rfl
@[simp] theorem State.takeFree_aport (w : Nat) : ((s.takeFree w).2).aport = s.aport := rfl
@[simp] theorem State.takeFree_dsp (w : Nat) : ((s.takeFree w).2).dsp = s.dsp := rfl
@[simp] theorem State.takeFree_dma (w : Nat) : ((s.takeFree w).2).dma = s.dma := rfl
@[simp] theorem State.takeFree_twin (w : Nat) : ((s.takeFree w).2).twin = s.twin := rfl
@[simp] theorem State.takeFree_gander (w : Nat) : ((s.takeFree w).2).gander = s.gander := rfl
@[simp] theorem State.takeFree_fab (w : Nat) : ((s.takeFree w).2).fab = s.fab := rfl

/-! ### `setPath` -/

@[simp] theorem State.setPath_pending (p : Path) (x : PathS) : (s.setPath p x).pending = s.pending := by cases p <;> rfl
@[simp] theorem State.setPath_now (p : Path) (x : PathS) : (s.setPath p x).now = s.now := by cases p <;> rfl
@[simp] theorem State.setPath_free (p : Path) (x : PathS) : (s.setPath p x).free = s.free := by cases p <;> rfl
@[simp] theorem State.setPath_regs (p : Path) (x : PathS) : (s.setPath p x).regs = s.regs := by cases p <;> rfl
@[simp] theorem State.setPath_bankSel (p : Path) (x : PathS) : (s.setPath p x).bankSel = s.bankSel := by cases p <;> rfl
@[simp] theorem State.setPath_banks (p : Path) (x : PathS) : (s.setPath p x).banks = s.banks := by cases p <;> rfl
@[simp] theorem State.setPath_inst (p : Path) (x : PathS) : (s.setPath p x).inst = s.inst := by cases p <;> rfl
@[simp] theorem State.setPath_mem (p : Path) (x : PathS) : (s.setPath p x).mem = s.mem := by cases p <;> rfl
@[simp] theorem State.setPath_chip (p : Path) (x : PathS) : (s.setPath p x).chip = s.chip := by cases p <;> rfl
@[simp] theorem State.setPath_pwr (p : Path) (x : PathS) : (s.setPath p x).pwr = s.pwr := by cases p <;> rfl
@[simp] theorem State.setPath_cmd (p : Path) (x : PathS) : (s.setPath p x).cmd = s.cmd := by cases p <;> rfl
@[simp] theorem State.setPath_aon (p : Path) (x : PathS) : (s.setPath p x).aon = s.aon := by cases p <;> rfl
@[simp] theorem State.setPath_recorder (p : Path) (x : PathS) : (s.setPath p x).recorder = s.recorder := by cases p <;> rfl
@[simp] theorem State.setPath_nand (p : Path) (x : PathS) : (s.setPath p x).nand = s.nand := by cases p <;> rfl
@[simp] theorem State.setPath_macA (p : Path) (x : PathS) : (s.setPath p x).macA = s.macA := by cases p <;> rfl
@[simp] theorem State.setPath_macB (p : Path) (x : PathS) : (s.setPath p x).macB = s.macB := by cases p <;> rfl
@[simp] theorem State.setPath_macM (p : Path) (x : PathS) : (s.setPath p x).macM = s.macM := by cases p <;> rfl
@[simp] theorem State.setPath_stx (p : Path) (x : PathS) : (s.setPath p x).stx = s.stx := by cases p <;> rfl
@[simp] theorem State.setPath_srx (p : Path) (x : PathS) : (s.setPath p x).srx = s.srx := by cases p <;> rfl
@[simp] theorem State.setPath_way (p : Path) (x : PathS) : (s.setPath p x).way = s.way := by cases p <;> rfl
@[simp] theorem State.setPath_place (p : Path) (x : PathS) : (s.setPath p x).place = s.place := by cases p <;> rfl
@[simp] theorem State.setPath_time (p : Path) (x : PathS) : (s.setPath p x).time = s.time := by cases p <;> rfl
@[simp] theorem State.setPath_clk (p : Path) (x : PathS) : (s.setPath p x).clk = s.clk := by cases p <;> rfl
@[simp] theorem State.setPath_aport (p : Path) (x : PathS) : (s.setPath p x).aport = s.aport := by cases p <;> rfl
@[simp] theorem State.setPath_dsp (p : Path) (x : PathS) : (s.setPath p x).dsp = s.dsp := by cases p <;> rfl
@[simp] theorem State.setPath_dma (p : Path) (x : PathS) : (s.setPath p x).dma = s.dma := by cases p <;> rfl
@[simp] theorem State.setPath_twin (p : Path) (x : PathS) : (s.setPath p x).twin = s.twin := by cases p <;> rfl
@[simp] theorem State.setPath_gander (p : Path) (x : PathS) : (s.setPath p x).gander = s.gander := by cases p <;> rfl
@[simp] theorem State.setPath_fab (p : Path) (x : PathS) : (s.setPath p x).fab = s.fab := by cases p <;> rfl

/-! ### `setMbx` -/

@[simp] theorem State.setMbx_pending (p : Path) (b : Nat) (m : Mbx) : (s.setMbx p b m).pending = s.pending := by cases p <;> rfl
@[simp] theorem State.setMbx_now (p : Path) (b : Nat) (m : Mbx) : (s.setMbx p b m).now = s.now := by cases p <;> rfl
@[simp] theorem State.setMbx_free (p : Path) (b : Nat) (m : Mbx) : (s.setMbx p b m).free = s.free := by cases p <;> rfl
@[simp] theorem State.setMbx_regs (p : Path) (b : Nat) (m : Mbx) : (s.setMbx p b m).regs = s.regs := by cases p <;> rfl
@[simp] theorem State.setMbx_bankSel (p : Path) (b : Nat) (m : Mbx) : (s.setMbx p b m).bankSel = s.bankSel := by cases p <;> rfl
@[simp] theorem State.setMbx_banks (p : Path) (b : Nat) (m : Mbx) : (s.setMbx p b m).banks = s.banks := by cases p <;> rfl
@[simp] theorem State.setMbx_inst (p : Path) (b : Nat) (m : Mbx) : (s.setMbx p b m).inst = s.inst := by cases p <;> rfl
@[simp] theorem State.setMbx_mem (p : Path) (b : Nat) (m : Mbx) : (s.setMbx p b m).mem = s.mem := by cases p <;> rfl
@[simp] theorem State.setMbx_chip (p : Path) (b : Nat) (m : Mbx) : (s.setMbx p b m).chip = s.chip := by cases p <;> rfl
@[simp] theorem State.setMbx_pwr (p : Path) (b : Nat) (m : Mbx) : (s.setMbx p b m).pwr = s.pwr := by cases p <;> rfl
@[simp] theorem State.setMbx_cmd (p : Path) (b : Nat) (m : Mbx) : (s.setMbx p b m).cmd = s.cmd := by cases p <;> rfl
@[simp] theorem State.setMbx_aon (p : Path) (b : Nat) (m : Mbx) : (s.setMbx p b m).aon = s.aon := by cases p <;> rfl
@[simp] theorem State.setMbx_recorder (p : Path) (b : Nat) (m : Mbx) : (s.setMbx p b m).recorder = s.recorder := by cases p <;> rfl
@[simp] theorem State.setMbx_nand (p : Path) (b : Nat) (m : Mbx) : (s.setMbx p b m).nand = s.nand := by cases p <;> rfl
@[simp] theorem State.setMbx_macA (p : Path) (b : Nat) (m : Mbx) : (s.setMbx p b m).macA = s.macA := by cases p <;> rfl
@[simp] theorem State.setMbx_macB (p : Path) (b : Nat) (m : Mbx) : (s.setMbx p b m).macB = s.macB := by cases p <;> rfl
@[simp] theorem State.setMbx_macM (p : Path) (b : Nat) (m : Mbx) : (s.setMbx p b m).macM = s.macM := by cases p <;> rfl
@[simp] theorem State.setMbx_stx (p : Path) (b : Nat) (m : Mbx) : (s.setMbx p b m).stx = s.stx := by cases p <;> rfl
@[simp] theorem State.setMbx_srx (p : Path) (b : Nat) (m : Mbx) : (s.setMbx p b m).srx = s.srx := by cases p <;> rfl
@[simp] theorem State.setMbx_way (p : Path) (b : Nat) (m : Mbx) : (s.setMbx p b m).way = s.way := by cases p <;> rfl
@[simp] theorem State.setMbx_place (p : Path) (b : Nat) (m : Mbx) : (s.setMbx p b m).place = s.place := by cases p <;> rfl
@[simp] theorem State.setMbx_time (p : Path) (b : Nat) (m : Mbx) : (s.setMbx p b m).time = s.time := by cases p <;> rfl
@[simp] theorem State.setMbx_clk (p : Path) (b : Nat) (m : Mbx) : (s.setMbx p b m).clk = s.clk := by cases p <;> rfl
@[simp] theorem State.setMbx_aport (p : Path) (b : Nat) (m : Mbx) : (s.setMbx p b m).aport = s.aport := by cases p <;> rfl
@[simp] theorem State.setMbx_dsp (p : Path) (b : Nat) (m : Mbx) : (s.setMbx p b m).dsp = s.dsp := by cases p <;> rfl
@[simp] theorem State.setMbx_dma (p : Path) (b : Nat) (m : Mbx) : (s.setMbx p b m).dma = s.dma := by cases p <;> rfl
@[simp] theorem State.setMbx_twin (p : Path) (b : Nat) (m : Mbx) : (s.setMbx p b m).twin = s.twin := by cases p <;> rfl
@[simp] theorem State.setMbx_gander (p : Path) (b : Nat) (m : Mbx) : (s.setMbx p b m).gander = s.gander := by cases p <;> rfl
@[simp] theorem State.setMbx_fab (p : Path) (b : Nat) (m : Mbx) : (s.setMbx p b m).fab = s.fab := by cases p <;> rfl

/-! ### `setRing` -/

@[simp] theorem State.setRing_pending (r : Nat) (x : RingS) : (s.setRing r x).pending = s.pending := rfl
@[simp] theorem State.setRing_now (r : Nat) (x : RingS) : (s.setRing r x).now = s.now := rfl
@[simp] theorem State.setRing_free (r : Nat) (x : RingS) : (s.setRing r x).free = s.free := rfl
@[simp] theorem State.setRing_regs (r : Nat) (x : RingS) : (s.setRing r x).regs = s.regs := rfl
@[simp] theorem State.setRing_bankSel (r : Nat) (x : RingS) : (s.setRing r x).bankSel = s.bankSel := rfl
@[simp] theorem State.setRing_banks (r : Nat) (x : RingS) : (s.setRing r x).banks = s.banks := rfl
@[simp] theorem State.setRing_inst (r : Nat) (x : RingS) : (s.setRing r x).inst = s.inst := rfl
@[simp] theorem State.setRing_mem (r : Nat) (x : RingS) : (s.setRing r x).mem = s.mem := rfl
@[simp] theorem State.setRing_chip (r : Nat) (x : RingS) : (s.setRing r x).chip = s.chip := rfl
@[simp] theorem State.setRing_pwr (r : Nat) (x : RingS) : (s.setRing r x).pwr = s.pwr := rfl
@[simp] theorem State.setRing_host (r : Nat) (x : RingS) : (s.setRing r x).host = s.host := rfl
@[simp] theorem State.setRing_cmd (r : Nat) (x : RingS) : (s.setRing r x).cmd = s.cmd := rfl
@[simp] theorem State.setRing_aon (r : Nat) (x : RingS) : (s.setRing r x).aon = s.aon := rfl
@[simp] theorem State.setRing_recorder (r : Nat) (x : RingS) : (s.setRing r x).recorder = s.recorder := rfl
@[simp] theorem State.setRing_nand (r : Nat) (x : RingS) : (s.setRing r x).nand = s.nand := rfl
@[simp] theorem State.setRing_macA (r : Nat) (x : RingS) : (s.setRing r x).macA = s.macA := rfl
@[simp] theorem State.setRing_macB (r : Nat) (x : RingS) : (s.setRing r x).macB = s.macB := rfl
@[simp] theorem State.setRing_macM (r : Nat) (x : RingS) : (s.setRing r x).macM = s.macM := rfl
@[simp] theorem State.setRing_stx (r : Nat) (x : RingS) : (s.setRing r x).stx = s.stx := rfl
@[simp] theorem State.setRing_srx (r : Nat) (x : RingS) : (s.setRing r x).srx = s.srx := rfl
@[simp] theorem State.setRing_way (r : Nat) (x : RingS) : (s.setRing r x).way = s.way := rfl
@[simp] theorem State.setRing_place (r : Nat) (x : RingS) : (s.setRing r x).place = s.place := rfl
@[simp] theorem State.setRing_time (r : Nat) (x : RingS) : (s.setRing r x).time = s.time := rfl
@[simp] theorem State.setRing_clk (r : Nat) (x : RingS) : (s.setRing r x).clk = s.clk := rfl
@[simp] theorem State.setRing_aport (r : Nat) (x : RingS) : (s.setRing r x).aport = s.aport := rfl
@[simp] theorem State.setRing_dsp (r : Nat) (x : RingS) : (s.setRing r x).dsp = s.dsp := rfl
@[simp] theorem State.setRing_twin (r : Nat) (x : RingS) : (s.setRing r x).twin = s.twin := rfl
@[simp] theorem State.setRing_gander (r : Nat) (x : RingS) : (s.setRing r x).gander = s.gander := rfl
@[simp] theorem State.setRing_fab (r : Nat) (x : RingS) : (s.setRing r x).fab = s.fab := rfl

/-! ### `hostWriteMem` -/

@[simp] theorem State.hostWriteMem_pending (a : Nat) (bs : List Byte) : (s.hostWriteMem a bs).pending = s.pending := rfl
@[simp] theorem State.hostWriteMem_now (a : Nat) (bs : List Byte) : (s.hostWriteMem a bs).now = s.now := rfl
@[simp] theorem State.hostWriteMem_free (a : Nat) (bs : List Byte) : (s.hostWriteMem a bs).free = s.free := rfl
@[simp] theorem State.hostWriteMem_regs (a : Nat) (bs : List Byte) : (s.hostWriteMem a bs).regs = s.regs := rfl
@[simp] theorem State.hostWriteMem_bankSel (a : Nat) (bs : List Byte) : (s.hostWriteMem a bs).bankSel = s.bankSel := rfl
@[simp] theorem State.hostWriteMem_banks (a : Nat) (bs : List Byte) : (s.hostWriteMem a bs).banks = s.banks := rfl
@[simp] theorem State.hostWriteMem_inst (a : Nat) (bs : List Byte) : (s.hostWriteMem a bs).inst = s.inst := rfl
@[simp] theorem State.hostWriteMem_mem (a : Nat) (bs : List Byte) : (s.hostWriteMem a bs).mem = s.mem := rfl
@[simp] theorem State.hostWriteMem_chip (a : Nat) (bs : List Byte) : (s.hostWriteMem a bs).chip = s.chip := rfl
@[simp] theorem State.hostWriteMem_pwr (a : Nat) (bs : List Byte) : (s.hostWriteMem a bs).pwr = s.pwr := rfl
@[simp] theorem State.hostWriteMem_host (a : Nat) (bs : List Byte) : (s.hostWriteMem a bs).host = s.host := rfl
@[simp] theorem State.hostWriteMem_cmd (a : Nat) (bs : List Byte) : (s.hostWriteMem a bs).cmd = s.cmd := rfl
@[simp] theorem State.hostWriteMem_aon (a : Nat) (bs : List Byte) : (s.hostWriteMem a bs).aon = s.aon := rfl
@[simp] theorem State.hostWriteMem_recorder (a : Nat) (bs : List Byte) : (s.hostWriteMem a bs).recorder = s.recorder := rfl
@[simp] theorem State.hostWriteMem_nand (a : Nat) (bs : List Byte) : (s.hostWriteMem a bs).nand = s.nand := rfl
@[simp] theorem State.hostWriteMem_macA (a : Nat) (bs : List Byte) : (s.hostWriteMem a bs).macA = s.macA := rfl
@[simp] theorem State.hostWriteMem_macB (a : Nat) (bs : List Byte) : (s.hostWriteMem a bs).macB = s.macB := rfl
@[simp] theorem State.hostWriteMem_macM (a : Nat) (bs : List Byte) : (s.hostWriteMem a bs).macM = s.macM := rfl
@[simp] theorem State.hostWriteMem_stx (a : Nat) (bs : List Byte) : (s.hostWriteMem a bs).stx = s.stx := rfl
@[simp] theorem State.hostWriteMem_srx (a : Nat) (bs : List Byte) : (s.hostWriteMem a bs).srx = s.srx := rfl
@[simp] theorem State.hostWriteMem_way (a : Nat) (bs : List Byte) : (s.hostWriteMem a bs).way = s.way := rfl
@[simp] theorem State.hostWriteMem_place (a : Nat) (bs : List Byte) : (s.hostWriteMem a bs).place = s.place := rfl
@[simp] theorem State.hostWriteMem_time (a : Nat) (bs : List Byte) : (s.hostWriteMem a bs).time = s.time := rfl
@[simp] theorem State.hostWriteMem_clk (a : Nat) (bs : List Byte) : (s.hostWriteMem a bs).clk = s.clk := rfl
@[simp] theorem State.hostWriteMem_aport (a : Nat) (bs : List Byte) : (s.hostWriteMem a bs).aport = s.aport := rfl
@[simp] theorem State.hostWriteMem_dsp (a : Nat) (bs : List Byte) : (s.hostWriteMem a bs).dsp = s.dsp := rfl
@[simp] theorem State.hostWriteMem_twin (a : Nat) (bs : List Byte) : (s.hostWriteMem a bs).twin = s.twin := rfl
@[simp] theorem State.hostWriteMem_gander (a : Nat) (bs : List Byte) : (s.hostWriteMem a bs).gander = s.gander := rfl
@[simp] theorem State.hostWriteMem_fab (a : Nat) (bs : List Byte) : (s.hostWriteMem a bs).fab = s.fab := rfl

/-! ### `sendVector` -/

@[simp] theorem State.sendVector_pending (v : Nat) : (s.sendVector v).pending = s.pending := by unfold State.sendVector; split <;> (try split) <;> rfl
@[simp] theorem State.sendVector_now (v : Nat) : (s.sendVector v).now = s.now := by unfold State.sendVector; split <;> (try split) <;> rfl
@[simp] theorem State.sendVector_free (v : Nat) : (s.sendVector v).free = s.free := by unfold State.sendVector; split <;> (try split) <;> rfl
@[simp] theorem State.sendVector_regs (v : Nat) : (s.sendVector v).regs = s.regs := by unfold State.sendVector; split <;> (try split) <;> rfl
@[simp] theorem State.sendVector_bankSel (v : Nat) : (s.sendVector v).bankSel = s.bankSel := by unfold State.sendVector; split <;> (try split) <;> rfl
@[simp] theorem State.sendVector_banks (v : Nat) : (s.sendVector v).banks = s.banks := by unfold State.sendVector; split <;> (try split) <;> rfl
@[simp] theorem State.sendVector_inst (v : Nat) : (s.sendVector v).inst = s.inst := by unfold State.sendVector; split <;> (try split) <;> rfl
@[simp] theorem State.sendVector_mem (v : Nat) : (s.sendVector v).mem = s.mem := by unfold State.sendVector; split <;> (try split) <;> rfl
@[simp] theorem State.sendVector_chip (v : Nat) : (s.sendVector v).chip = s.chip := by unfold State.sendVector; split <;> (try split) <;> rfl
@[simp] theorem State.sendVector_pwr (v : Nat) : (s.sendVector v).pwr = s.pwr := by unfold State.sendVector; split <;> (try split) <;> rfl
@[simp] theorem State.sendVector_host (v : Nat) : (s.sendVector v).host = s.host := by unfold State.sendVector; split <;> (try split) <;> rfl
@[simp] theorem State.sendVector_cmd (v : Nat) : (s.sendVector v).cmd = s.cmd := by unfold State.sendVector; split <;> (try split) <;> rfl
@[simp] theorem State.sendVector_aon (v : Nat) : (s.sendVector v).aon = s.aon := by unfold State.sendVector; split <;> (try split) <;> rfl
@[simp] theorem State.sendVector_recorder (v : Nat) : (s.sendVector v).recorder = s.recorder := by unfold State.sendVector; split <;> (try split) <;> rfl
@[simp] theorem State.sendVector_nand (v : Nat) : (s.sendVector v).nand = s.nand := by unfold State.sendVector; split <;> (try split) <;> rfl
@[simp] theorem State.sendVector_macA (v : Nat) : (s.sendVector v).macA = s.macA := by unfold State.sendVector; split <;> (try split) <;> rfl
@[simp] theorem State.sendVector_macB (v : Nat) : (s.sendVector v).macB = s.macB := by unfold State.sendVector; split <;> (try split) <;> rfl
@[simp] theorem State.sendVector_macM (v : Nat) : (s.sendVector v).macM = s.macM := by unfold State.sendVector; split <;> (try split) <;> rfl
@[simp] theorem State.sendVector_stx (v : Nat) : (s.sendVector v).stx = s.stx := by unfold State.sendVector; split <;> (try split) <;> rfl
@[simp] theorem State.sendVector_srx (v : Nat) : (s.sendVector v).srx = s.srx := by unfold State.sendVector; split <;> (try split) <;> rfl
@[simp] theorem State.sendVector_way (v : Nat) : (s.sendVector v).way = s.way := by unfold State.sendVector; split <;> (try split) <;> rfl
@[simp] theorem State.sendVector_place (v : Nat) : (s.sendVector v).place = s.place := by unfold State.sendVector; split <;> (try split) <;> rfl
@[simp] theorem State.sendVector_time (v : Nat) : (s.sendVector v).time = s.time := by unfold State.sendVector; split <;> (try split) <;> rfl
@[simp] theorem State.sendVector_clk (v : Nat) : (s.sendVector v).clk = s.clk := by unfold State.sendVector; split <;> (try split) <;> rfl
@[simp] theorem State.sendVector_aport (v : Nat) : (s.sendVector v).aport = s.aport := by unfold State.sendVector; split <;> (try split) <;> rfl
@[simp] theorem State.sendVector_dsp (v : Nat) : (s.sendVector v).dsp = s.dsp := by unfold State.sendVector; split <;> (try split) <;> rfl
@[simp] theorem State.sendVector_twin (v : Nat) : (s.sendVector v).twin = s.twin := by unfold State.sendVector; split <;> (try split) <;> rfl
@[simp] theorem State.sendVector_gander (v : Nat) : (s.sendVector v).gander = s.gander := by unfold State.sendVector; split <;> (try split) <;> rfl
@[simp] theorem State.sendVector_fab (v : Nat) : (s.sendVector v).fab = s.fab := by unfold State.sendVector; split <;> (try split) <;> rfl

/-! ### `noteRaise` -/

@[simp] theorem State.noteRaise_pending (a n : Nat) : (s.noteRaise a n).pending = s.pending := rfl
@[simp] theorem State.noteRaise_now (a n : Nat) : (s.noteRaise a n).now = s.now := rfl
@[simp] theorem State.noteRaise_free (a n : Nat) : (s.noteRaise a n).free = s.free := rfl
@[simp] theorem State.noteRaise_regs (a n : Nat) : (s.noteRaise a n).regs = s.regs := rfl
@[simp] theorem State.noteRaise_bankSel (a n : Nat) : (s.noteRaise a n).bankSel = s.bankSel := rfl
@[simp] theorem State.noteRaise_banks (a n : Nat) : (s.noteRaise a n).banks = s.banks := rfl
@[simp] theorem State.noteRaise_mem (a n : Nat) : (s.noteRaise a n).mem = s.mem := rfl
@[simp] theorem State.noteRaise_chip (a n : Nat) : (s.noteRaise a n).chip = s.chip := rfl
@[simp] theorem State.noteRaise_pwr (a n : Nat) : (s.noteRaise a n).pwr = s.pwr := rfl
@[simp] theorem State.noteRaise_host (a n : Nat) : (s.noteRaise a n).host = s.host := rfl
@[simp] theorem State.noteRaise_cmd (a n : Nat) : (s.noteRaise a n).cmd = s.cmd := rfl
@[simp] theorem State.noteRaise_aon (a n : Nat) : (s.noteRaise a n).aon = s.aon := rfl
@[simp] theorem State.noteRaise_recorder (a n : Nat) : (s.noteRaise a n).recorder = s.recorder := rfl
@[simp] theorem State.noteRaise_nand (a n : Nat) : (s.noteRaise a n).nand = s.nand := rfl
@[simp] theorem State.noteRaise_macA (a n : Nat) : (s.noteRaise a n).macA = s.macA := rfl
@[simp] theorem State.noteRaise_macB (a n : Nat) : (s.noteRaise a n).macB = s.macB := rfl
@[simp] theorem State.noteRaise_macM (a n : Nat) : (s.noteRaise a n).macM = s.macM := rfl
@[simp] theorem State.noteRaise_stx (a n : Nat) : (s.noteRaise a n).stx = s.stx := rfl
@[simp] theorem State.noteRaise_srx (a n : Nat) : (s.noteRaise a n).srx = s.srx := rfl
@[simp] theorem State.noteRaise_way (a n : Nat) : (s.noteRaise a n).way = s.way := rfl
@[simp] theorem State.noteRaise_place (a n : Nat) : (s.noteRaise a n).place = s.place := rfl
@[simp] theorem State.noteRaise_time (a n : Nat) : (s.noteRaise a n).time = s.time := rfl
@[simp] theorem State.noteRaise_clk (a n : Nat) : (s.noteRaise a n).clk = s.clk := rfl
@[simp] theorem State.noteRaise_aport (a n : Nat) : (s.noteRaise a n).aport = s.aport := rfl
@[simp] theorem State.noteRaise_dsp (a n : Nat) : (s.noteRaise a n).dsp = s.dsp := rfl
@[simp] theorem State.noteRaise_dma (a n : Nat) : (s.noteRaise a n).dma = s.dma := rfl
@[simp] theorem State.noteRaise_twin (a n : Nat) : (s.noteRaise a n).twin = s.twin := rfl
@[simp] theorem State.noteRaise_gander (a n : Nat) : (s.noteRaise a n).gander = s.gander := rfl
@[simp] theorem State.noteRaise_fab (a n : Nat) : (s.noteRaise a n).fab = s.fab := rfl

/-! ### `noteWrote` -/

@[simp] theorem State.noteWrote_pending (a : Nat) (m v : Word) : (s.noteWrote a m v).pending = s.pending := rfl
@[simp] theorem State.noteWrote_now (a : Nat) (m v : Word) : (s.noteWrote a m v).now = s.now := rfl
@[simp] theorem State.noteWrote_free (a : Nat) (m v : Word) : (s.noteWrote a m v).free = s.free := rfl
@[simp] theorem State.noteWrote_regs (a : Nat) (m v : Word) : (s.noteWrote a m v).regs = s.regs := rfl
@[simp] theorem State.noteWrote_bankSel (a : Nat) (m v : Word) : (s.noteWrote a m v).bankSel = s.bankSel := rfl
@[simp] theorem State.noteWrote_banks (a : Nat) (m v : Word) : (s.noteWrote a m v).banks = s.banks := rfl
@[simp] theorem State.noteWrote_mem (a : Nat) (m v : Word) : (s.noteWrote a m v).mem = s.mem := rfl
@[simp] theorem State.noteWrote_chip (a : Nat) (m v : Word) : (s.noteWrote a m v).chip = s.chip := rfl
@[simp] theorem State.noteWrote_pwr (a : Nat) (m v : Word) : (s.noteWrote a m v).pwr = s.pwr := rfl
@[simp] theorem State.noteWrote_host (a : Nat) (m v : Word) : (s.noteWrote a m v).host = s.host := rfl
@[simp] theorem State.noteWrote_cmd (a : Nat) (m v : Word) : (s.noteWrote a m v).cmd = s.cmd := rfl
@[simp] theorem State.noteWrote_aon (a : Nat) (m v : Word) : (s.noteWrote a m v).aon = s.aon := rfl
@[simp] theorem State.noteWrote_recorder (a : Nat) (m v : Word) : (s.noteWrote a m v).recorder = s.recorder := rfl
@[simp] theorem State.noteWrote_nand (a : Nat) (m v : Word) : (s.noteWrote a m v).nand = s.nand := rfl
@[simp] theorem State.noteWrote_macA (a : Nat) (m v : Word) : (s.noteWrote a m v).macA = s.macA := rfl
@[simp] theorem State.noteWrote_macB (a : Nat) (m v : Word) : (s.noteWrote a m v).macB = s.macB := rfl
@[simp] theorem State.noteWrote_macM (a : Nat) (m v : Word) : (s.noteWrote a m v).macM = s.macM := rfl
@[simp] theorem State.noteWrote_stx (a : Nat) (m v : Word) : (s.noteWrote a m v).stx = s.stx := rfl
@[simp] theorem State.noteWrote_srx (a : Nat) (m v : Word) : (s.noteWrote a m v).srx = s.srx := rfl
@[simp] theorem State.noteWrote_way (a : Nat) (m v : Word) : (s.noteWrote a m v).way = s.way := rfl
@[simp] theorem State.noteWrote_place (a : Nat) (m v : Word) : (s.noteWrote a m v).place = s.place := rfl
@[simp] theorem State.noteWrote_time (a : Nat) (m v : Word) : (s.noteWrote a m v).time = s.time := rfl
@[simp] theorem State.noteWrote_clk (a : Nat) (m v : Word) : (s.noteWrote a m v).clk = s.clk := rfl
@[simp] theorem State.noteWrote_aport (a : Nat) (m v : Word) : (s.noteWrote a m v).aport = s.aport := rfl
@[simp] theorem State.noteWrote_dsp (a : Nat) (m v : Word) : (s.noteWrote a m v).dsp = s.dsp := rfl
@[simp] theorem State.noteWrote_dma (a : Nat) (m v : Word) : (s.noteWrote a m v).dma = s.dma := rfl
@[simp] theorem State.noteWrote_twin (a : Nat) (m v : Word) : (s.noteWrote a m v).twin = s.twin := rfl
@[simp] theorem State.noteWrote_gander (a : Nat) (m v : Word) : (s.noteWrote a m v).gander = s.gander := rfl
@[simp] theorem State.noteWrote_fab (a : Nat) (m v : Word) : (s.noteWrote a m v).fab = s.fab := rfl

/-! ### `attend` -/

@[simp] theorem State.attend_pending : (s.attend).pending = s.pending := by unfold State.attend; simp
@[simp] theorem State.attend_now : (s.attend).now = s.now := by unfold State.attend; simp
@[simp] theorem State.attend_free : (s.attend).free = s.free := by unfold State.attend; simp
@[simp] theorem State.attend_regs : (s.attend).regs = s.regs := by unfold State.attend; simp
@[simp] theorem State.attend_bankSel : (s.attend).bankSel = s.bankSel := by unfold State.attend; simp
@[simp] theorem State.attend_banks : (s.attend).banks = s.banks := by unfold State.attend; simp
@[simp] theorem State.attend_mem : (s.attend).mem = s.mem := by unfold State.attend; simp
@[simp] theorem State.attend_chip : (s.attend).chip = s.chip := by unfold State.attend; simp
@[simp] theorem State.attend_pwr : (s.attend).pwr = s.pwr := by unfold State.attend; simp
@[simp] theorem State.attend_cmd : (s.attend).cmd = s.cmd := by unfold State.attend; simp
@[simp] theorem State.attend_aon : (s.attend).aon = s.aon := by unfold State.attend; simp
@[simp] theorem State.attend_recorder : (s.attend).recorder = s.recorder := by unfold State.attend; simp
@[simp] theorem State.attend_nand : (s.attend).nand = s.nand := by unfold State.attend; simp
@[simp] theorem State.attend_macA : (s.attend).macA = s.macA := by unfold State.attend; simp
@[simp] theorem State.attend_macB : (s.attend).macB = s.macB := by unfold State.attend; simp
@[simp] theorem State.attend_macM : (s.attend).macM = s.macM := by unfold State.attend; simp
@[simp] theorem State.attend_stx : (s.attend).stx = s.stx := by unfold State.attend; simp
@[simp] theorem State.attend_srx : (s.attend).srx = s.srx := by unfold State.attend; simp
@[simp] theorem State.attend_way : (s.attend).way = s.way := by unfold State.attend; simp
@[simp] theorem State.attend_place : (s.attend).place = s.place := by unfold State.attend; simp
@[simp] theorem State.attend_time : (s.attend).time = s.time := by unfold State.attend; simp
@[simp] theorem State.attend_clk : (s.attend).clk = s.clk := by unfold State.attend; simp
@[simp] theorem State.attend_aport : (s.attend).aport = s.aport := by unfold State.attend; simp
@[simp] theorem State.attend_dsp : (s.attend).dsp = s.dsp := by unfold State.attend; simp
@[simp] theorem State.attend_twin : (s.attend).twin = s.twin := by unfold State.attend; simp
@[simp] theorem State.attend_gander : (s.attend).gander = s.gander := by unfold State.attend; simp
@[simp] theorem State.attend_fab : (s.attend).fab = s.fab := by unfold State.attend; simp

/-- What a cause flag does: nothing, or hardware is noted to set it, and it sets where it does not stand, with or without attention (R25). -/
theorem raise_cases (s : State) (a n : Nat) :
    s.raise a n = s ∨ s.raise a n = s.noteRaise a n ∨
    s.raise a n = (s.noteRaise a n).wr a (BitVec.ofNat 32 (setBit (s.rd a).toNat n true)) ∨
    s.raise a n = ((s.noteRaise a n).wr a (BitVec.ofNat 32 (setBit (s.rd a).toNat n true))).attend := by
  unfold State.raise
  split
  · by_cases h2 : bit (s.rd a).toNat n = true
    · exact .inr (.inl (if_pos h2))
    · refine .inr (.inr ?_)
      simp only [h2]
      by_cases h3 : bit (s.rd SYS.ATTN_MASK).toNat (blkOf a) = true
      · exact .inr (if_pos h3)
      · exact .inl (if_neg h3)
  · exact .inl rfl

/-! ### `raise` -/

@[simp] theorem State.raise_pending (a n : Nat) : (s.raise a n).pending = s.pending := by rcases raise_cases s a n with h | h | h | h <;> simp [h]
@[simp] theorem State.raise_now (a n : Nat) : (s.raise a n).now = s.now := by rcases raise_cases s a n with h | h | h | h <;> simp [h]
@[simp] theorem State.raise_free (a n : Nat) : (s.raise a n).free = s.free := by rcases raise_cases s a n with h | h | h | h <;> simp [h]
@[simp] theorem State.raise_bankSel (a n : Nat) : (s.raise a n).bankSel = s.bankSel := by rcases raise_cases s a n with h | h | h | h <;> simp [h]
@[simp] theorem State.raise_banks (a n : Nat) : (s.raise a n).banks = s.banks := by rcases raise_cases s a n with h | h | h | h <;> simp [h]
@[simp] theorem State.raise_mem (a n : Nat) : (s.raise a n).mem = s.mem := by rcases raise_cases s a n with h | h | h | h <;> simp [h]
@[simp] theorem State.raise_chip (a n : Nat) : (s.raise a n).chip = s.chip := by rcases raise_cases s a n with h | h | h | h <;> simp [h]
@[simp] theorem State.raise_pwr (a n : Nat) : (s.raise a n).pwr = s.pwr := by rcases raise_cases s a n with h | h | h | h <;> simp [h]
@[simp] theorem State.raise_cmd (a n : Nat) : (s.raise a n).cmd = s.cmd := by rcases raise_cases s a n with h | h | h | h <;> simp [h]
@[simp] theorem State.raise_aon (a n : Nat) : (s.raise a n).aon = s.aon := by rcases raise_cases s a n with h | h | h | h <;> simp [h]
@[simp] theorem State.raise_recorder (a n : Nat) : (s.raise a n).recorder = s.recorder := by rcases raise_cases s a n with h | h | h | h <;> simp [h]
@[simp] theorem State.raise_nand (a n : Nat) : (s.raise a n).nand = s.nand := by rcases raise_cases s a n with h | h | h | h <;> simp [h]
@[simp] theorem State.raise_macA (a n : Nat) : (s.raise a n).macA = s.macA := by rcases raise_cases s a n with h | h | h | h <;> simp [h]
@[simp] theorem State.raise_macB (a n : Nat) : (s.raise a n).macB = s.macB := by rcases raise_cases s a n with h | h | h | h <;> simp [h]
@[simp] theorem State.raise_macM (a n : Nat) : (s.raise a n).macM = s.macM := by rcases raise_cases s a n with h | h | h | h <;> simp [h]
@[simp] theorem State.raise_stx (a n : Nat) : (s.raise a n).stx = s.stx := by rcases raise_cases s a n with h | h | h | h <;> simp [h]
@[simp] theorem State.raise_srx (a n : Nat) : (s.raise a n).srx = s.srx := by rcases raise_cases s a n with h | h | h | h <;> simp [h]
@[simp] theorem State.raise_way (a n : Nat) : (s.raise a n).way = s.way := by rcases raise_cases s a n with h | h | h | h <;> simp [h]
@[simp] theorem State.raise_place (a n : Nat) : (s.raise a n).place = s.place := by rcases raise_cases s a n with h | h | h | h <;> simp [h]
@[simp] theorem State.raise_time (a n : Nat) : (s.raise a n).time = s.time := by rcases raise_cases s a n with h | h | h | h <;> simp [h]
@[simp] theorem State.raise_clk (a n : Nat) : (s.raise a n).clk = s.clk := by rcases raise_cases s a n with h | h | h | h <;> simp [h]
@[simp] theorem State.raise_aport (a n : Nat) : (s.raise a n).aport = s.aport := by rcases raise_cases s a n with h | h | h | h <;> simp [h]
@[simp] theorem State.raise_dsp (a n : Nat) : (s.raise a n).dsp = s.dsp := by rcases raise_cases s a n with h | h | h | h <;> simp [h]
@[simp] theorem State.raise_twin (a n : Nat) : (s.raise a n).twin = s.twin := by rcases raise_cases s a n with h | h | h | h <;> simp [h]
@[simp] theorem State.raise_gander (a n : Nat) : (s.raise a n).gander = s.gander := by rcases raise_cases s a n with h | h | h | h <;> simp [h]
@[simp] theorem State.raise_fab (a n : Nat) : (s.raise a n).fab = s.fab := by rcases raise_cases s a n with h | h | h | h <;> simp [h]

/-! ### `setMac` -/

@[simp] theorem State.setMac_pending (p : Nat) (m : MacS) : (s.setMac p m).pending = s.pending := by unfold State.setMac; split <;> (try split) <;> rfl
@[simp] theorem State.setMac_now (p : Nat) (m : MacS) : (s.setMac p m).now = s.now := by unfold State.setMac; split <;> (try split) <;> rfl
@[simp] theorem State.setMac_free (p : Nat) (m : MacS) : (s.setMac p m).free = s.free := by unfold State.setMac; split <;> (try split) <;> rfl
@[simp] theorem State.setMac_regs (p : Nat) (m : MacS) : (s.setMac p m).regs = s.regs := by unfold State.setMac; split <;> (try split) <;> rfl
@[simp] theorem State.setMac_bankSel (p : Nat) (m : MacS) : (s.setMac p m).bankSel = s.bankSel := by unfold State.setMac; split <;> (try split) <;> rfl
@[simp] theorem State.setMac_banks (p : Nat) (m : MacS) : (s.setMac p m).banks = s.banks := by unfold State.setMac; split <;> (try split) <;> rfl
@[simp] theorem State.setMac_inst (p : Nat) (m : MacS) : (s.setMac p m).inst = s.inst := by unfold State.setMac; split <;> (try split) <;> rfl
@[simp] theorem State.setMac_mem (p : Nat) (m : MacS) : (s.setMac p m).mem = s.mem := by unfold State.setMac; split <;> (try split) <;> rfl
@[simp] theorem State.setMac_chip (p : Nat) (m : MacS) : (s.setMac p m).chip = s.chip := by unfold State.setMac; split <;> (try split) <;> rfl
@[simp] theorem State.setMac_pwr (p : Nat) (m : MacS) : (s.setMac p m).pwr = s.pwr := by unfold State.setMac; split <;> (try split) <;> rfl
@[simp] theorem State.setMac_host (p : Nat) (m : MacS) : (s.setMac p m).host = s.host := by unfold State.setMac; split <;> (try split) <;> rfl
@[simp] theorem State.setMac_cmd (p : Nat) (m : MacS) : (s.setMac p m).cmd = s.cmd := by unfold State.setMac; split <;> (try split) <;> rfl
@[simp] theorem State.setMac_aon (p : Nat) (m : MacS) : (s.setMac p m).aon = s.aon := by unfold State.setMac; split <;> (try split) <;> rfl
@[simp] theorem State.setMac_recorder (p : Nat) (m : MacS) : (s.setMac p m).recorder = s.recorder := by unfold State.setMac; split <;> (try split) <;> rfl
@[simp] theorem State.setMac_nand (p : Nat) (m : MacS) : (s.setMac p m).nand = s.nand := by unfold State.setMac; split <;> (try split) <;> rfl
@[simp] theorem State.setMac_stx (p : Nat) (m : MacS) : (s.setMac p m).stx = s.stx := by unfold State.setMac; split <;> (try split) <;> rfl
@[simp] theorem State.setMac_srx (p : Nat) (m : MacS) : (s.setMac p m).srx = s.srx := by unfold State.setMac; split <;> (try split) <;> rfl
@[simp] theorem State.setMac_way (p : Nat) (m : MacS) : (s.setMac p m).way = s.way := by unfold State.setMac; split <;> (try split) <;> rfl
@[simp] theorem State.setMac_place (p : Nat) (m : MacS) : (s.setMac p m).place = s.place := by unfold State.setMac; split <;> (try split) <;> rfl
@[simp] theorem State.setMac_time (p : Nat) (m : MacS) : (s.setMac p m).time = s.time := by unfold State.setMac; split <;> (try split) <;> rfl
@[simp] theorem State.setMac_clk (p : Nat) (m : MacS) : (s.setMac p m).clk = s.clk := by unfold State.setMac; split <;> (try split) <;> rfl
@[simp] theorem State.setMac_aport (p : Nat) (m : MacS) : (s.setMac p m).aport = s.aport := by unfold State.setMac; split <;> (try split) <;> rfl
@[simp] theorem State.setMac_dsp (p : Nat) (m : MacS) : (s.setMac p m).dsp = s.dsp := by unfold State.setMac; split <;> (try split) <;> rfl
@[simp] theorem State.setMac_dma (p : Nat) (m : MacS) : (s.setMac p m).dma = s.dma := by unfold State.setMac; split <;> (try split) <;> rfl
@[simp] theorem State.setMac_twin (p : Nat) (m : MacS) : (s.setMac p m).twin = s.twin := by unfold State.setMac; split <;> (try split) <;> rfl
@[simp] theorem State.setMac_gander (p : Nat) (m : MacS) : (s.setMac p m).gander = s.gander := by unfold State.setMac; split <;> (try split) <;> rfl
@[simp] theorem State.setMac_fab (p : Nat) (m : MacS) : (s.setMac p m).fab = s.fab := by unfold State.setMac; split <;> (try split) <;> rfl

/-! ### Several bytes of memory -/

@[simp] theorem State.setMem_pending (bs : List Byte) (a : Nat) (s : State) : (s.setMem a bs).pending = s.pending := by
  induction bs generalizing a s with
  | nil => rfl
  | cons b r ih => simp [State.setMem, ih]
@[simp] theorem State.setMem_now (bs : List Byte) (a : Nat) (s : State) : (s.setMem a bs).now = s.now := by
  induction bs generalizing a s with
  | nil => rfl
  | cons b r ih => simp [State.setMem, ih]
@[simp] theorem State.setMem_free (bs : List Byte) (a : Nat) (s : State) : (s.setMem a bs).free = s.free := by
  induction bs generalizing a s with
  | nil => rfl
  | cons b r ih => simp [State.setMem, ih]
@[simp] theorem State.setMem_regs (bs : List Byte) (a : Nat) (s : State) : (s.setMem a bs).regs = s.regs := by
  induction bs generalizing a s with
  | nil => rfl
  | cons b r ih => simp [State.setMem, ih]
@[simp] theorem State.setMem_bankSel (bs : List Byte) (a : Nat) (s : State) : (s.setMem a bs).bankSel = s.bankSel := by
  induction bs generalizing a s with
  | nil => rfl
  | cons b r ih => simp [State.setMem, ih]
@[simp] theorem State.setMem_banks (bs : List Byte) (a : Nat) (s : State) : (s.setMem a bs).banks = s.banks := by
  induction bs generalizing a s with
  | nil => rfl
  | cons b r ih => simp [State.setMem, ih]
@[simp] theorem State.setMem_inst (bs : List Byte) (a : Nat) (s : State) : (s.setMem a bs).inst = s.inst := by
  induction bs generalizing a s with
  | nil => rfl
  | cons b r ih => simp [State.setMem, ih]
@[simp] theorem State.setMem_chip (bs : List Byte) (a : Nat) (s : State) : (s.setMem a bs).chip = s.chip := by
  induction bs generalizing a s with
  | nil => rfl
  | cons b r ih => simp [State.setMem, ih]
@[simp] theorem State.setMem_pwr (bs : List Byte) (a : Nat) (s : State) : (s.setMem a bs).pwr = s.pwr := by
  induction bs generalizing a s with
  | nil => rfl
  | cons b r ih => simp [State.setMem, ih]
@[simp] theorem State.setMem_host (bs : List Byte) (a : Nat) (s : State) : (s.setMem a bs).host = s.host := by
  induction bs generalizing a s with
  | nil => rfl
  | cons b r ih => simp [State.setMem, ih]
@[simp] theorem State.setMem_cmd (bs : List Byte) (a : Nat) (s : State) : (s.setMem a bs).cmd = s.cmd := by
  induction bs generalizing a s with
  | nil => rfl
  | cons b r ih => simp [State.setMem, ih]
@[simp] theorem State.setMem_aon (bs : List Byte) (a : Nat) (s : State) : (s.setMem a bs).aon = s.aon := by
  induction bs generalizing a s with
  | nil => rfl
  | cons b r ih => simp [State.setMem, ih]
@[simp] theorem State.setMem_recorder (bs : List Byte) (a : Nat) (s : State) : (s.setMem a bs).recorder = s.recorder := by
  induction bs generalizing a s with
  | nil => rfl
  | cons b r ih => simp [State.setMem, ih]
@[simp] theorem State.setMem_nand (bs : List Byte) (a : Nat) (s : State) : (s.setMem a bs).nand = s.nand := by
  induction bs generalizing a s with
  | nil => rfl
  | cons b r ih => simp [State.setMem, ih]
@[simp] theorem State.setMem_macA (bs : List Byte) (a : Nat) (s : State) : (s.setMem a bs).macA = s.macA := by
  induction bs generalizing a s with
  | nil => rfl
  | cons b r ih => simp [State.setMem, ih]
@[simp] theorem State.setMem_macB (bs : List Byte) (a : Nat) (s : State) : (s.setMem a bs).macB = s.macB := by
  induction bs generalizing a s with
  | nil => rfl
  | cons b r ih => simp [State.setMem, ih]
@[simp] theorem State.setMem_macM (bs : List Byte) (a : Nat) (s : State) : (s.setMem a bs).macM = s.macM := by
  induction bs generalizing a s with
  | nil => rfl
  | cons b r ih => simp [State.setMem, ih]
@[simp] theorem State.setMem_stx (bs : List Byte) (a : Nat) (s : State) : (s.setMem a bs).stx = s.stx := by
  induction bs generalizing a s with
  | nil => rfl
  | cons b r ih => simp [State.setMem, ih]
@[simp] theorem State.setMem_srx (bs : List Byte) (a : Nat) (s : State) : (s.setMem a bs).srx = s.srx := by
  induction bs generalizing a s with
  | nil => rfl
  | cons b r ih => simp [State.setMem, ih]
@[simp] theorem State.setMem_way (bs : List Byte) (a : Nat) (s : State) : (s.setMem a bs).way = s.way := by
  induction bs generalizing a s with
  | nil => rfl
  | cons b r ih => simp [State.setMem, ih]
@[simp] theorem State.setMem_place (bs : List Byte) (a : Nat) (s : State) : (s.setMem a bs).place = s.place := by
  induction bs generalizing a s with
  | nil => rfl
  | cons b r ih => simp [State.setMem, ih]
@[simp] theorem State.setMem_time (bs : List Byte) (a : Nat) (s : State) : (s.setMem a bs).time = s.time := by
  induction bs generalizing a s with
  | nil => rfl
  | cons b r ih => simp [State.setMem, ih]
@[simp] theorem State.setMem_clk (bs : List Byte) (a : Nat) (s : State) : (s.setMem a bs).clk = s.clk := by
  induction bs generalizing a s with
  | nil => rfl
  | cons b r ih => simp [State.setMem, ih]
@[simp] theorem State.setMem_aport (bs : List Byte) (a : Nat) (s : State) : (s.setMem a bs).aport = s.aport := by
  induction bs generalizing a s with
  | nil => rfl
  | cons b r ih => simp [State.setMem, ih]
@[simp] theorem State.setMem_dsp (bs : List Byte) (a : Nat) (s : State) : (s.setMem a bs).dsp = s.dsp := by
  induction bs generalizing a s with
  | nil => rfl
  | cons b r ih => simp [State.setMem, ih]
@[simp] theorem State.setMem_dma (bs : List Byte) (a : Nat) (s : State) : (s.setMem a bs).dma = s.dma := by
  induction bs generalizing a s with
  | nil => rfl
  | cons b r ih => simp [State.setMem, ih]
@[simp] theorem State.setMem_twin (bs : List Byte) (a : Nat) (s : State) : (s.setMem a bs).twin = s.twin := by
  induction bs generalizing a s with
  | nil => rfl
  | cons b r ih => simp [State.setMem, ih]
@[simp] theorem State.setMem_gander (bs : List Byte) (a : Nat) (s : State) : (s.setMem a bs).gander = s.gander := by
  induction bs generalizing a s with
  | nil => rfl
  | cons b r ih => simp [State.setMem, ih]
@[simp] theorem State.setMem_fab (bs : List Byte) (a : Nat) (s : State) : (s.setMem a bs).fab = s.fab := by
  induction bs generalizing a s with
  | nil => rfl
  | cons b r ih => simp [State.setMem, ih]

/-! ### What each update writes -/

@[simp] theorem State.at_now_le (t : Nat) : s.now ≤ (s.at t).now := by simp only [State.at]; split <;> omega
@[simp] theorem State.emit_recorder (isl : Island) (c v i : Nat) (p : List Nat) :
    (s.emit isl c v i p).recorder = { s.recorder with evq := s.recorder.evq ++ [⟨isl, c, v, i, p.map (· % 2 ^ 32)⟩] } := rfl
@[simp] theorem State.takeFree_free (w : Nat) : (s.takeFree w).2.free = s.free + 1 := rfl
@[simp] theorem State.path_setPath (p : Path) (x : PathS) : (s.setPath p x).path p = x := by cases p <;> rfl
theorem State.path_setPath_of_ne (p q : Path) (x : PathS) (h : q ≠ p) : (s.setPath p x).path q = s.path q := by
  cases p <;> cases q <;> first | rfl | exact absurd rfl h

end Sys2Proof.Machine
end

