-- ==== Sys2Proof/Laws/Frames.lean ====
section
/-! SUPPORT. What the shared operations leave alone: the queue of waiting commands and the elapsed time. -/
namespace Sys2Proof.Machine

theorem foldl_keeps {α β : Type} (f : State → β) (g : State → α → State) (h : ∀ s x, f (g s x) = f s) (l : List α) (s : State) :
    f (l.foldl g s) = f s := by
  induction l generalizing s with
  | nil => rfl
  | cons a r ih => rw [List.foldl_cons, ih, h]

@[simp] theorem ite_pending {c : Prop} [Decidable c] (a b : State) : (if c then a else b).pending = if c then a.pending else b.pending := by
  split <;> rfl
@[simp] theorem foldl_pending {α : Type} (g : State → α → State) (h : ∀ st x, (g st x).pending = st.pending) (l : List α) (s : State) :
    (l.foldl g s).pending = s.pending := foldl_keeps _ g h l s
@[simp] theorem hwFld_pending (s : State) (a : Nat) (f : Fld) (x : Nat) : (s.hwFld a f x).pending = s.pending := by unfold State.hwFld; split <;> simp

@[simp] theorem ite_now {c : Prop} [Decidable c] (a b : State) : (if c then a else b).now = if c then a.now else b.now := by
  split <;> rfl
@[simp] theorem foldl_now {α : Type} (g : State → α → State) (h : ∀ st x, (g st x).now = st.now) (l : List α) (s : State) :
    (l.foldl g s).now = s.now := foldl_keeps _ g h l s
@[simp] theorem hwFld_now (s : State) (a : Nat) (f : Fld) (x : Nat) : (s.hwFld a f x).now = s.now := by unfold State.hwFld; split <;> simp

@[simp] theorem mbxAsk_pending (s : State) (p : Path) (b sel tag : Nat) : (mbxAsk s p b sel tag).pending = s.pending := by simp [mbxAsk]
@[simp] theorem mbxFail_pending (s : State) (p : Path) (b code : Nat) : (mbxFail s p b code).pending = s.pending := by simp [mbxFail]
@[simp] theorem mbxCapture_pending (s : State) (p : Path) (b : Nat) (w : List Nat) : (mbxCapture s p b w).pending = s.pending := by simp [mbxCapture]
@[simp] theorem mbxStore_pending (s : State) (p : Path) (b : Nat) : (mbxStore s p b).pending = s.pending := by unfold mbxStore; split <;> simp
@[simp] theorem ringCount_pending (s : State) (r : Nat) : (ringCount s r).pending = s.pending := by simp [ringCount]
@[simp] theorem eventRing_pending (s : State) (rec : Rec) (r : Nat) : (eventRing s rec r).pending = s.pending := by simp [eventRing]
@[simp] theorem eventRings_pending (s : State) (rec : Rec) : (eventRings s rec).pending = s.pending := by simp [eventRings]
@[simp] theorem pushDone_pending (s : State) (c : Cpl) : (pushDone s c).pending = s.pending := by simp [pushDone]
@[simp] theorem ringDone_pending (s : State) (c : Cpl) (r slot gen : Nat) : (ringDone s c r slot gen).pending = s.pending := by simp [ringDone]
@[simp] theorem finish_pending (s : State) (c : Cmd) (status detail : Nat) : (finish s c status detail).pending = s.pending := by unfold finish; split <;> simp
@[simp] theorem reject_pending (s : State) (c : Cmd) (status : Nat) : (reject s c status).pending = s.pending := by simp [reject]
@[simp] theorem finishAll_pending (s : State) (l : List Cmd) (status : Nat) : (finishAll s l status).pending = s.pending := by simp [finishAll]
@[simp] theorem dropStarted_pending (s : State) (c : Cmd) : (dropStarted s c).pending = s.pending := rfl
@[simp] theorem finishStarted_pending (s : State) (c : Cmd) (status detail : Nat) : (finishStarted s c status detail).pending = s.pending := by simp [finishStarted]
@[simp] theorem setFpg_pending (s : State) (k : Nat) (x : FpgS) : (setFpg s k x).pending = s.pending := rfl
@[simp] theorem setMsy_pending (s : State) (m : Nat) (x : MsyS) : (setMsy s m x).pending = s.pending := rfl
@[simp] theorem setOut_pending (s : State) (n : Nat) (x : ClkOutS) : (setOut s n x).pending = s.pending := rfl
@[simp] theorem outPlan_pending (s : State) (n : Nat) (fall : Bool) (lead : Nat) : (outPlan s n fall lead).pending = s.pending := by
  unfold outPlan; (try dsimp only); (repeat' (first | rfl | split)) <;> simp
@[simp] theorem outRephase_pending (s : State) (n : Nat) : (outRephase s n).pending = s.pending := by simp [outRephase]
@[simp] theorem rephase_pending (s : State) (m : Option Nat) : (rephase s m).pending = s.pending := by simp [rephase]
@[simp] theorem outsOf_pending (s : State) (src : Nat) (fall : Bool) : (outsOf s src fall).pending = s.pending := by simp [outsOf]
@[simp] theorem outsSolo_pending (s : State) (was : Bool) : (outsSolo s was).pending = s.pending := by simp [outsSolo]
@[simp] theorem msyRetime_pending (s : State) (m : Nat) (tau : Int) (rate : Option (Int × Nat)) : (msyRetime s m tau rate).pending = s.pending := rfl
@[simp] theorem twinCount_pending (s : State) (k n : Nat) : (twinCount s k n).pending = s.pending := rfl
@[simp] theorem finishEach_pending (s : State) (l : List Cmd) (status detail : Nat) : (finishEach s l status detail).pending = s.pending := by simp [finishEach]
@[simp] theorem setRole_pending (s : State) (r : Role) (trig : Nat) : (setRole s r trig).pending = s.pending := by simp [setRole]
@[simp] theorem refreshRole_pending (s : State) (trig : Nat) : (refreshRole s trig).pending = s.pending := by simp [refreshRole]
@[simp] theorem restartClean_pending (s : State) : (restartClean s).pending = s.pending := rfl
@[simp] theorem mismatch_pending (s : State) (d : Digest) : (mismatch s d).pending = s.pending := by simp [mismatch]
@[simp] theorem compareDigests_pending (s : State) (a b : Digest) : (compareDigests s a b).pending = s.pending := by simp [compareDigests]
@[simp] theorem digestBuilt_pending (s : State) (d : Digest) : (digestBuilt s d).pending = s.pending := by
  unfold digestBuilt; (try dsimp only); (repeat' (first | rfl | split)) <;> simp
@[simp] theorem digestArrived_pending (s : State) (d : Digest) : (digestArrived s d).pending = s.pending := by unfold digestArrived; split <;> (try split) <;> simp
@[simp] theorem digestsMissing_pending (s : State) : (digestsMissing s).pending = s.pending := by simp [digestsMissing]
@[simp] theorem verdictSettle_pending (s : State) : (verdictSettle s).pending = s.pending := rfl
@[simp] theorem State.withNand_pending (s : State) (n : NandS) : (State.withNand s n).pending = s.pending := rfl
@[simp] theorem programMeta_pending (s : State) (p page kind : Nat) : (programMeta s p page kind).pending = s.pending := rfl
@[simp] theorem eraseBlock_pending (s : State) (b : Nat) : (eraseBlock s b).pending = s.pending := rfl
@[simp] theorem wipeBlock_pending (s : State) (p lb : Nat) : (wipeBlock s p lb).pending = s.pending := rfl
@[simp] theorem toFallback_pending (s : State) (r : Rec) (pending : Bool) : (toFallback s r pending).pending = s.pending := by simp [toFallback]
@[simp] theorem placeFallback_pending (s : State) (r : Rec) : (placeFallback s r).pending = s.pending := by simp [placeFallback]
@[simp] theorem setSnap_pending (s : State) (p : Path) (x : Option Snap) : (setSnap s p x).pending = s.pending := by unfold setSnap; split <;> simp
@[simp] theorem loseSnap_pending (s : State) (p : Path) : (loseSnap s p).pending = s.pending := by unfold loseSnap; split <;> simp
@[simp] theorem loseSnaps_pending (s : State) : (loseSnaps s).pending = s.pending := by simp [loseSnaps]
@[simp] theorem holdToFallback_pending (s : State) : (holdToFallback s).pending = s.pending := by simp [holdToFallback]
@[simp] theorem mediumFail_pending (s : State) (cause block : Nat) : (mediumFail s cause block).pending = s.pending := by simp [mediumFail]
@[simp] theorem retireNote_pending (s : State) : (retireNote s).pending = s.pending := by simp [retireNote]
@[simp] theorem logWrite_pending (s : State) (l : List Rec) : (logWrite s l).pending = s.pending := rfl
@[simp] theorem noteVictim_pending (s : State) (seq : Nat) : (noteVictim s seq).pending = s.pending := by simp [noteVictim]
@[simp] theorem toHold_pending (s : State) (r : Rec) : (toHold s r).pending = s.pending := by simp [toHold]
@[simp] theorem freezeLog_pending (s : State) : (freezeLog s).pending = s.pending := by simp [freezeLog]
@[simp] theorem setCursor_pending (s : State) (p : Path) (n : Nat) : (setCursor s p n).pending = s.pending := by simp [setCursor]
@[simp] theorem moveCursor_pending (s : State) (p : Path) (n : Nat) : (moveCursor s p n).pending = s.pending := by simp [moveCursor]
@[simp] theorem nextRec_pending (s : State) (p : Path) (l : List Rec) : (nextRec s p l).2.pending = s.pending := by unfold nextRec; split <;> simp
@[simp] theorem snapRead_pending (s : State) (p : Path) (sel : Snap → List Rec) : (snapRead s p sel).2.pending = s.pending := by unfold snapRead; split <;> simp
@[simp] theorem clearLog_pending (s : State) : (clearLog s).pending = s.pending := by simp [clearLog]
@[simp] theorem restoreCounters_pending (s : State) (readable : Bool) : (restoreCounters s readable).pending = s.pending := by simp [restoreCounters]
@[simp] theorem useNand_pending (s : State) (g : NandGeom) : (useNand s g).pending = s.pending := rfl
@[simp] theorem retryBlock_pending (s : State) : (retryBlock s).pending = s.pending := by unfold retryBlock; split <;> simp
@[simp] theorem dropLogPage_pending (s : State) (page : Nat) : (dropLogPage s page).pending = s.pending := by simp [dropLogPage]
@[simp] theorem spoilImages_pending (s : State) (page : Nat) : (spoilImages s page).pending = s.pending := rfl
@[simp] theorem xferCtlWrite_pending (s : State) (v : Nat) : (xferCtlWrite s v).pending = s.pending := by simp [xferCtlWrite]
@[simp] theorem noteOuts_pending (old s : State) : (noteOuts old s).pending = s.pending := by simp [noteOuts]
@[simp] theorem indicate_pending (s' : State) (b : Nat) : (indicate s' b).pending = s'.pending := by simp [indicate]
@[simp] theorem safeIndicator_pending (s : State) : (safeIndicator s).pending = s.pending := by simp [safeIndicator]
@[simp] theorem changeMode_pending (s : State) (m : Mode) : (changeMode s m).pending = s.pending := by simp [changeMode]
@[simp] theorem safeCause_pending (s : State) (b : Nat) (dev : Bool) : (safeCause s b dev).pending = s.pending := by simp [safeCause]
@[simp] theorem clearCause_pending (s : State) (b : Nat) : (clearCause s b).pending = s.pending := rfl
@[simp] theorem blankRegs_pending (s : State) (b : Nat) : (blankRegs s b).pending = s.pending := rfl
@[simp] theorem ptpDrop_pending (s : State) (b : Nat) : (ptpDrop s b).pending = s.pending := rfl
@[simp] theorem clearBlock_pending (s0 : State) (b : Nat) : (clearBlock s0 b).pending = s0.pending := by simp [clearBlock]
@[simp] theorem domLose_pending (s : State) (d : Nat) : (domLose s d).pending = s.pending := by simp [domLose]
@[simp] theorem domSwitchOff_pending (s : State) (d : Nat) : (domSwitchOff s d).pending = s.pending := by simp [domSwitchOff]
@[simp] theorem domainsOff_pending (s : State) : (domainsOff s).pending = s.pending := by simp [domainsOff]
@[simp] theorem domainsSettle_pending (s : State) : (domainsSettle s).pending = s.pending := by simp [domainsSettle]
@[simp] theorem mbxAsk_now (s : State) (p : Path) (b sel tag : Nat) : (mbxAsk s p b sel tag).now = s.now := by simp [mbxAsk]
@[simp] theorem mbxFail_now (s : State) (p : Path) (b code : Nat) : (mbxFail s p b code).now = s.now := by simp [mbxFail]
@[simp] theorem mbxCapture_now (s : State) (p : Path) (b : Nat) (w : List Nat) : (mbxCapture s p b w).now = s.now := by simp [mbxCapture]
@[simp] theorem mbxStore_now (s : State) (p : Path) (b : Nat) : (mbxStore s p b).now = s.now := by unfold mbxStore; split <;> simp
@[simp] theorem ringCount_now (s : State) (r : Nat) : (ringCount s r).now = s.now := by simp [ringCount]
@[simp] theorem eventRing_now (s : State) (rec : Rec) (r : Nat) : (eventRing s rec r).now = s.now := by simp [eventRing]
@[simp] theorem eventRings_now (s : State) (rec : Rec) : (eventRings s rec).now = s.now := by simp [eventRings]
@[simp] theorem pushDone_now (s : State) (c : Cpl) : (pushDone s c).now = s.now := by simp [pushDone]
@[simp] theorem ringDone_now (s : State) (c : Cpl) (r slot gen : Nat) : (ringDone s c r slot gen).now = s.now := by simp [ringDone]
@[simp] theorem finish_now (s : State) (c : Cmd) (status detail : Nat) : (finish s c status detail).now = s.now := by unfold finish; split <;> simp
@[simp] theorem reject_now (s : State) (c : Cmd) (status : Nat) : (reject s c status).now = s.now := by simp [reject]
@[simp] theorem finishAll_now (s : State) (l : List Cmd) (status : Nat) : (finishAll s l status).now = s.now := by simp [finishAll]
@[simp] theorem dropStarted_now (s : State) (c : Cmd) : (dropStarted s c).now = s.now := rfl
@[simp] theorem finishStarted_now (s : State) (c : Cmd) (status detail : Nat) : (finishStarted s c status detail).now = s.now := by simp [finishStarted]
@[simp] theorem setFpg_now (s : State) (k : Nat) (x : FpgS) : (setFpg s k x).now = s.now := rfl
@[simp] theorem setMsy_now (s : State) (m : Nat) (x : MsyS) : (setMsy s m x).now = s.now := rfl
@[simp] theorem setOut_now (s : State) (n : Nat) (x : ClkOutS) : (setOut s n x).now = s.now := rfl
@[simp] theorem outPlan_now (s : State) (n : Nat) (fall : Bool) (lead : Nat) : (outPlan s n fall lead).now = s.now := by
  unfold outPlan; (try dsimp only); (repeat' (first | rfl | split)) <;> simp
@[simp] theorem outRephase_now (s : State) (n : Nat) : (outRephase s n).now = s.now := by simp [outRephase]
@[simp] theorem rephase_now (s : State) (m : Option Nat) : (rephase s m).now = s.now := by simp [rephase]
@[simp] theorem outsOf_now (s : State) (src : Nat) (fall : Bool) : (outsOf s src fall).now = s.now := by simp [outsOf]
@[simp] theorem outsSolo_now (s : State) (was : Bool) : (outsSolo s was).now = s.now := by simp [outsSolo]
@[simp] theorem msyRetime_now (s : State) (m : Nat) (tau : Int) (rate : Option (Int × Nat)) : (msyRetime s m tau rate).now = s.now := rfl
@[simp] theorem twinCount_now (s : State) (k n : Nat) : (twinCount s k n).now = s.now := rfl
@[simp] theorem finishEach_now (s : State) (l : List Cmd) (status detail : Nat) : (finishEach s l status detail).now = s.now := by simp [finishEach]
@[simp] theorem setRole_now (s : State) (r : Role) (trig : Nat) : (setRole s r trig).now = s.now := by simp [setRole]
@[simp] theorem refreshRole_now (s : State) (trig : Nat) : (refreshRole s trig).now = s.now := by simp [refreshRole]
@[simp] theorem restartClean_now (s : State) : (restartClean s).now = s.now := rfl
@[simp] theorem mismatch_now (s : State) (d : Digest) : (mismatch s d).now = s.now := by simp [mismatch]
@[simp] theorem compareDigests_now (s : State) (a b : Digest) : (compareDigests s a b).now = s.now := by simp [compareDigests]
@[simp] theorem digestBuilt_now (s : State) (d : Digest) : (digestBuilt s d).now = s.now := by
  unfold digestBuilt; (try dsimp only); (repeat' (first | rfl | split)) <;> simp
@[simp] theorem digestArrived_now (s : State) (d : Digest) : (digestArrived s d).now = s.now := by unfold digestArrived; split <;> (try split) <;> simp
@[simp] theorem digestsMissing_now (s : State) : (digestsMissing s).now = s.now := by simp [digestsMissing]
@[simp] theorem verdictSettle_now (s : State) : (verdictSettle s).now = s.now := rfl
@[simp] theorem State.withNand_now (s : State) (n : NandS) : (State.withNand s n).now = s.now := rfl
@[simp] theorem programMeta_now (s : State) (p page kind : Nat) : (programMeta s p page kind).now = s.now := rfl
@[simp] theorem eraseBlock_now (s : State) (b : Nat) : (eraseBlock s b).now = s.now := rfl
@[simp] theorem wipeBlock_now (s : State) (p lb : Nat) : (wipeBlock s p lb).now = s.now := rfl
@[simp] theorem toFallback_now (s : State) (r : Rec) (pending : Bool) : (toFallback s r pending).now = s.now := by simp [toFallback]
@[simp] theorem placeFallback_now (s : State) (r : Rec) : (placeFallback s r).now = s.now := by simp [placeFallback]
@[simp] theorem setSnap_now (s : State) (p : Path) (x : Option Snap) : (setSnap s p x).now = s.now := by unfold setSnap; split <;> simp
@[simp] theorem loseSnap_now (s : State) (p : Path) : (loseSnap s p).now = s.now := by unfold loseSnap; split <;> simp
@[simp] theorem loseSnaps_now (s : State) : (loseSnaps s).now = s.now := by simp [loseSnaps]
@[simp] theorem holdToFallback_now (s : State) : (holdToFallback s).now = s.now := by simp [holdToFallback]
@[simp] theorem mediumFail_now (s : State) (cause block : Nat) : (mediumFail s cause block).now = s.now := by simp [mediumFail]
@[simp] theorem retireNote_now (s : State) : (retireNote s).now = s.now := by simp [retireNote]
@[simp] theorem logWrite_now (s : State) (l : List Rec) : (logWrite s l).now = s.now := rfl
@[simp] theorem noteVictim_now (s : State) (seq : Nat) : (noteVictim s seq).now = s.now := by simp [noteVictim]
@[simp] theorem toHold_now (s : State) (r : Rec) : (toHold s r).now = s.now := by simp [toHold]
@[simp] theorem freezeLog_now (s : State) : (freezeLog s).now = s.now := by simp [freezeLog]
@[simp] theorem setCursor_now (s : State) (p : Path) (n : Nat) : (setCursor s p n).now = s.now := by simp [setCursor]
@[simp] theorem moveCursor_now (s : State) (p : Path) (n : Nat) : (moveCursor s p n).now = s.now := by simp [moveCursor]
@[simp] theorem nextRec_now (s : State) (p : Path) (l : List Rec) : (nextRec s p l).2.now = s.now := by unfold nextRec; split <;> simp
@[simp] theorem snapRead_now (s : State) (p : Path) (sel : Snap → List Rec) : (snapRead s p sel).2.now = s.now := by unfold snapRead; split <;> simp
@[simp] theorem clearLog_now (s : State) : (clearLog s).now = s.now := by simp [clearLog]
@[simp] theorem restoreCounters_now (s : State) (readable : Bool) : (restoreCounters s readable).now = s.now := by simp [restoreCounters]
@[simp] theorem useNand_now (s : State) (g : NandGeom) : (useNand s g).now = s.now := rfl
@[simp] theorem retryBlock_now (s : State) : (retryBlock s).now = s.now := by unfold retryBlock; split <;> simp
@[simp] theorem dropLogPage_now (s : State) (page : Nat) : (dropLogPage s page).now = s.now := by simp [dropLogPage]
@[simp] theorem spoilImages_now (s : State) (page : Nat) : (spoilImages s page).now = s.now := rfl
@[simp] theorem xferCtlWrite_now (s : State) (v : Nat) : (xferCtlWrite s v).now = s.now := by simp [xferCtlWrite]
@[simp] theorem noteOuts_now (old s : State) : (noteOuts old s).now = s.now := by simp [noteOuts]
@[simp] theorem indicate_now (s' : State) (b : Nat) : (indicate s' b).now = s'.now := by simp [indicate]
@[simp] theorem safeIndicator_now (s : State) : (safeIndicator s).now = s.now := by simp [safeIndicator]
@[simp] theorem changeMode_now (s : State) (m : Mode) : (changeMode s m).now = s.now := by simp [changeMode]
@[simp] theorem safeCause_now (s : State) (b : Nat) (dev : Bool) : (safeCause s b dev).now = s.now := by simp [safeCause]
@[simp] theorem clearCause_now (s : State) (b : Nat) : (clearCause s b).now = s.now := rfl
@[simp] theorem blankRegs_now (s : State) (b : Nat) : (blankRegs s b).now = s.now := rfl
@[simp] theorem ptpDrop_now (s : State) (b : Nat) : (ptpDrop s b).now = s.now := rfl
@[simp] theorem clearBlock_now (s0 : State) (b : Nat) : (clearBlock s0 b).now = s0.now := by simp [clearBlock]
@[simp] theorem domLose_now (s : State) (d : Nat) : (domLose s d).now = s.now := by simp [domLose]
@[simp] theorem domSwitchOff_now (s : State) (d : Nat) : (domSwitchOff s d).now = s.now := by simp [domSwitchOff]
@[simp] theorem domainsOff_now (s : State) : (domainsOff s).now = s.now := by simp [domainsOff]
@[simp] theorem domainsSettle_now (s : State) : (domainsSettle s).now = s.now := by simp [domainsSettle]

end Sys2Proof.Machine
end

