-- ==== Sys2Proof/Laws/Memory.lean ====
section
/-!
SUPPORT. Sparse tables, the memory window and the register table: what is read after a write, that a write leaves every other place alone, and
that every operation on the memory window keeps its canonical form.
-/
namespace Sys2Proof.Machine

/-! ### Tables -/

theorem Tbl.find_put_same {α : Type} (t : Tbl α) (k : Nat) (v : α) : (Tbl.put t k v).find k = some v := by
  induction t with
  | nil => simp [Tbl.put, Tbl.find]
  | cons e r ih =>
    obtain ⟨a, b⟩ := e
    simp only [Tbl.put]
    split
    · simp [Tbl.find]
    · split
      · simp [Tbl.find]
      · simp [Tbl.find, *]

theorem Tbl.find_put_of_ne {α : Type} (t : Tbl α) (k j : Nat) (v : α) (h : j ≠ k) : (Tbl.put t k v).find j = t.find j := by
  induction t with
  | nil => simp [Tbl.put, Tbl.find, h]
  | cons e r ih =>
    obtain ⟨a, b⟩ := e
    simp only [Tbl.put]
    split
    · simp [Tbl.find, h]
    · split
      · subst_vars; simp [Tbl.find, h]
      · simp [Tbl.find, ih]

theorem Tbl.find_del_same {α : Type} (t : Tbl α) (k : Nat) : (Tbl.del t k).find k = none := by
  induction t with
  | nil => rfl
  | cons e r ih =>
    obtain ⟨a, b⟩ := e
    by_cases h : a = k
    · simpa [Tbl.del, List.filter_cons, h] using ih
    · have hk : ¬ k = a := fun e => h e.symm
      simp only [Tbl.del, List.filter_cons, h, ne_eq, not_false_eq_true, decide_true, if_true, Tbl.find, hk, if_false]
      simpa [Tbl.del] using ih

theorem Tbl.find_del_of_ne {α : Type} (t : Tbl α) (k j : Nat) (h : j ≠ k) : (Tbl.del t k).find j = t.find j := by
  induction t with
  | nil => rfl
  | cons e r ih =>
    obtain ⟨a, b⟩ := e
    by_cases hk : a = k
    · subst hk
      simp only [Tbl.del, List.filter_cons, Tbl.find, h, if_false, ne_eq, not_true_eq_false, decide_false, Bool.false_eq_true]
      simpa [Tbl.del] using ih
    · simp only [Tbl.del, List.filter_cons, hk, ne_eq, not_false_eq_true, decide_true, if_true, Tbl.find]
      split
      · rfl
      · simpa [Tbl.del] using ih

theorem Tbl.getD_put_same {α : Type} (t : Tbl α) (k : Nat) (v d : α) : (Tbl.put t k v).getD k d = v := by
  simp [Tbl.getD, Tbl.find_put_same]

theorem Tbl.getD_put_of_ne {α : Type} (t : Tbl α) (k j : Nat) (v d : α) (h : j ≠ k) : (Tbl.put t k v).getD j d = t.getD j d := by
  simp [Tbl.getD, Tbl.find_put_of_ne _ _ _ _ h]

theorem Tbl.getD_set_same {α : Type} [DecidableEq α] (t : Tbl α) (d : α) (k : Nat) (v : α) : (Tbl.set t d k v).getD k d = v := by
  unfold Tbl.set
  split
  · simp [Tbl.getD, Tbl.find_del_same, *]
  · exact Tbl.getD_put_same _ _ _ _

theorem Tbl.getD_set_of_ne {α : Type} [DecidableEq α] (t : Tbl α) (d e : α) (k j : Nat) (v : α) (h : j ≠ k) : (Tbl.set t d k v).getD j e = t.getD j e := by
  unfold Tbl.set
  split
  · simp [Tbl.getD, Tbl.find_del_of_ne _ _ _ h]
  · exact Tbl.getD_put_of_ne _ _ _ _ _ h

/-! ### The canonical form -/

theorem Tbl.rising_iff {α : Type} (t : Tbl α) : Tbl.rising t = true ↔ t.Pairwise (fun a b => a.1 < b.1) := by
  induction t with
  | nil => simp [Tbl.rising]
  | cons e r ih =>
    cases r with
    | nil => simp [Tbl.rising]
    | cons f q =>
      simp only [Tbl.rising, Bool.and_eq_true, decide_eq_true_eq, ih, List.pairwise_cons]
      constructor
      · rintro ⟨h, h1, h2⟩
        refine ⟨fun x hx => ?_, h1, h2⟩
        rcases List.mem_cons.mp hx with rfl | hx
        · exact h
        · exact Nat.lt_trans h (h1 x hx)
      · rintro ⟨h, h1, h2⟩
        exact ⟨h f (by simp), h1, h2⟩

theorem Tbl.mem_put {α : Type} (t : Tbl α) (k : Nat) (v : α) (e : Nat × α) (h : e ∈ Tbl.put t k v) : e = (k, v) ∨ e ∈ t := by
  induction t with
  | nil => simpa [Tbl.put] using h
  | cons f r ih =>
    obtain ⟨a, b⟩ := f
    simp only [Tbl.put] at h
    split at h
    · rcases List.mem_cons.mp h with h | h
      · exact .inl h
      · exact .inr h
    · split at h
      · rcases List.mem_cons.mp h with h | h
        · exact .inl h
        · exact .inr (List.mem_cons_of_mem _ h)
      · rcases List.mem_cons.mp h with h | h
        · exact .inr (h ▸ List.mem_cons_self ..)
        · exact (ih h).imp id (List.mem_cons_of_mem _)

theorem Tbl.rising_put {α : Type} (t : Tbl α) (k : Nat) (v : α) (h : Tbl.rising t = true) : Tbl.rising (Tbl.put t k v) = true := by
  rw [Tbl.rising_iff] at *
  induction t with
  | nil => simp [Tbl.put]
  | cons f r ih =>
    obtain ⟨a, b⟩ := f
    obtain ⟨h1, h2⟩ := List.pairwise_cons.mp h
    simp only [Tbl.put]
    split
    · rename_i hk
      refine List.pairwise_cons.mpr ⟨fun x hx => ?_, h⟩
      rcases List.mem_cons.mp hx with rfl | hx
      · exact hk
      · exact Nat.lt_trans hk (h1 x hx)
    · split
      · subst_vars; exact List.pairwise_cons.mpr ⟨h1, h2⟩
      · refine List.pairwise_cons.mpr ⟨fun x hx => ?_, ih h2⟩
        rcases Tbl.mem_put _ _ _ _ hx with rfl | hx
        · exact show a < k by omega
        · exact h1 x hx

theorem Tbl.canon_filter {α : Type} [DecidableEq α] (d : Nat → α) (t : Tbl α) (p : Nat × α → Bool) (h : Tbl.canon d t = true) :
    Tbl.canon d (t.filter p) = true := by
  simp only [Tbl.canon, Bool.and_eq_true, Tbl.rising_iff, List.all_eq_true] at *
  exact ⟨h.1.filter _, fun x hx => h.2 x (List.mem_filter.mp hx).1⟩

theorem Tbl.canon_set {α : Type} [DecidableEq α] (d : Nat → α) (t : Tbl α) (k : Nat) (v : α) (h : Tbl.canon d t = true) :
    Tbl.canon d (Tbl.set t (d k) k v) = true := by
  unfold Tbl.set
  split
  · exact Tbl.canon_filter d t _ h
  · rename_i hv
    simp only [Tbl.canon, Bool.and_eq_true, List.all_eq_true, decide_eq_true_eq] at *
    refine ⟨Tbl.rising_put _ _ _ h.1, fun x hx => ?_⟩
    rcases Tbl.mem_put _ _ _ _ hx with rfl | hx
    · exact hv
    · exact h.2 x hx

/-! ### The memory window -/

theorem State.memB_setMemB_same (s : State) (a : Nat) (b : Byte) : (s.setMemB a b).memB a = b := Tbl.getD_set_same _ _ _ _

theorem State.memB_setMemB_of_ne (s : State) (a c : Nat) (b : Byte) (h : c ≠ a) : (s.setMemB a b).memB c = s.memB c :=
  Tbl.getD_set_of_ne _ _ _ _ _ _ h

/-- A write of bytes leaves every byte outside them. -/
theorem State.memB_setMem_outside (bs : List Byte) (s : State) (a c : Nat) (h : c < a ∨ a + bs.length ≤ c) : (s.setMem a bs).memB c = s.memB c := by
  induction bs generalizing s a with
  | nil => rfl
  | cons b r ih =>
    simp only [List.length_cons] at h
    rw [State.setMem, ih _ _ (by omega), State.memB_setMemB_of_ne _ _ _ _ (by omega)]

/-- Each byte written is read again. -/
theorem State.memB_setMem_inside (bs : List Byte) (s : State) (a j : Nat) (h : j < bs.length) : (s.setMem a bs).memB (a + j) = bs[j] := by
  induction bs generalizing s a j with
  | nil => simp at h
  | cons b r ih =>
    rw [State.setMem]
    cases j with
    | zero => simp [State.memB_setMem_outside _ _ _ _ (.inl (Nat.lt_succ_self a)), State.memB_setMemB_same]
    | succ j =>
      have := ih (s.setMemB a b) (a + 1) j (by simpa using h)
      rw [show a + (j + 1) = a + 1 + j by omega, this]; simp

theorem State.setMemB_memOk (s : State) (a : Nat) (b : Byte) (h : s.memOk = true) : (s.setMemB a b).memOk = true :=
  Tbl.canon_set (fun _ => (0 : Byte)) s.mem a b h

theorem State.setMem_memOk (bs : List Byte) (s : State) (a : Nat) (h : s.memOk = true) : (s.setMem a bs).memOk = true := by
  induction bs generalizing s a with
  | nil => exact h
  | cons b r ih => exact ih _ _ (State.setMemB_memOk s a b h)

/-- Clearing a region keeps the canonical form: what a domain that switches off and a node that starts do. -/
theorem Memory.wf_filter (m : List Host.Cell) (p : Host.Cell → Bool) (h : Memory.wf m = true) : Memory.wf (m.filter p) = true :=
  Tbl.canon_filter _ m p h

theorem clearMem_memOk (s : State) (a n : Nat) (h : s.memOk = true) : (clearMem s a n).memOk = true := Memory.wf_filter _ _ h

theorem domLose_memOk (s : State) (d : Nat) (h : s.memOk = true) : (domLose s d).memOk = true := by
  unfold domLose
  repeat' split
  all_goals first | exact Memory.wf_filter _ _ h | exact h

theorem State.memOk_nil (s : State) (h : s.mem = []) : s.memOk = true := by simp [State.memOk, h, Memory.wf, Tbl.canon, Tbl.rising]

theorem State.reset_memOk : State.reset.memOk = true := State.memOk_nil _ rfl

/-! ### Registers -/

theorem State.rd_wr_same (s : State) (a : Nat) (v : Word) : (s.wr a v).rd a = v := by
  unfold State.rd State.wr; exact Tbl.getD_set_same _ _ _ _

/-- The other bank's address is its own other bank's. -/
theorem swapBank_swapBank (a : Nat) : swapBank (swapBank a) = a := by
  obtain ⟨c, hc⟩ : ∃ c, c = swapBank a := ⟨_, rfl⟩
  rw [← hc]
  unfold swapBank blkOf offOf at hc
  dsimp only at hc
  unfold swapBank blkOf offOf
  dsimp only
  repeat' split at hc
  all_goals (repeat' split) <;> omega

theorem phys_phys (b : Bool) (a : Nat) : phys b (phys b a) = a := by cases b <;> simp [phys, swapBank_swapBank]

theorem phys_inj (b : Bool) (a c : Nat) (h : phys b a = phys b c) : a = c := by rw [← phys_phys b a, h, phys_phys]

theorem State.rd_wr_of_ne (s : State) (a b : Nat) (v : Word) (h : b ≠ a) : (s.wr a v).rd b = s.rd b := by
  unfold State.rd State.wr
  exact Tbl.getD_set_of_ne _ _ _ _ _ _ (fun e => h (phys_inj _ _ _ e))

/-! ### Raising a cause -/

/-- Raising a cause changes no register but its own. -/
theorem State.raise_rd_of_ne (s : State) (a n b : Nat) (h : b ≠ a) : (s.raise a n).rd b = s.rd b := by
  rcases raise_cases s a n with e | e | e | e <;> rw [e]
  · rfl
  · exact State.rd_wr_of_ne _ _ _ _ h
  · rw [State.rd, State.attend_regs, State.attend_bankSel]; exact State.rd_wr_of_ne _ _ _ _ h

end Sys2Proof.Machine
end

