-- ==== Sys2Proof/Laws/Sequencer.lean ====
section
/-!
SUPPORT. What the sequencer's shared operations do to a state in which it takes commands as they arrive.
-/
namespace Sys2Proof.Machine

/-- What a calm state is. -/
theorem State.calm_iff (s : State) : s.calm = true ↔ s.cmd.dirty = false ∧ s.cmd.queue = [] ∧ parityDone s = false := by
  simp [State.calm, and_assoc]

/-- With no mode change to judge, nothing is judged again. -/
theorem settle_of_clean (n : Nat) (s : State) (h : s.cmd.dirty = false) : settle n s = s := by
  cases n <;> simp [settle, h]

/-- With no mode change to judge and nothing queued, the sequencer waits. -/
theorem pump_of_idle (n : Nat) (s : State) (h : s.cmd.dirty = false) (hq : s.cmd.queue = []) : pump n s = s := by
  cases n <;> simp [pump, settle_of_clean _ s h, hq]

/-- A PARITY cause that is not due to clear stays. -/
theorem parityClear_of_not (s : State) (h : parityDone s = false) : parityClear s = s := by simp [parityClear, h]

/-- In a calm state the sequencer does nothing of its own. -/
theorem sequence_of_calm (s : State) (h : s.calm = true) : sequence s = s := by
  obtain ⟨hd, hq, hp⟩ := (State.calm_iff s).1 h
  rw [sequence, parityClear_of_not s hp, pump_of_idle _ s hd hq]

/-- The sequencer takes the one command that is queued. -/
theorem pump_one (n : Nat) (s : State) (c : Cmd) (h : s.cmd.dirty = false) (ha : s.cmd.applying = false) (hr : s.cmd.restarting = false)
    (hs : s.cmd.sleeping = false) (hm : s.cmd.mode ≠ .sleep) (hq : s.cmd.queue = []) :
    pump (n + 1) { s with cmd := { s.cmd with queue := [c] } } = pump n (judge s c) := by
  obtain ⟨s0, hs0⟩ : ∃ x : State, x = { s with cmd := { s.cmd with queue := [c] } } := ⟨_, rfl⟩
  have e : ({ s0 with cmd := { s0.cmd with queue := [] } } : State) = s := by subst hs0; rw [← hq]
  rw [← hs0, pump, settle_of_clean]
  · have q : s0.cmd.queue = [c] := by subst hs0; rfl
    have : (s0.cmd.applying || s0.cmd.restarting || s0.cmd.sleeping || s0.cmd.mode == .sleep) = false := by subst hs0; simp [ha, hr, hs, hm]
    simp [this, q, e]
  · subst hs0; exact h

/-- A command that is taken as it arrives is judged at once, and then the sequencer goes on. -/
theorem submit_takesNow (s : State) (src : CmdSrc) (op tag : Nat) (nodefer : Bool) (a0 a1 : Nat) (h : s.takesNow src = true)
    (hop : op % 256 ≠ 0x04) :
    submit s op tag nodefer src a0 a1 = pump 39 (judge s.numbered (s.cmdOf src op tag nodefer a0 a1)) := by
  simp only [State.takesNow, Bool.and_eq_true, Bool.not_eq_true', bne_iff_ne, ne_eq, decide_eq_true_eq] at h
  obtain ⟨⟨⟨⟨⟨⟨h1, h2⟩, hc⟩, h4⟩, h5⟩, h6⟩, h8⟩ := h
  obtain ⟨h3, h7, hp⟩ := (State.calm_iff s).1 hc
  have hd : ¬ 32 ≤ s.cmd.deferred.length := by omega
  have hs : sequence s = s := sequence_of_calm s hc
  have key : sequence { s.numbered with cmd := { s.numbered.cmd with queue := [s.cmdOf src op tag nodefer a0 a1] } } =
      pump 39 (judge s.numbered (s.cmdOf src op tag nodefer a0 a1)) := by
    rw [sequence, parityClear_of_not _ (by exact hp)]
    exact pump_one 39 s.numbered _ h3 h5 h4 h6 h2 h7
  rw [← key]
  simp [submit, h2, hs, h6, hop, queueDepth, h7, hd, State.numbered, State.cmdOf]

/-- The same of a row that names a command. -/
theorem command_takesNow (t : Nat) (src : CmdSrc) (op tag : Nat) (nodefer : Bool) (a0 a1 : Nat) (s : State)
    (h : (s.at t).takesNow src = true) (hop : op % 256 ≠ 0x04) :
    command t src op tag nodefer a0 a1 s = pump 39 (judge (s.at t).numbered ((s.at t).cmdOf src op tag nodefer a0 a1)) := by
  have h1 : canSubmit (s.at t) src = true := by
    simp only [State.takesNow, Bool.and_eq_true] at h; exact h.1.1.1.1.1.1
  rw [command, if_pos h1, submit_takesNow _ _ _ _ _ _ _ h hop]

/-- ABORT is judged at once. -/
theorem abort_takesNow (t : Nat) (src : CmdSrc) (tag : Nat) (nodefer : Bool) (a0 a1 : Nat) (s : State)
    (h : (s.at t).takesNow src = true) :
    command t src 0x04 tag nodefer a0 a1 s = sequence (judge (s.at t).numbered ((s.at t).cmdOf src 0x04 tag nodefer a0 a1)) := by
  have h1 : canSubmit (s.at t) src = true := by
    simp only [State.takesNow, Bool.and_eq_true] at h; exact h.1.1.1.1.1.1
  rw [command, if_pos h1]
  generalize s.at t = s at h
  simp only [State.takesNow, Bool.and_eq_true, Bool.not_eq_true', bne_iff_ne, ne_eq, decide_eq_true_eq] at h
  obtain ⟨⟨⟨⟨⟨⟨-, h2⟩, hc⟩, h4⟩, -⟩, h6⟩, -⟩ := h
  simp [submit, h2, sequence_of_calm s hc, h6, h4, State.numbered, State.cmdOf]

end Sys2Proof.Machine
end

