-- ==== Sys2Proof/Machine/Bch.lean ====
section
/-!
DEFINITION. The sectors of a page as the NAND device holds them: metadata, the BCH code and the spare area (R394, R395). Correction itself is seen in
the error counts that a read delivers (pageRead).
-/
namespace Sys2Proof.Machine

/-! ### GF(2¹⁴) -/

/-- The field polynomial x¹⁴ + x⁵ + x³ + x + 1, bit i for xⁱ. -/
def gfPoly : Nat := 2 ^ 14 + 2 ^ 5 + 2 ^ 3 + 2 + 1

/-- An element times α. -/
def gfTimesA (a : Nat) : Nat := if 2 ^ 13 ≤ a then (2 * a) ^^^ gfPoly else 2 * a

/-- The product of two elements: over the bits of b from the lowest, with a multiplied by α at each. -/
def gfMulGo : Nat → Nat → Nat → Nat
  | 0, _, _ => 0
  | n + 1, a, b => (if b % 2 = 1 then a else 0) ^^^ gfMulGo n (gfTimesA a) (b / 2)
def gfMul (a b : Nat) : Nat := gfMulGo 14 a b

/-- α to the power n. -/
def gfPow : Nat → Nat
  | 0 => 1
  | n + 1 => gfTimesA (gfPow n)

/-! ### The generator -/

/-- A polynomial over the field, its lowest coefficient first, times (x + r). -/
def timesRoot (r : Nat) (l : List Nat) : List Nat := List.zipWith (fun a b => a ^^^ b) (0 :: l) (l.map (gfMul r) ++ [0])

/-- The conjugates of an element: its squares until it returns. -/
def conjugates (a : Nat) : Nat → Nat → List Nat
  | 0, _ => []
  | n + 1, x => if x = a then [x] else x :: conjugates a n (gfMul x x)

/-- The minimal polynomial of an element, as bits. -/
def minPoly (a : Nat) : Nat := ofBits ((fun l => (List.range l.length).filter (fun i => l.getD i 0 != 0)) ((conjugates a 14 (gfMul a a)).foldl (fun l r => timesRoot r l) [1]))

/-- The product of two binary polynomials of which the second has fewer than n bits. -/
def polyMul : Nat → Nat → Nat → Nat
  | 0, _, _ => 0
  | n + 1, a, b => (if b % 2 = 1 then a else 0) ^^^ polyMul n (2 * a) (b / 2)

/-- The generator: the product of the minimal polynomials of α¹, α³, …, α⁷⁹, of degree 560. -/
def bchGen : Nat := (List.range 40).foldl (fun g i => polyMul 15 g (minPoly (gfPow (2 * i + 1)))) 1

/-! ### A sector -/

/-- The remainder of a message, most significant bit first, times x⁵⁶⁰: one bit enters at the top of a register of 560 bits. -/
def bchStep (g r : Nat) (b : Bool) : Nat :=
  let top := xor (bit r 559) b
  let x := (2 * r) % 2 ^ 560
  if top then x ^^^ (g % 2 ^ 560) else x

/-- The bits of bytes, most significant first. -/
def bitsMsb (l : List Byte) : List Bool := l.flatMap (fun b => (List.range 8).map (fun i => bit b.toNat (7 - i)))

/-- The 70 bytes of parity of 1,024 data bytes and 8 bytes of metadata, in the same order. -/
def bchParity (l : List Byte) : List Byte := beBytes 70 ((bitsMsb l).foldl (bchStep bchGen) 0)

/-- The 8 metadata bytes of a page of a partition (R395). -/
def metaBytes (p : Nat) (m : PageM) : List Byte := [BitVec.ofNat 8 m.kind, BitVec.ofNat 8 p] ++ leBytes 2 m.blk ++ leBytes 4 m.wseq

/-- The spare area of a page, up to its last used byte: the factory marker in bytes 0 and 1, which is never written, and from 2 + 78s on the metadata and
the parity of sector s. An erased page has 0xFF throughout, but for the marker of a bad block. -/
def spareArea (s : State) (p page : Nat) : List Byte :=
  let lb := page / blkPages s
  let mark : Byte := match physOf s p lb with
    | some b => if s.nand.marked.contains b && (page % blkPages s == 0 || page % blkPages s + 1 == blkPages s) then 0 else 0xFF
    | none => 0xFF
  mark :: 0xFF :: (match s.nand.pages.find (pageKey p page) with
    | some m => (List.range (pageLen s / 1024)).flatMap (fun k =>
        metaBytes p m ++ bchParity (nandBytes s p (page * pageLen s + 1024 * k) 1024 ++ metaBytes p m))
    | none => List.replicate (78 * (pageLen s / 1024)) 0xFF)

end Sys2Proof.Machine
end

