-- ==== Sys2Proof/Machine/Pins.lean ====
section
/-!
DEFINITION. What the output balls carry, as functions of the state: the levels of FAULT_N, HRDY, OUT_EN, HB_OUT, the grant lines, NAND_WP_N and
VC_OUT, and the bits of the audio sides. CLKOUT stands in Waves (outPin).
-/
namespace Sys2Proof.Machine

/-! ### Levels (R45, R50, R62, R351, R352, R356, R420, R425, R429, R435) -/

/-- The device sleeps: only PD0 runs, and an output that no rule holds is high impedance (R420). -/
def asleep (s : State) : Bool := s.cmd.mode == .sleep

/-- FAULT_N: open drain, low in SAFE, released in every other mode and while RESET_N is low (R45, R425). -/
def faultN (s : State) : PinLevel := if s.live && s.cmd.mode == .safe then .low else .highZ

/-- A CMOS output that is driven while the device runs; high impedance under reset and in SLEEP (R420, R425). -/
def driven (s : State) (high : Bool) : PinLevel := if !s.live || asleep s then .highZ else if high then .high else .low

/-- HRDY (R62, R60). -/
def hrdyPin (s : State) : PinLevel := driven s (hrdyHigh s)

/-- An output of the twin pair that is low in SLEEP and in a variant without twin (R50, R420). -/
def twinOut (s : State) (high : Bool) : PinLevel :=
  if !s.live then .highZ else if high && s.variant.twin && !asleep s then .high else .low

/-- OUT_EN: high while the unit holds the solo roles, which it does not before its first successful APPLY (R356, Table 2-17). -/
def outEn (s : State) : PinLevel := twinOut s (soloRole s)

/-- The high time of a symbol on HB_OUT in ns (Table 14-4), and the pin `ns` after the symbol's rising edge. -/
def HbSym.highNs : HbSym → Nat
  | .fail => 80000
  | .yield => 60000
  | .diverge => 40000
  | .ok => 20000
  | .none => 0
def hbOut (s : State) (ns : Nat) : PinLevel := twinOut s (decide (ns % 100000 < s.twin.hb.highNs))

/-- The high time of a symbol on a grant line in ns (R352), and ARB_GRANTu `ns` after the symbol's rising edge, on a device that runs Gander. -/
def GSym.highNs : GSym → Nat
  | .grant => 7500
  | .resync => 5000
  | .standby => 2500
  | .lost => 0
def arbGrant (s : State) (u ns : Nat) : PinLevel :=
  driven s (s.chip.straps.arbEn && decide (ns % 10000 < (if u = 0 then s.gander.grant0 else s.gander.grant1).highNs))

/-- NAND_WP_N: low whenever the NAND manager is not running (R425, R435). -/
def nandWpN (s : State) : PinLevel := if s.domOn 1 && !asleep s then .high else .low

/-- NAND_CE1_N where one chip enable is used (Table 2-17). -/
def nandCe1Idle (s : State) : PinLevel := driven s true

/-- VC_OUT as a fraction of VDDIO8: from 0.05 at code 0 to 0.95 at code 65,535; none while it is high impedance (R244, R429). -/
def vcOut (s : State) : Option (Nat × Nat) :=
  if s.blkOn bAPORT && s.flag APORT.VC_CTL APORT.VC_CTL_EN then
    some (65535 + 18 * s.fld APORT.VC_CODE APORT.VC_CODE_CODE, 20 * 65535)
  else none

/-! ### TDM, I2S and left-justified sides (R244 to R246) -/

/-- Bit clocks of a frame, and from the frame start to slot 0. -/
def frameBits (s : State) (x : Nat) : Nat := sideSlots s x * slotBits s x
def slotDelay (s : State) (x : Nat) : Nat :=
  let f := sideFmt s x APORT.SIDE_FMT_FORMAT
  if f = 1 then 1 else if f = 2 then 0 else sideFmt s x APORT.SIDE_FMT_DELAY

/-- A side's transmit pins are driven: its port and domain are there, EN is 1, and its configuration has passed (R243, R245). -/
def sideDrives (s : State) (x : Nat) : Bool :=
  s.blkOn bAPORT && sideHere s x && (sideOf s x).st != .off && (sideOf s x).st != .cfgErr

/-- DATA of a TDM transmit side at bit clock k of a frame that carries `cur`, one sample for each slot, after a frame that carried `prev`: slot j begins
j × SLOT_BITS + DELAY after the frame start, most significant bit first, with 0 after the data bits; a slot outside the mask is high impedance with
TRI_INACTIVE. Outside RUN the data is muted. -/
def tdmData (s : State) (x : Nat) (prev cur : List Smp) (k : Nat) : PinLevel :=
  let n := Nat.max 1 (frameBits s x)
  let d := slotDelay s x
  let q := (k + n - d) % n
  let j := q / Nat.max 1 (slotBits s x)
  let i := q % Nat.max 1 (slotBits s x)
  let p := (if k < d then prev else cur).getD j smpSilence
  if !sideDrives s x then .highZ
  else if !bit (maskEff s x (sideOf s x).maskAct) j && sideFmt s x APORT.SIDE_FMT_TRI_INACTIVE == 1 then .highZ
  else if (sideOf s x).st == .run && decide (i < dataBits s x) && bit p.v (31 - i) then .high
  else .low

/-- The frame starts at a rising edge of FS (R244). -/
def fsRises (s : State) (x : Nat) : Bool :=
  let f := sideFmt s x APORT.SIDE_FMT_FORMAT
  if f = 1 then false else if f = 2 then true else sideFmt s x APORT.SIDE_FMT_FS_POL == 0

/-- Bit clocks for which FS of a master side keeps the level that starts the frame: one, a slot, or half a frame. -/
def fsWidth (s : State) (x : Nat) : Nat :=
  let w := sideFmt s x APORT.SIDE_FMT_FS_WIDTH
  if sideFmt s x APORT.SIDE_FMT_FORMAT ≠ 0 ∨ 2 ≤ w then frameBits s x / 2 else if w = 1 then slotBits s x else 1

/-- FS of a master side at bit clock k of a frame; idle outside RUN, at the level that does not start a frame (R264). A slave side drives none. -/
def fsPin (s : State) (x k : Nat) : PinLevel :=
  if !(sideDrives s x && sideMaster s x) then .highZ
  else
    let on := (sideOf s x).st == .run && decide (k < fsWidth s x)
    if on == fsRises s x then .high else .low

/-- BCLK of a master side in the first half of a bit clock, which the driving edge begins, or in the second: with BCLK_EDGE 0 data and FS change on its
falling edge. Outside RUN it is idle. -/
def bclkPin (s : State) (x : Nat) (second : Bool) : PinLevel :=
  if !(sideDrives s x && sideMaster s x) then .highZ
  else if (sideOf s x).st == .run && second == (sideFmt s x APORT.SIDE_FMT_BCLK_EDGE == 0) then .high else .low

/-! ### AES3 and MADI sides (R266, R269) -/

/-- Time slots 4 to 31 of a subframe, in the order in which the line carries them: 24 audio bits from the least significant one, then V, U, C, and P,
which makes their number of ones even (PRESUMED: AES3 and AES10, which the spec names; log entry 24). -/
def subframe (p : Smp) : List Bool :=
  let l := p.lab.getD 0
  let a := (List.range 24).map (fun i => bit p.v (8 + i)) ++ [bit l 0, bit l 1, bit l 2]
  a ++ [a.foldl xor false]

/-- The preamble of an AES3 subframe: Z at a block start and otherwise X in the first, Y in the second. -/
inductive Preamble
  | x | y | z
deriving DecidableEq, Repr
def aesPreamble (second : Bool) (p : Smp) : Preamble := if second then .y else if bit (p.lab.getD 0) 3 then .z else .x

/-- The subframes of the frame of the present block that an AES3 or MADI side sends; none outside RUN. -/
def sideSubframes (s : State) (x i : Nat) : List (List Bool) :=
  if (sideOf s x).st = .run then (((sideOf s x).out.getD i [])).map subframe else []

end Sys2Proof.Machine
end

