-- ==== Sys2Proof/WellFormed.lean ====
section
/-!
DEFINITION. Which commands are well formed: every index below the count of what it names, every register value and argument within
32 bits, every tag and selector within its field. The meanings do not rely on it: they test what they need.
-/
namespace Sys2Proof

/-- The well-formed commands. -/
def Instr.wf (i : Instr) : Bool :=
  match i with
  | .powerUp _ _ _ _ => true
  | .resetNFall _ _ => true
  | .resetNRise _ _ => true
  | .brownoutAssert _ => true
  | .brownoutRelease _ _ => true
  | .automaticBoot _ => true
  | .load _ _ tag _ arg0 arg1 => decide (tag < 256) && decide (arg0 < 4294967296) && decide (arg1 < 4294967296)
  | .apply _ _ tag _ arg0 arg1 => decide (tag < 256) && decide (arg0 < 4294967296) && decide (arg1 < 4294967296)
  | .commit _ _ tag _ arg0 arg1 => decide (tag < 256) && decide (arg0 < 4294967296) && decide (arg1 < 4294967296)
  | .abort _ _ tag _ arg0 arg1 => decide (tag < 256) && decide (arg0 < 4294967296) && decide (arg1 < 4294967296)
  | .start _ _ tag _ arg0 arg1 => decide (tag < 256) && decide (arg0 < 4294967296) && decide (arg1 < 4294967296)
  | .stop _ _ tag _ arg0 arg1 => decide (tag < 256) && decide (arg0 < 4294967296) && decide (arg1 < 4294967296)
  | .mute _ _ tag _ arg0 arg1 => decide (tag < 256) && decide (arg0 < 4294967296) && decide (arg1 < 4294967296)
  | .unmute _ _ tag _ arg0 arg1 => decide (tag < 256) && decide (arg0 < 4294967296) && decide (arg1 < 4294967296)
  | .selectRef _ _ tag _ arg0 arg1 => decide (tag < 256) && decide (arg0 < 4294967296) && decide (arg1 < 4294967296)
  | .stepPhase _ _ tag _ arg0 arg1 => decide (tag < 256) && decide (arg0 < 4294967296) && decide (arg1 < 4294967296)
  | .takeover _ _ tag _ arg0 arg1 => decide (tag < 256) && decide (arg0 < 4294967296) && decide (arg1 < 4294967296)
  | .yield _ _ tag _ arg0 arg1 => decide (tag < 256) && decide (arg0 < 4294967296) && decide (arg1 < 4294967296)
  | .sleep _ _ tag _ arg0 arg1 => decide (tag < 256) && decide (arg0 < 4294967296) && decide (arg1 < 4294967296)
  | .wake _ _ tag _ arg0 arg1 => decide (tag < 256) && decide (arg0 < 4294967296) && decide (arg1 < 4294967296)
  | .snapshot _ _ tag _ arg0 arg1 => decide (tag < 256) && decide (arg0 < 4294967296) && decide (arg1 < 4294967296)
  | .logFreeze _ _ tag _ arg0 arg1 => decide (tag < 256) && decide (arg0 < 4294967296) && decide (arg1 < 4294967296)
  | .logThaw _ _ tag _ arg0 arg1 => decide (tag < 256) && decide (arg0 < 4294967296) && decide (arg1 < 4294967296)
  | .scrub _ _ tag _ arg0 arg1 => decide (tag < 256) && decide (arg0 < 4294967296) && decide (arg1 < 4294967296)
  | .resetBlock _ _ tag _ arg0 arg1 => decide (tag < 256) && decide (arg0 < 4294967296) && decide (arg1 < 4294967296)
  | .commitEpoch _ => true
  | .bankCopyDone _ => true
  | .journalImageStored _ _ => true
  | .startUnlockedTimeout _ => true
  | .lockstepMismatch _ => true
  | .controlCoreRestartDone _ => true
  | .lockstepCauseExpiry _ => true
  | .wakeInLevel _ _ => true
  | .temperatureWake _ _ => true
  | .linkEnergyWake _ => true
  | .wakePatternMatch _ _ => true
  | .wakeDomainsUp _ => true
  | .spiTransactionStart _ opcode addr => decide (opcode < 256) && decide (addr < 4294967296)
  | .spiTransactionEnd _ => true
  | .write _ words => !words.isEmpty && words.all (fun w => decide (w < 4294967296))
  | .read _ n => decide (1 ≤ n)
  | .readStatus _ => true
  | .readId _ => true
  | .writeWin _ words => !words.isEmpty && words.all (fun w => decide (w < 4294967296))
  | .readWin _ n => decide (1 ≤ n)
  | .bar0Read _ addr n firstBe lastBe => decide (addr < 67108864) && decide (n ≤ 1024) && decide (firstBe < 16) && decide (lastBe < 16)
  | .bar0Write _ addr firstBe lastBe words => decide (addr < 67108864) && decide (firstBe < 16) && decide (lastBe < 16) && !words.isEmpty && words.all (fun w => decide (w < 4294967296))
  | .bar2Access _ _ addr n _ => decide (addr < 67108864) && decide (n ≤ 1024)
  | .registerWrite _ _ addr be value => decide (addr < 67108864) && addr % 4 == 0 && decide (be < 16) && decide (value < 4294967296)
  | .aliasWrite _ _ addr be value => decide (addr < 67108864) && addr % 4 == 0 && decide (0x40000 ≤ addr % 0x100000) && decide (be < 16) && decide (value < 4294967296)
  | .accessComplete _ _ => true
  | .accessTimeout _ _ => true
  | .unlockKeyWrite _ _ value => decide (value < 4294967296)
  | .unlockLapse _ _ => true
  | .attnSummaryRead _ _ => true
  | .cmdDoneRead _ _ => true
  | .mailboxLastWordRead _ _ blk => decide (blk < 19)
  | .mailboxTimeout _ _ blk => decide (blk < 19)
  | .parityScan _ _ => true
  | .macFrameReceived _ port _ _ => decide (port < 3)
  | .pauseExpiry _ port queue => decide (port < 3) && decide (queue < 8)
  | .linkUp _ port => decide (port < 3)
  | .linkDown _ port _ _ _ _ => decide (port < 3)
  | .rateChanged _ _ port value => decide (port < 3) && decide (value < 4294967296)
  | .gateIntervalBoundary _ port => decide (port < 3)
  | .txFrameStart _ port _ => decide (port < 3)
  | .streamLaunch _ port entry => decide (port < 3) && decide (entry < 1024)
  | .txUnderrun _ port _ => decide (port < 3)
  | .timestampFifoPop _ _ port tag => decide (port < 3) && decide (tag < 256)
  | .macCounterRead _ _ port sel tag => decide (port < 3) && decide (sel < 65536) && decide (tag < 256)
  | .mdioWrite _ _ value => decide (value < 4294967296)
  | .mdioRead _ _ value => decide (value < 4294967296)
  | .mdioAddress _ _ value => decide (value < 4294967296)
  | .mdioReadIncrement _ _ value => decide (value < 4294967296)
  | .mdioFrameEnd _ _ => true
  | .streamPacketBuild _ entry => decide (entry < 1024)
  | .killClear _ _ _ k bits => decide (k < 32) && decide (bits < 4294967296)
  | .rxSampleReadout _ entry => decide (entry < 1024)
  | .rxLockTimeout _ entry => decide (entry < 1024)
  | .pathLiveTimeout _ entry => decide (entry < 1024)
  | .policerToken _ _ _ port => decide (port < 3)
  | .stxCounterRead _ _ sel tag => decide (sel < 65536) && decide (tag < 256)
  | .srxCounterRead _ _ sel tag => decide (sel < 65536) && decide (tag < 256)
  | .bellwetherEvaluation _ _ _ => true
  | .ffoUpdate _ _ => true
  | .waitToRestoreExpiry _ slot => decide (slot < 16)
  | .refLossTimeout _ slot => decide (slot < 16)
  | .refPinEdge _ pin => decide (pin < 3)
  | .ptpMessageReceived _ inst _ lane _ _ _ => decide (inst < 6) && decide (lane < 8)
  | .ptpMessageInterval _ inst _ => decide (inst < 6)
  | .ptpAnnounceTimeout _ inst => decide (inst < 6)
  | .ptpRestart _ _ inst reg value => decide (inst < 6) && decide (reg < 2) && decide (value < 4294967296)
  | .pullComplete _ => true
  | .phaseStepAtOnce _ => true
  | .secLoadArm _ _ value => decide (value < 4294967296)
  | .secLoadApply _ => true
  | .refCfgWrite _ _ slot value => decide (slot < 16) && decide (value < 4294967296)
  | .fpgAlignRequest _ _ k value => decide (k < 4) && decide (value < 4294967296)
  | .framePulse _ k => decide (k < 4)
  | .timeMailboxRead _ _ sel tag => decide (sel < 65536) && decide (tag < 256)
  | .ptpDatasetRead _ _ sel tag => decide (sel < 65536) && decide (tag < 256)
  | .frequencyCorrectionUpdate _ _ => true
  | .msyUpdate _ _ m value => decide (m < 4) && decide (value < 4294967296)
  | .msyEnableWrite _ _ m value => decide (m < 4) && decide (value < 4294967296)
  | .ditherSeedLoad _ => true
  | .synthLock _ synth _ => decide (synth < 5)
  | .synthLossOfLock _ synth _ => decide (synth < 5)
  | .ssyCtlWrite _ _ value => decide (value < 4294967296)
  | .spreadPeriodStart _ => true
  | .clkoutConfigWrite _ _ _ reg value => decide (reg < 3) && decide (value < 4294967296)
  | .syncArm _ _ value => decide (value < 4294967296)
  | .syncInEdge _ => true
  | .sideConfigWrite _ _ side reg value => decide (side < 88) && decide (reg < 4) && decide (value < 4294967296)
  | .maskWrite _ _ side value => decide (side < 88) && decide (value < 4294967296)
  | .portBlockBoundary _ side _ => decide (side < 88)
  | .portFault _ side _ => decide (side < 88)
  | .portAnchor _ side _ _ => decide (side < 88)
  | .aesLock _ p _ => decide (p < 8)
  | .aesCsBlockEnd _ p _ => decide (p < 8)
  | .madiLock _ p _ => decide (p < 4)
  | .outGainWrite _ _ x value => decide (x < 1296) && decide (value < 4294967296)
  | .zeroCrossingApply _ x _ => decide (x < 1296)
  | .zeroCrossingTimeout _ x => decide (x < 1296)
  | .nodeRelease _ node => decide (node < 1024)
  | .bundleIssue _ tile _ _ => decide (tile < 32)
  | .programInterrupt _ tile => decide (tile < 32)
  | .tileTimerExpiry _ tile => decide (tile < 32)
  | .transferComplete _ tile node ch => decide (tile < 32) && decide (node < 1024) && decide (ch < 4)
  | .deadlineMiss _ tile => decide (tile < 32)
  | .preemptionDeferExpiry _ tile => decide (tile < 32)
  | .tileReplaced _ => true
  | .cwApply _ _ value => decide (value < 4294967296)
  | .tileLoadRead _ _ tile => decide (tile < 32)
  | .ringTailWrite _ _ ring value => decide (ring < 256) && decide (value < 4294967296)
  | .ringEnable _ _ ring value => decide (ring < 256) && decide (value < 4294967296)
  | .ringDisable _ _ ring value => decide (ring < 256) && decide (value < 4294967296)
  | .extractionBlock _ ring _ => decide (ring < 256)
  | .injectionBlockCheck _ ring => decide (ring < 256)
  | .injectionDeadline _ ring => decide (ring < 256)
  | .dmaReadCompletion _ ring _ _ addr _ => decide (ring < 256) && decide (addr < 18446744073709551616)
  | .rxRingFrameWrite _ ring _ => decide (ring < 256)
  | .txRingFrameFetch _ ring _ _ _ => decide (ring < 256)
  | .commandRingFetch _ ring _ => decide (ring < 256)
  | .msixCoalesceTimeout _ ring => decide (ring < 256)
  | .msixUnmask _ _ vector value => decide (vector < 64) && decide (value < 4294967296)
  | .pcieLinkLost _ _ => true
  | .busMasterOff _ _ => true
  | .pcieFlr _ => true
  | .dmaCounterRead _ _ sel tag => decide (sel < 65536) && decide (tag < 256)
  | .twinHeartbeatTx _ => true
  | .twinHeartbeatRx _ lane _ => decide (lane < 2)
  | .peerSilenceTimeout _ => true
  | .twinTimeAverage _ _ => true
  | .twinLaneDown _ lane => decide (lane < 2)
  | .helloTx _ => true
  | .helloReceived _ _ => true
  | .mirrorItemReceived _ _ _ => true
  | .digestReceived _ _ => true
  | .digestTimeout _ => true
  | .checkIndicatorExpiry _ ind => decide (ind < 9)
  | .hbSymbol _ => true
  | .ganderSymbolRecognised _ _ _ => true
  | .ganderLostTimeout _ => true
  | .arbHbSymbol _ input _ => decide (input < 2)
  | .arbInputSilent _ input => decide (input < 2)
  | .ganderDecision _ => true
  | .resyncStart _ => true
  | .resyncSnapshot _ _ => true
  | .resyncInstallDone _ _ => true
  | .resyncLimitExpiry _ => true
  | .rejoin _ => true
  | .stateReset _ _ value => decide (value < 4294967296)
  | .twinForceWrite _ _ value => decide (value < 4294967296)
  | .twinMailboxRead _ _ sel tag => decide (sel < 65536) && decide (tag < 256)
  | .laneHelloTx _ lane => decide (lane < 8)
  | .laneHelloReceived _ lane _ => decide (lane < 8)
  | .laneHelloTimeout _ lane => decide (lane < 8)
  | .ubleyBlockLockLoss _ lane => decide (lane < 8)
  | .linkStateTx _ => true
  | .linkStateRecord _ lane _ => decide (lane < 8)
  | .fabricFormTimer _ => true
  | .form _ _ value => decide (value < 4294967296)
  | .routeRebuild _ => true
  | .laneDelayExchange _ lane _ _ => decide (lane < 8)
  | .fabricTimeTx _ => true
  | .fabricTimeMessage _ lane _ _ _ => decide (lane < 8)
  | .cellSend _ flow => decide (flow < 256)
  | .cellReceived _ lane _ => decide (lane < 8)
  | .fabricSampleReadout _ flow => decide (flow < 256)
  | .fabricFlowWrite _ _ flow value => decide (flow < 256) && decide (value < 4294967296)
  | .fabricConfigReport _ member _ => decide (member < 64)
  | .fabricAgreeTimeout _ => true
  | .fabMailboxRead _ _ sel tag => decide (sel < 65536) && decide (tag < 256)
  | .eventRecord _ _ => true
  | .logPageTimer _ => true
  | .nandOpComplete _ _ => true
  | .nandOpTimeout _ _ => true
  | .mediumRetry _ => true
  | .mediumRetryEnd _ _ => true
  | .patrolRead _ _ => true
  | .xferRead _ _ value => decide (value < 4294967296)
  | .xferProgram _ _ value => decide (value < 4294967296)
  | .xferComplete _ _ => true
  | .partitionErased _ _ value => decide (value < 4294967296)
  | .nandFormatted _ _ value => decide (value < 4294967296)
  | .storeCounterRead _ _ sel tag => decide (sel < 65536) && decide (tag < 256)
  | .logSummary _ _ tag => decide (tag < 256)
  | .logLiveRead _ _ tag => decide (tag < 256)
  | .snapOpen _ _ tag => decide (tag < 256)
  | .snapNext _ _ tag => decide (tag < 256)
  | .snapFbNext _ _ tag => decide (tag < 256)
  | .snapClose _ _ tag => decide (tag < 256)
  | .snapTimeout _ _ => true
  | .opsecTick _ => true
  | .domainRequestWrite _ _ value => decide (value < 4294967296)
  | .domainForceWrite _ _ value => decide (value < 4294967296)
  | .domainUp _ domain => decide (domain < 12)
  | .temperatureMeasure _ _ => true
  | .pwrOvertemp _ _ => true
  | .mailboxReplyStored _ _ blk => decide (blk < 19)
  | .twinLaneUp _ lane => decide (lane < 2)
  | .takeoverTimeout _ => true
  | .yieldTimeout _ => true
  | .aesUnlock _ p => decide (p < 8)
  | .madiUnlock _ p => decide (p < 4)
  | .portClockReturns _ side => decide (side < 88)
  | .dmaReadTimeout _ ring _ addr => decide (ring < 256) && decide (addr < 18446744073709551616)
  | .pcieLinkUp _ _ _ _ _ _ _ => true
  | .vddAonLost _ => true
  | .fecCodeword _ port _ _ => decide (port < 3)

end Sys2Proof
end

