-- ==== Sys2Proof/Tests/Slice0.lean ====
section
/-!
SUPPORT. Tests of the model: ill-formed commands, worked examples of the spec, and for every statement with hypotheses a witness of the hypotheses of
each of its clauses.
-/
open Sys2Proof Sys2Proof.Machine

-- One theorem at a time: evaluating many in parallel would take a thread each.
set_option Elab.async false

/-! ### States -/

/-- Every domain on. -/
def Tests.up : State := { State.reset with pwr := { State.reset.pwr with on := 4095 } }

/-- The device in a mode, every domain on. -/
def Tests.inMode (m : Mode) : State := { Tests.up with cmd := { Tests.up.cmd with mode := m } }

/-- A unit of a twin pair in RUN, in a role, its lanes up and Gander heard. -/
def Tests.pair (r : Role) : State :=
  let s := (Tests.inMode .run).wr TWIN.TWIN_FORCE 1
  { s with twin := { s.twin with role := r, lanes := 3, gander := .grant } }

/-- A medium in use. -/
def Tests.medium : State :=
  let s := Tests.inMode .run
  { s with nand := { s.nand with present := true, ready := true, gbit := 2, blocks := 2048 } }

/-- A device asleep, with the sources enabled that always-on state holds. -/
def Tests.asleep (en : Nat) : State :=
  let s := Tests.up
  { s with cmd := { s.cmd with mode := .sleep }, pwr := { s.pwr with on := 1 }, aon := { s.aon with wakeEn := en } }

/-- The non-zero words of a container without signature, with their indices: one flow from a TDM input to a transmit stream, one from a receive stream. -/
def Tests.containerA : List (Nat × Nat) := [
  (0, 0x5A394346), (1, 0x400001), (2, 0x2B4), (3, 0x70FFF), (4, 0x1234), (5, 0x55), (15, 0x18E5F41F), (16, 0x1), (17, 0xB0), (18, 0x20),
  (19, 0xF461CEAD), (20, 0x2), (21, 0xD0), (22, 0x40), (23, 0x470A5A8E), (24, 0x3), (25, 0x110), (26, 0xC), (27, 0x930813CC), (28, 0x4),
  (29, 0x120), (30, 0x24), (31, 0x6FA5FF8D), (32, 0x5), (33, 0x150), (34, 0x90), (35, 0xBA8EDF7B), (36, 0x6), (37, 0x1E0), (38, 0x64),
  (39, 0xF0439B75), (40, 0x8), (41, 0x250), (42, 0x64), (43, 0x9353054C), (44, 0x7), (45, 0x1), (46, 0x10), (48, 0xAAAAAAAA),
  (49, 0xAAAAAAAA), (50, 0xAAAAAAAA), (51, 0xAAAAAAAA), (54, 0x5A01), (68, 0x10002)]

/-- The rest of them. -/
def Tests.containerB : List (Nat × Nat) := [
  (69, 0x210), (72, 0x10004), (73, 0x100), (74, 0x3A), (75, 0x1000A), (76, 0x110C), (77, 0x10), (78, 0x1000A), (79, 0x104C), (80, 0x8),
  (84, 0x3010000), (85, 0x40), (86, 0x4049), (88, 0x30), (102, 0x1000014), (103, 0x40), (104, 0x104049), (120, 0x1), (121, 0x10003),
  (122, 0x400040), (123, 0x2710), (124, 0x110), (125, 0x10001000), (126, 0x180), (127, 0x24), (128, 0x40), (148, 0x3), (149, 0x1000004),
  (150, 0x20000), (152, 0x20), (153, 0x16E360), (154, 0xFFFF), (157, 0x601000A), (158, 0x30000), (160, 0x20), (161, 0x61A80), (162, 0xFFFF),
  (165, 0x6000B), (166, 0x140003), (168, 0x40), (169, 0xF1B30), (170, 0xA)]

/-- A device in LOAD that holds the container. -/
def Tests.loaded : State :=
  let s := { Tests.inMode .load with pwr := { (Tests.inMode .load).pwr with on := 0xC7 } }
  let bytes := (Tests.containerA ++ Tests.containerB).flatMap (fun e => (List.range 4).map (fun k => (4 * e.1 + k, BitVec.ofNat 8 (e.2 / 2 ^ (8 * k)))))
  { s with mem := bytes.filter (fun c => decide (c.2 ≠ 0)), cmd := { s.cmd with loading := some ⟨5, 692, false, .boot, 0, none, 0, [(0, 692)], []⟩ } }

/-- A node on tile 0, and a placement with that node alone. -/
def Tests.node : NodeP :=
  { id := 5, kernel := 0x8001, nin := 1, nout := 1, cycles := 100, block := 16, rate := 1, unifiedOnly := false, xmem := 64, ymem := 64, pmem := 64
    shared := 0, params := [], group := 0, inBase := 0x1000, outBase := 0x1000, tile := 0, sharedOff := 0 }
def Tests.placed : Placed :=
  { configId := 0x55, policyId := 0, buildId := 0, fwVersion := 0, signed := false, anchored := false, parityLo := 0, parityHi := 0, loadLimit := 90
    family := 0, maxSpread := 20, spares := [], nodes := [Tests.node], flows := [], streams := [], bufs := [], caps := [], progs := [], rings := []
    images := [], policy := [], tileMode := [(0, .split)], hashTail := [], hash := 0 }

/-- The device in RUN with that placement in force. -/
def Tests.running : State :=
  let s := Tests.inMode .run
  { s with place := { s.place with now := some Tests.placed } }

/-- A context at the first bundle of a program, and an invocation of the node of `Tests.placed`. -/
def Tests.ctx : Ctx :=
  { pc := 0x20000, n := 0, d := [7, 3, 2, 9, 5, 6, 0, 0, 0, 0, 0, 0, 0, 0, 0, 0], p := [16, 0, 0, 0, 0, 0, 0, 0], m := List.replicate 8 0
    l := List.replicate 8 0, a := [1, 2, 3, 4, 5, 6, 7, 8], ax := List.replicate 8 0, tsw := 0, ldepth := 0, lc := [0, 0, 0, 0], ls := [0, 0, 0, 0]
    le := [0, 0, 0, 0], ipc := 0, itsw := 0, ivec := 0x20100, imask := 63, ipend := 0, isp := 0, lr := 0, cyc := 0, ssel := 0, timer := 0, pend := []
    slot := 0, target := none, ending := false, macs := [], accs := [], tsws := [], deferred := 0, line := 2 ^ 18, lastPair := false, cached := none, waitx := 0 }
def Tests.inv (c : Ctx) : Inv := ⟨5, 0, 0, 1000 * 2 ^ 56, some c⟩

/-- Tile 0 runs that invocation; the bundle at its address is w; tile 9 is a free spare and no twin watches. -/
def Tests.tile (c : Ctx) (w : Nat) : State :=
  let s := Tests.running
  { s with mem := [], cmd := { s.cmd with resetting := [bTWIN] }, place := { s.place with freeSpares := [9] }
           dsp := { s.dsp with tiles := [(0, { TileS.init with st := .run, cur := some (Tests.inv c) })]
                               nodes := [(5, { NodeS.init with ybase := 0x10000, pbase := 0x20000 })] } }.setMem (tileBase 0 + c.pc) (leBytes 8 w)

/-! ### Ill-formed commands, one for each check, and their well-formed neighbours -/

theorem test_wf_refuses_host :
    ([.spiTransactionStart 0 256 0, .spiTransactionStart 0 2 4294967296, .write 0 [], .write 0 [4294967296], .read 0 0,
      .bar0Read 0 67108864 1 15 15, .bar0Read 0 0 1025 15 15, .bar0Read 0 0 1 16 15, .bar0Read 0 0 1 15 16, .registerWrite 0 .spi 2 15 0,
      .registerWrite 0 .spi 0 16 0, .registerWrite 0 .spi 0 15 4294967296, .aliasWrite 0 .spi 0x3FFFC 15 0, .mailboxLastWordRead 0 .spi 19,
      .macCounterRead 0 .spi 0 65536 0, .macCounterRead 0 .spi 0 0 256] : List Instr).all (fun i => !i.wf) = true := by decide

theorem test_wf_refuses_rows :
    ([.load 0 .spi 256 false 1 0, .load 0 .spi 0 false 4294967296 0, .load 0 .spi 0 false 1 4294967296, .domainUp 0 12, .macFrameReceived 0 3 false [],
      .pauseExpiry 0 0 8, .streamLaunch 0 0 1024, .killClear 0 .spi true 32 0, .killClear 0 .spi true 0 4294967296, .waitToRestoreExpiry 0 16,
      .refPinEdge 0 3, .ptpRestart 0 .spi 6 0 0, .ptpRestart 0 .spi 0 2 0, .fpgAlignRequest 0 .spi 4 0, .msyUpdate 0 .spi 4 0, .synthLock 0 5 [],
      .clkoutConfigWrite 0 .spi 0 3 0, .sideConfigWrite 0 .spi 88 0 0, .sideConfigWrite 0 .spi 0 4 0, .aesLock 0 8 0, .madiLock 0 4 0,
      .outGainWrite 0 .spi 1296 0] : List Instr).all (fun i => !i.wf) = true := by decide

theorem test_wf_refuses_rest :
    ([.nodeRelease 0 1024, .bundleIssue 0 32 0 false, .transferComplete 0 0 0 4, .ringTailWrite 0 .spi 256 0, .msixUnmask 0 .spi 64 0,
      .dmaReadCompletion 0 0 true true 18446744073709551616 [], .twinHeartbeatRx 0 2 ⟨0, 0, 0, 0, 0, 0, false⟩, .checkIndicatorExpiry 0 9,
      .arbHbSymbol 0 2 0, .laneHelloTx 0 8, .cellSend 0 256, .fabricConfigReport 0 64 (.configId 0)] : List Instr).all (fun i => !i.wf) = true := by decide

theorem test_wf_accepts :
    ([.spiTransactionStart 0 255 4294967295, .write 0 [4294967295], .read 0 1, .bar0Read 0 67108863 1024 15 15, .registerWrite 0 .spi 4 15 4294967295,
      .aliasWrite 0 .pcie 0x40000 15 0, .load 0 .spi 255 true 4294967295 4294967295, .domainUp 0 11, .outGainWrite 0 .pcie 1295 0, .nodeRelease 0 1023,
      .transferComplete 0 31 0 3, .cellSend 0 255, .refPinEdge 0 2, .synthLock 0 4 []] : List Instr).all (fun i => i.wf) = true := by decide

/-! ### Worked examples of the spec: each expected value stands in an "Example:" of the chapter named -/

/-- Chapter 12: the bundle of the FIR inner loop. -/
theorem test_fir_bundle : bundleOf 0x040824D1080C0000 =
    some ⟨⟨1, false, 0, 0, 4⟩, ⟨1, false, 1, 1, 5⟩, .ld2 0 8 0 0 true true, none, .nop⟩ := by decide +kernel

/-- Chapter 12: 600 full-scale products without SAT: the sum wraps once, at the 512th. -/
theorem test_accumulator_wraps :
    ((List.range 511).foldl (fun (r : AccR) _ => accOp 1 false r.a r.ax (2 ^ 62)) ⟨0, 0, false, false⟩ = ⟨511 * 2 ^ 62, 0, false, false⟩) ∧
    accOp 1 false (511 * 2 ^ 62) 0 (2 ^ 62) = ⟨-512 * 2 ^ 62, 1, true, false⟩ ∧
    (List.range 600).foldl (fun (r : AccR) _ => accOp 1 false r.a r.ax (2 ^ 62)) ⟨0, 0, false, false⟩ = ⟨-424 * 2 ^ 62, 1, false, false⟩ := by
  decide +kernel

/-- Chapter 12: with SAT the sum clamps at 2⁷¹ − 1. -/
theorem test_accumulator_clamps : accOp 1 true (511 * 2 ^ 62) 0 (2 ^ 62) = ⟨2 ^ 71 - 1, 0, true, false⟩ := by decide +kernel

/-- Chapter 7: packet 16,000 at 48 kHz and 125 µs begins at STC 2 s with sample 96,000; at 44.1 kHz and 1 ms packet 3 begins with sample 133. -/
theorem test_packet_samples : pktIdx 1 (2 * 10 ^ 9 * 2 ^ 56) = 16000 ∧ pktFirst 1 48000 16000 = 96000 ∧ pktFirst 4 44100 3 = 133 ∧
    pktFirst 4 44100 4 = 177 ∧ sMax 4 44100 = 45 ∧ sMax 1 48000 = 6 := by decide +kernel

/-- Chapter 6: the INTERVALs of the gate list with T_min 333⅓ µs, and the entries with T_min 125 µs. -/
theorem test_gate_intervals : (gateRows [3]).map (fun e => e.1) = [266667, 66666, 266667, 66667, 266666, 66667] ∧
    gateRows [1, 4] = (List.replicate 8 [(100000, 0xFE), (25000, 0xFF)]).flatten := by decide +kernel

/-- Chapter 4: a COMMIT started at 12,940,000 ns takes the epoch at 14 ms. -/
theorem test_commit_epoch : (match exec (.commit 0 .spi 7 false 0 0)
      (let s := Tests.inMode .run; { s with time := { s.time with stc := 12940000 * 2 ^ 56, epoch := 12 } }) with
    | .next u => u.cmd.started.map (fun x => x.epoch)
    | _ => []) = [some 14] := by decide +kernel

/-- Chapter 5: SPARE_USE once tile 5 runs on tile 30. -/
theorem test_spare_use : spareUseWord { Tests.running with place := { Tests.running.place with
    now := some { Tests.placed with spares := [30, 31] }, used := [(30, 5)] } } = 0x85 := by decide +kernel

/-- Chapter 13: RING_INFO of ring 52, an extraction ring of 64 channels at 48 kHz from channel 128. -/
theorem test_ring_info : ringInfoWord { Tests.running with place := { Tests.running.place with
    now := some { Tests.placed with rings := [⟨52, true, 64, 0, 6272⟩] } } } 52 = 0x08008103 := by decide +kernel

/-- Chapter 15: flow 3 beside flow 5 on member 0's lane 1: line times of 348.16 ns and 179.20 ns, and L_F 4. -/
theorem test_fabric_delay : cellLine ⟨3, 0, 2, 64, 0, 4⟩ = 34816 ∧ cellLine ⟨5, 0, 1, 32, 0, 4⟩ = 17920 ∧
    readDelay 48000 0 [(⟨3, 0, 2, 64, 0, 4⟩, [(0, 1), (1, 5)], 0), (⟨5, 0, 1, 32, 0, 4⟩, [(0, 1)], 0)]
      (⟨3, 0, 2, 64, 0, 4⟩, [(0, 1), (1, 5)], 0) = 4 := by decide +kernel

/-! ### Witnesses -/

theorem witness_StepRunsFront :
    (fun (c : Instr) (rest : List Instr) (_ _ : Nat) (s : State) =>
      (s.pending = c :: rest))
      (.opsecTick 5) [.opsecTick 6] 32 5 { Tests.up with pending := [.opsecTick 5, .opsecTick 6] } ∧
    (fun (_ : Instr) (_ : List Instr) (_ _ : Nat) (s : State) =>
      (s.pending = []))
      (.opsecTick 5) [.opsecTick 6] 32 5 Tests.up :=
  ⟨by decide +kernel, by decide +kernel⟩

theorem witness_FuseAndTestStrapRefuse :
    (fun (t _ a0 a1 : Nat) (_ : Bool) (src : CmdSrc) (s : State) =>
      (((s.at t).takesNow src = true) ∧ (bit s.cmd.safeCause scFUSE = true ∨ bit s.cmd.safeCause scTEST = true) ∧ (1 ≤ a0) ∧ (a0 < 4)) ∧
      (((s.at t).takesNow src = true) ∧ (bit s.cmd.safeCause scFUSE = true ∨ bit s.cmd.safeCause scTEST = true) ∧ (a1 ≤ 25165824)) ∧
      (((s.at t).takesNow src = true) ∧ (bit s.cmd.safeCause scFUSE = true ∨ bit s.cmd.safeCause scTEST = true)))
      5 7 1 5 false .pcie (let s := Tests.inMode .safe; { s with cmd := { s.cmd with safeCause := 1 } }) := by decide +kernel

theorem witness_LineRateAboveTheVariant :
    (fun (_ k be v _ : Nat) (_ : Path) (s : State) =>
      (
((s.plainWrite (portBlk k) = true) ∧ ((twinned s && s.twin.role == .standby) = false) ∧ (k < 2) ∧ (be < 16)) ∧ 
  let w := BitVec.ofNat 32 v
  let beyond := fun (new : Word) => s.variant.media < MAC.MAC_CTL_RATE.get new
  (beyond w)) ∧
      (
((s.plainWrite (portBlk k) = true) ∧ ((twinned s && s.twin.role == .standby) = false) ∧ (k < 2) ∧ (be < 16)) ∧ 
  let a := MAC.MAC_CTL k
  let old := s.rd a
  let w := BitVec.ofNat 32 v
  let m := beMask be
  let beyond := fun (new : Word) => s.variant.media < MAC.MAC_CTL_RATE.get new
  (beyond (merged old m w))))
      5 0 15 0x16 2 .spi ({ Tests.inMode .run with chip := { Tests.up.chip with fuses := ⟨5, 3, 0, true, true⟩ } }.wr (MAC.MAC_CTL 0) 1) ∧
    (fun (_ k be v view : Nat) (_ : Path) (s : State) =>
      ((s.plainWrite (portBlk k) = true) ∧ ((twinned s && s.twin.role == .standby) = false) ∧ (k < 2) ∧ (be < 16)) ∧ 
  let a := MAC.MAC_CTL k
  let old := s.rd a
  let w := BitVec.ofNat 32 v
  let m := beMask be
  let beyond := fun (new : Word) => s.variant.media < MAC.MAC_CTL_RATE.get new
  let viewed := if view = 1 then old ||| (w &&& m) else if view = 2 then old &&& ~~~ (w &&& m) else old ^^^ (w &&& m)
  (1 ≤ view) ∧ (view < 4) ∧ (beyond viewed))
      5 1 1 0x1E 3 .pcie ({ Tests.inMode .run with chip := { Tests.up.chip with fuses := ⟨5, 3, 0, true, true⟩ } }.wr (MAC.MAC_CTL 1) 0x11) :=
  ⟨by decide +kernel, by decide +kernel⟩

theorem witness_CounterReadsAnswerAndClear :
    (fun (t : Nat) (_ : Path) (sel _ : Nat) (s : State) =>
      (((s.at t).blkOn bDMA = true) ∧ (sel < 256)) ∧
      (((s.at t).blkOn bSTX = true) ∧ (sel ≤ 0x402)) ∧
      (((s.at t).blkOn bSRX = true) ∧ (sel < 0x1003)) ∧
      (((s.at t).blkOn bTWIN = true) ∧ (sel < 2)) ∧
      (((s.at t).blkOn bFAB = true) ∧ (sel < 0x108)) ∧
      (((s.at t).blkOn bSTORE = true) ∧ (sel < 2)))
      5 .spi 0 7 (let s := Tests.inMode .run; { s with dma := { s.dma with ctr := [(0,5),(1,6),(4,7)] }, stx := { s.stx with ctr := [(0,5),(1,6),(4,7)] }, srx := { s.srx with ctr := [(0,5),(1,6),(4,7)] }, twin := { s.twin with ctr := [(0,5),(1,6),(4,7)] }, fab := { s.fab with ctr := [(0,5),(1,6),(4,7)] }, nand := { s.nand with ctr := [(0,5),(1,6),(4,7)] } }) ∧
    (fun (t : Nat) (_ : Path) (sel _ : Nat) (s : State) =>
      (((s.at t).blkOn bDMA = true) ∧ (256 ≤ sel)) ∧
      (((s.at t).blkOn bFAB = true) ∧ ((0x108 ≤ sel ∧ sel < 0x200) ∨ (0x240 ≤ sel ∧ sel ≠ 0x300))))
      5 .pcie 0x401 7 (Tests.inMode .run) ∧
    (fun (t : Nat) (_ : Path) (_ _ : Nat) (s : State) =>
      (
  let off := fun b => s.present b && !(s.at t).blkOn b
  (off bDMA = true)) ∧
      (
  let off := fun b => s.present b && !(s.at t).blkOn b
  (off bSTX = true)) ∧
      (
  let off := fun b => s.present b && !(s.at t).blkOn b
  (off bSRX = true)) ∧
      (
  let off := fun b => s.present b && !(s.at t).blkOn b
  (off bTWIN = true)) ∧
      (
  let off := fun b => s.present b && !(s.at t).blkOn b
  (off bFAB = true)) ∧
      (
  let off := fun b => s.present b && !(s.at t).blkOn b
  (off bSTORE = true)))
      5 .pcie 0 7 (let s := Tests.inMode .run; { s with pwr := { s.pwr with on := 1 } }) ∧
    (fun (t : Nat) (_ : Path) (sel _ : Nat) (s : State) =>
      (((s.at t).blkOn bSTX = true) ∧ (0x402 < sel)) ∧
      (((s.at t).blkOn bSRX = true) ∧ (0x1003 ≤ sel)))
      5 .pcie 0x5000 7 (Tests.inMode .run) ∧
    (fun (t : Nat) (_ : Path) (sel _ : Nat) (s : State) =>
      ((s.at t).blkOn bTWIN = true) ∧ (sel = 0x10))
      5 .pcie 0x10 7 (Tests.inMode .run) ∧
    (fun (t : Nat) (_ : Path) (sel _ : Nat) (s : State) =>
      (((s.at t).blkOn bTWIN = true) ∧ (2 ≤ sel) ∧ (sel ≠ 0x10)) ∧
      (((s.at t).blkOn bSTORE = true) ∧ (2 ≤ sel)))
      5 .pcie 255 7 (Tests.inMode .run) ∧
    (fun (t : Nat) (_ : Path) (sel _ : Nat) (s : State) =>
      ((s.at t).blkOn bFAB = true) ∧ (0x200 ≤ sel) ∧ (sel < 0x240))
      5 .pcie 0x210 7 (Tests.inMode .run) ∧
    (fun (t : Nat) (_ : Path) (sel _ : Nat) (s : State) =>
      ((s.at t).blkOn bFAB = true) ∧ (sel = 0x300))
      5 .pcie 0x300 7 (Tests.inMode .run) :=
  ⟨by decide +kernel, by decide +kernel, by decide +kernel, by decide +kernel, by decide +kernel, by decide +kernel, by decide +kernel, by decide +kernel⟩

theorem witness_MacMailboxReads :
    (fun (t : Nat) (_ : Path) (port sel _ : Nat) (_ : TxStamp) (_ : List TxStamp) (s : State) =>
      ((port < 3) ∧ ((s.at t).blkOn (portBlk port) = true) ∧ ((s.mac port).fifo = [])) ∧
      ((port < 3) ∧ ((s.at t).blkOn (portBlk port) = true) ∧ (macSel sel = true) ∧ (s.now < t) ∧ (ctrGet (s.mac port).ctr sel < 2 ^ 64)))
      5 .spi 1 0x12 7 ⟨5 * 2 ^ 56, 3, 2⟩ [] (Tests.inMode .run) ∧
    (fun (t : Nat) (_ : Path) (port _ _ : Nat) (x : TxStamp) (r : List TxStamp) (s : State) =>
      (port < 3) ∧ ((s.at t).blkOn (portBlk port) = true) ∧ ((s.mac port).fifo = x :: r))
      5 .spi 2 0x40 7 ⟨5 * 2 ^ 56, 3, 2⟩ [] (let s := Tests.inMode .run; s.setMac 2 { s.mac 2 with fifo := [⟨5 * 2 ^ 56, 3, 2⟩], ctr := [(0x40, 2 ^ 64 - 1), (5, 7)] }) ∧
    (fun (t : Nat) (_ : Path) (port sel _ : Nat) (_ : TxStamp) (_ : List TxStamp) (s : State) =>
      (port < 3) ∧ ((s.at t).blkOn (portBlk port) = true) ∧ (macSel sel = false) ∧ (sel ≠ 0x0100))
      5 .spi 1 0x13 7 ⟨5 * 2 ^ 56, 3, 2⟩ [] (Tests.inMode .run) :=
  ⟨by decide +kernel, by decide +kernel, by decide +kernel⟩

theorem witness_TimeMailboxReads :
    (fun (t : Nat) (_ : Path) (sel i d _ _ : Nat) (s : State) =>
      (((s.at t).blkOn bTIME = true) ∧ (1 ≤ sel) ∧ (sel ≤ 4) ∧ (s.time.edges.find (sel - 1) = none)) ∧
      (((s.at t).blkOn bTIME = true) ∧ (i < 6) ∧ (ptpHere s i = true) ∧ (d < 5) ∧ (d ≠ 3)) ∧
      (((s.at t).blkOn bTIME = true) ∧ (i < 6) ∧ (ptpHere s i = true)) ∧
      (((s.at t).blkOn bTIME = true)))
      5 .pcie 4 5 0 0 7 (Tests.inMode .run) ∧
    (fun (t : Nat) (_ : Path) (sel _ _ _ e : Nat) (s : State) =>
      ((s.at t).blkOn bTIME = true) ∧ (1 ≤ sel) ∧ (sel ≤ 4) ∧ (s.time.edges.find (sel - 1) = some e))
      5 .pcie 1 5 0 7 77 (let s := Tests.inMode .run; { s with time := { s.time with edges := [(0, 77)] } }) ∧
    (fun (t : Nat) (_ : Path) (sel _ _ _ _ : Nat) (s : State) =>
      ((s.at t).blkOn bTIME = true) ∧ (0x10 ≤ sel) ∧ (sel < 0x20))
      5 .pcie 0x12 5 0 0 7 (Tests.inMode .run) ∧
    (fun (t : Nat) (_ : Path) (sel _ _ _ _ : Nat) (s : State) =>
      ((s.at t).blkOn bTIME = true) ∧ (0x20 ≤ sel) ∧ (sel < 0x23))
      5 .pcie 0x22 5 4 0 7 ((Tests.inMode .run).wr (TIME.PTP_CTL 5) 1) ∧
    (fun (t : Nat) (_ : Path) (sel _ _ _ _ : Nat) (s : State) =>
      ((s.at t).blkOn bTIME = true) ∧ (0x40 ≤ sel) ∧ (sel < 0x44) ∧ (fpgSrc s (sel - 0x40) = 0))
      5 .pcie 0x42 0 4 0 7 ((Tests.inMode .run).wr (TIME.PTP_CTL 0) 1) :=
  ⟨by decide +kernel, by decide +kernel, by decide +kernel, by decide +kernel, by decide +kernel⟩

theorem witness_LogMailboxReads :
    (fun (t : Nat) (p : Path) (_ : Nat) (_ : Snap) (r : Rec) (s : State) =>
      (
(((s.at t).blkOn bLOG = true)) ∧ 
  let l := mainLog s.recorder
  let at_ := fun (k : List Rec) => k.find? (fun r => seqGe r.seq (s.path p).rdSeq)
  (at_ l = none)) ∧
      (((s.at t).blkOn bLOG = true) ∧ (snapOf s p = none)) ∧
      (((s.at t).blkOn bLOG = true)))
      5 .spi 9 ⟨[], [], 0, 0, 0⟩ ⟨3, 0, 1, 5, 2, 0, false, false, [], 1⟩ (Tests.inMode .run) ∧
    (fun (t : Nat) (p : Path) (_ : Nat) (x : Snap) (r : Rec) (s : State) =>
      (
(((s.at t).blkOn bLOG = true)) ∧ 
  let l := mainLog s.recorder
  let at_ := fun (k : List Rec) => k.find? (fun r => seqGe r.seq (s.path p).rdSeq)
  (at_ l = some r)) ∧
      (
(((s.at t).blkOn bLOG = true)) ∧ 
  let at_ := fun (k : List Rec) => k.find? (fun r => seqGe r.seq (s.path p).rdSeq)
  (snapOf s p = some x) ∧ (at_ x.main = some r)) ∧
      (
(((s.at t).blkOn bLOG = true)) ∧ 
  let at_ := fun (k : List Rec) => k.find? (fun r => seqGe r.seq (s.path p).rdSeq)
  (snapOf s p = some x) ∧ (at_ x.fb = some r)))
      5 .spi 9 ⟨[⟨3, 0, 1, 5, 2, 0, false, false, [], 1⟩], [⟨3, 0, 1, 5, 2, 0, false, false, [], 1⟩], 3, 0, 0⟩ ⟨3, 0, 1, 5, 2, 0, false, false, [], 1⟩ (let s := Tests.medium; { s with recorder := { s.recorder with main := [⟨3, 0, 1, 5, 2, 0, false, false, [], 1⟩], snapSpi := some ⟨[⟨3, 0, 1, 5, 2, 0, false, false, [], 1⟩], [⟨3, 0, 1, 5, 2, 0, false, false, [], 1⟩], 3, 0, 0⟩ } }) ∧
    (fun (t : Nat) (p : Path) (_ : Nat) (x : Snap) (r : Rec) (s : State) =>
      (
(((s.at t).blkOn bLOG = true)) ∧ 
  let at_ := fun (k : List Rec) => k.find? (fun r => seqGe r.seq (s.path p).rdSeq)
  (snapOf s p = some x) ∧ (at_ x.main = none)) ∧
      (
(((s.at t).blkOn bLOG = true)) ∧ 
  let at_ := fun (k : List Rec) => k.find? (fun r => seqGe r.seq (s.path p).rdSeq)
  (snapOf s p = some x) ∧ (at_ x.fb = none)))
      5 .spi 9 ⟨[], [], 3, 0, 0⟩ ⟨3, 0, 1, 5, 2, 0, false, false, [], 1⟩ (let s := Tests.medium; { s with recorder := { s.recorder with main := [⟨3, 0, 1, 5, 2, 0, false, false, [], 1⟩], snapSpi := some ⟨[], [], 3, 0, 0⟩ } }) :=
  ⟨by decide +kernel, by decide +kernel, by decide +kernel⟩

theorem witness_MailboxReplyLifecycle :
    (fun (_ : Nat) (p : Path) (b : Nat) (w : List Nat) (s : State) =>
      ((s.mbx p b).snap = some w))
      5 .spi 9 [1, 2] (let s := Tests.inMode .run; s.setMbx .spi 9 { s.mbx .spi 9 with snap := some [1, 2] }) ∧
    (fun (t : Nat) (p : Path) (b : Nat) (_ : List Nat) (s : State) =>
      ((s.mbx p b).busy = true) ∧ ((s.mbx p b).reqAt + us 20 ≤ (s.at t).now))
      2000000000 .spi 9 [1, 2] (let s := Tests.inMode .run; s.setMbx .spi 9 { s.mbx .spi 9 with busy := true }) :=
  ⟨by decide +kernel, by decide +kernel⟩

theorem witness_RecordsAreNumberedAndKept :
    (fun (_ : Nat) (isl jsl : Island) (e : Ev) (q : List Ev) (s : State) =>
      ((islRank isl < islRank jsl)) ∧
      (
((takeEv isl s.recorder.evq = some (e, q)) ∧ (s.fld LOG.LOG_CTL LOG.LOG_CTL_MIN_SEV ≤ e.sev)) ∧ 
  let z := s.recorder
  let isOpen := z.frozen = false ∧ logReady s = true ∧ z.wbuf.length < 256 ∧ z.main.length + z.wbuf.length < 1835008
  (isOpen) ∧ (s.nand.fault = false) ∧ (z.wbuf.length + 1 ≤ recsPerPage s) ∧ (z.wbuf.length + 1 = recsPerPage s ∨ e.sev = 5) ∧ (logNext s z.logPage % blkPages s ≠ 0)))
      5 .time .aon ⟨.time, 0x3002, 5, 3, []⟩ [⟨.aon, 7, 2, 3, []⟩] (let s := Tests.medium; { s with recorder := { s.recorder with evq := [⟨.aon, 7, 2, 3, []⟩, ⟨.time, 0x3002, 5, 3, []⟩] } }) ∧
    (fun (_ : Nat) (isl _ : Island) (e : Ev) (q : List Ev) (s : State) =>
      (takeEv isl s.recorder.evq = some (e, q)) ∧ (e.sev < s.fld LOG.LOG_CTL LOG.LOG_CTL_MIN_SEV))
      5 .time .stream ⟨.time, 0x3002, 0, 3, []⟩ [] (let s := Tests.medium.setFld LOG.LOG_CTL LOG.LOG_CTL_MIN_SEV 1; { s with recorder := { s.recorder with evq := [⟨.time, 0x3002, 0, 3, []⟩] } }) ∧
    (fun (_ : Nat) (isl _ : Island) (e : Ev) (q : List Ev) (s : State) =>
      ((takeEv isl s.recorder.evq = some (e, q)) ∧ (s.fld LOG.LOG_CTL LOG.LOG_CTL_MIN_SEV ≤ e.sev)) ∧ 
  let z := s.recorder
  let held := z.frozen = true ∨ (logReady s = false ∧ z.degraded = false) ∨ 256 ≤ z.wbuf.length
  (held) ∧ (z.hold.length < 64))
      5 .time .aon ⟨.time, 0x3002, 5, 3, []⟩ [] (let s := Tests.inMode .run; { s with recorder := { s.recorder with frozen := true, evq := [⟨.time, 0x3002, 5, 3, []⟩] } }) ∧
    (fun (_ : Nat) (isl _ : Island) (e : Ev) (q : List Ev) (s : State) =>
      ((takeEv isl s.recorder.evq = some (e, q)) ∧ (s.fld LOG.LOG_CTL LOG.LOG_CTL_MIN_SEV ≤ e.sev)) ∧ 
  let z := s.recorder
  let held := z.frozen = true ∨ (logReady s = false ∧ z.degraded = false) ∨ 256 ≤ z.wbuf.length
  (held) ∧ (64 ≤ z.hold.length) ∧ (z.fbFirst.length < 128))
      5 .time .aon ⟨.time, 0x3002, 5, 3, []⟩ [] (let s := Tests.inMode .run; { s with recorder := { s.recorder with frozen := true, hold := List.replicate 64 ⟨3, 0, 1, 5, 2, 0, false, false, [], 0⟩, evq := [⟨.time, 0x3002, 5, 3, []⟩] } }) ∧
    (fun (_ : Nat) (isl _ : Island) (e : Ev) (q : List Ev) (s : State) =>
      ((takeEv isl s.recorder.evq = some (e, q)) ∧ (s.fld LOG.LOG_CTL LOG.LOG_CTL_MIN_SEV ≤ e.sev)) ∧ 
  let z := s.recorder
  (z.frozen = false) ∧ (z.degraded = true) ∧ (z.wbuf.length < 256) ∧ (z.fbFirst.length < 128))
      5 .time .aon ⟨.time, 0x3002, 5, 3, []⟩ [] (let s := Tests.inMode .run; { s with recorder := { s.recorder with degraded := true, evq := [⟨.time, 0x3002, 5, 3, []⟩] } }) ∧
    (fun (_ : Nat) (isl _ : Island) (e : Ev) (q : List Ev) (s : State) =>
      ((takeEv isl s.recorder.evq = some (e, q)) ∧ (s.fld LOG.LOG_CTL LOG.LOG_CTL_MIN_SEV ≤ e.sev)) ∧ 
  let z := s.recorder
  let isOpen := z.frozen = false ∧ logReady s = true ∧ z.wbuf.length < 256 ∧ z.main.length + z.wbuf.length < 1835008
  (isOpen) ∧ (z.wbuf.length + 1 < recsPerPage s) ∧ (e.sev ≠ 5))
      5 .time .aon ⟨.time, 0x3002, 3, 3, []⟩ [⟨.aon, 7, 2, 3, []⟩] (let s := Tests.medium; { s with recorder := { s.recorder with evq := [⟨.aon, 7, 2, 3, []⟩, ⟨.time, 0x3002, 3, 3, []⟩] } }) :=
  ⟨by decide +kernel, by decide +kernel, by decide +kernel, by decide +kernel, by decide +kernel, by decide +kernel⟩

theorem witness_LogTimers :
    (fun (t w : Nat) (_ : Path) (_ : Snap) (s : State) =>
      ((s.recorder.wbufSince = some w) ∧ (w + ms 100 ≤ (s.at t).now) ∧ (logReady s = true) ∧ (s.nand.fault = false) ∧ (s.recorder.frozen = false) ∧ (s.recorder.wbuf ≠ []) ∧ (s.recorder.wbuf.length ≤ recsPerPage s) ∧ (s.recorder.hold = []) ∧ (s.recorder.holdRun = false) ∧ (logNext s s.recorder.logPage % blkPages s ≠ 0)) ∧
      ((s.chip.aonOn = true)))
      7000000000000 3 .spi ⟨[], [], 0, 0, 0⟩ (let s := Tests.medium; { s with recorder := { s.recorder with wbufSince := some 3, wbuf := [⟨3, 0, 1, 5, 2, 0, false, false, [], 0⟩] } }) ∧
    (fun (t _ : Nat) (p : Path) (x : Snap) (s : State) =>
      (snapOf s p = some x) ∧ (x.lastRead + secs 60 ≤ (s.at t).now))
      7000000000000000 3 .spi ⟨[], [], 0, 0, 0⟩ (let s := Tests.medium; { s with recorder := { s.recorder with snapSpi := some ⟨[], [], 0, 0, 0⟩ } }) :=
  ⟨by decide +kernel, by decide +kernel⟩

theorem witness_NandMediumLifecycle :
    (fun (t _ _ _ _ _ : Nat) (_ : Bool) (_ : Option Nat) (_ : Cmd) (_ : List (List Nat)) (g : NandGeom) (s : State) =>
      (
(((s.at t).blkOn bSTORE = true)) ∧ 
  let none_ := s.recorder.hold = [] ∧ s.recorder.holdRun = false ∧ s.recorder.pend = [] ∧ s.chip.coreLost = false
  (s.nand.present = false) ∧ (geomOk g = true) ∧ (g.headerOk = true) ∧ (s.recorder.frozen = false) ∧ (none_)) ∧
      (((s.at t).blkOn bSTORE = true) ∧ (s.nand.retrying = false) ∧ (s.nand.fault = false) ∧ (s.fld LOG.LOG_CTL LOG.LOG_CTL_MIN_SEV ≤ 5)))
      5 7 0 0 0 1 false none ⟨0x12, 3, false, .spi, 1, 0, 0⟩ [] ⟨true, 2048, 158, 64, 1, 40, 5, none, false, 100000, [], true, false⟩ (Tests.inMode .run) ∧
    (fun (t _ _ _ _ _ : Nat) (_ : Bool) (_ : Option Nat) (_ : Cmd) (_ : List (List Nat)) (g : NandGeom) (s : State) =>
      ((s.at t).blkOn bSTORE = true) ∧ (s.nand.present = false) ∧ (s.nand.fault = false) ∧ (geomOk g = false))
      5 7 0 0 0 1 false (some 9) ⟨0x12, 3, false, .spi, 1, 0, 0⟩ [] ⟨true, 2048, 158, 63, 1, 40, 5, none, false, 100000, [], true, false⟩ (Tests.inMode .run) ∧
    (fun (t b k r _ _ : Nat) (er : Bool) (_ : Option Nat) (_ : Cmd) (_ : List (List Nat)) (_ : NandGeom) (s : State) =>
      (((s.at t).blkOn bSTORE = true)) ∧ 
  let counted := { s.at t with nand := { s.nand with ctr := ctrAdd s.nand.ctr (if er then 7 else 6) 1, retired := b :: s.nand.retired } }
  (s.nand.ready = true) ∧ (s.nand.retired.contains b = false) ∧ (logicalOf s b = some k) ∧ (leastWorn counted (spareBlocks counted) = some r))
      5 2 1048578 19 0 1 true none ⟨0x12, 3, false, .spi, 1, 0, 0⟩ [] ⟨true, 2048, 158, 63, 1, 40, 5, none, false, 100000, [], true, false⟩ { Tests.medium with nand := { Tests.medium.nand with pageSize := 2 ^ 20, ppb := 8, blocks := 20 } } ∧
    (fun (t _ _ _ _ p : Nat) (_ : Bool) (_ : Option Nat) (c : Cmd) (_ : List (List Nat)) (_ : NandGeom) (s : State) =>
      ((s.at t).blkOn bSTORE = true) ∧ (s.nand.ready = true) ∧ (s.nand.scrub = some p) ∧ (s.cmd.started = [⟨c, none⟩]) ∧ (c.op = 0x12) ∧ (c.src = .spi) ∧ (s.cmd.mode = .run) ∧ (s.cmd.done.length < 32))
      5 2 1048577 4 0 1 true none ⟨0x12, 3, false, .spi, 1, 0, 0⟩ [[3, 41]] ⟨true, 2048, 158, 63, 1, 40, 5, none, false, 100000, [], true, false⟩ { Tests.medium with cmd := { Tests.medium.cmd with started := [⟨⟨0x12, 3, false, .spi, 1, 0, 0⟩, none⟩] }, nand := { Tests.medium.nand with pages := [(1048577, ⟨1, 0, 3⟩)], scrub := some 1 } } ∧
    (fun (t _ _ _ _ _ : Nat) (_ : Bool) (_ : Option Nat) (_ : Cmd) (_ : List (List Nat)) (g : NandGeom) (s : State) =>
      (((s.at t).blkOn bSTORE = true) ∧ (s.nand.retrying = true)) ∧
      (
(((s.at t).blkOn bSTORE = true)) ∧ 
  let none_ := s.recorder.hold = [] ∧ s.recorder.holdRun = false ∧ s.recorder.pend = [] ∧ s.chip.coreLost = false
  (s.nand.retrying = true) ∧ (geomOk g = true) ∧ (g.headerOk = true) ∧ (s.recorder.frozen = false) ∧ (none_)))
      700000000000000 7 0 0 0 1 true none ⟨0x12, 3, false, .spi, 1, 0, 0⟩ [] ⟨true, 4096, 314, 128, 16, 40, 5, none, false, 100000, [], true, false⟩ { Tests.medium with nand := { Tests.medium.nand with fault := true, retrying := true, failAt := some 0 } } ∧
    (fun (t _ _ _ f _ : Nat) (_ : Bool) (_ : Option Nat) (_ : Cmd) (_ : List (List Nat)) (_ : NandGeom) (s : State) =>
      ((s.at t).blkOn bSTORE = true) ∧ (s.nand.failAt = some f) ∧ (s.nand.fault = true) ∧ (f + secs 10 ≤ (s.at t).now))
      700000000000000 7 0 0 0 1 true none ⟨0x12, 3, false, .spi, 1, 0, 0⟩ [] ⟨true, 4096, 314, 128, 16, 40, 5, none, false, 100000, [], true, false⟩ { Tests.medium with nand := { Tests.medium.nand with fault := true, failAt := some 0 } } ∧
    (fun (t _ _ _ _ _ : Nat) (_ : Bool) (_ : Option Nat) (_ : Cmd) (_ : List (List Nat)) (g : NandGeom) (s : State) =>
      ((s.at t).blkOn bSTORE = true) ∧ (s.nand.retrying = true) ∧ (geomOk g = false ∨ (g.headerOk = false ∧ g.headerErased = false)))
      700000000000000 7 0 0 0 1 true none ⟨0x12, 3, false, .spi, 1, 0, 0⟩ [] ⟨true, 4096, 314, 128, 16, 40, 5, none, false, 100000, [], false, false⟩ { Tests.medium with nand := { Tests.medium.nand with fault := true, retrying := true, failAt := some 0 } } :=
  ⟨by decide +kernel, by decide +kernel, by decide +kernel, by decide +kernel, by decide +kernel, by decide +kernel, by decide +kernel⟩

theorem witness_PatrolAndTransfer :
    (fun (t _ _ _ _ : Nat) (errs : List Nat) (_ : List (List Nat)) (s : State) =>
      (((s.at t).blkOn bSTORE = true)) ∧ 
  let ready := s.nand.fault = false ∧ s.nand.ready = true
  ((s.nand.ready = true) ∧ (patrolPages (s.at t) ≠ []) ∧ ((∀ e ∈ errs, e < 24))) ∧ 
  let n := (patrolPages (s.at t)).length
  let i := if s.nand.patrol < n then s.nand.patrol else 0
  (pageUsed s ((patrolPages s).getD i 0 / 2 ^ 20) ((patrolPages s).getD i 0 % 2 ^ 20) = true))
      5 0 0 0 0 [23, 0] [] { Tests.medium with nand := { Tests.medium.nand with pages := [(2 ^ 20 + 5, ⟨1, 0, 3⟩), (2 ^ 20 + 9, ⟨1, 0, 4⟩)] } } ∧
    (fun (t p op off len : Nat) (_ : List Nat) (_ : List (List Nat)) (s : State) =>
      ((s.at t).blkOn bSTORE = true) ∧ (s.nand.xfer = some (p, op, off, len)) ∧ (len % 4 ≠ 0 ∨ len < 4 ∨ 65536 < len ∨ p = 0 ∨ 6 < p))
      5 2 0 0 6 [24] [] { Tests.medium with nand := { Tests.medium.nand with xfer := some (2, 0, 0, 6) } } ∧
    (fun (t p op off len : Nat) (_ : List Nat) (_ : List (List Nat)) (s : State) =>
      (((s.at t).blkOn bSTORE = true)) ∧ 
  let fits := 1 ≤ p ∧ p ≤ 6 ∧ len % 4 = 0 ∧ 4 ≤ len ∧ len ≤ 65536 ∧ op < 2
  (s.nand.xfer = some (p, op, off, len)) ∧ (fits) ∧ (op = 1) ∧ (4 ≤ p))
      5 4 1 0 4 [24] [[8, 1]] { Tests.medium with nand := { Tests.medium.nand with xfer := some (4, 1, 0, 4) } } ∧
    (fun (t p op off len : Nat) (_ : List Nat) (_ : List (List Nat)) (s : State) =>
      (((s.at t).blkOn bSTORE = true)) ∧ 
  let fits := 1 ≤ p ∧ p ≤ 6 ∧ len % 4 = 0 ∧ 4 ≤ len ∧ len ≤ 65536 ∧ op < 2
  let ready := s.nand.fault = false ∧ s.nand.ready = true
  (s.nand.xfer = some (p, op, off, len)) ∧ (fits) ∧ (op = 0 ∨ p < 4) ∧ (s.nand.fault = true ∨ s.nand.ready = false))
      5 2 1 2048 8 [24] [[8, 1]] { Tests.medium with nand := { Tests.medium.nand with ready := false, xfer := some (2, 1, 2048, 8) } } ∧
    (fun (t p op off len : Nat) (_ : List Nat) (_ : List (List Nat)) (s : State) =>
      (((s.at t).blkOn bSTORE = true)) ∧ 
  let fits := 1 ≤ p ∧ p ≤ 6 ∧ len % 4 = 0 ∧ 4 ≤ len ∧ len ≤ 65536 ∧ op < 2
  let ready := s.nand.fault = false ∧ s.nand.ready = true
  (s.nand.xfer = some (p, op, off, len)) ∧ (fits) ∧ (ready) ∧ (op = 0 ∨ (p < 4 ∧ off % pageLen s = 0)) ∧ (partBytes s p < off + len))
      5 2 0 25165824 4 [24] [[8, 1]] { Tests.medium with nand := { Tests.medium.nand with xfer := some (2, 0, 25165824, 4) } } ∧
    (fun (t p op off len : Nat) (_ : List Nat) (_ : List (List Nat)) (s : State) =>
      (((s.at t).blkOn bSTORE = true)) ∧ 
  let fits := 1 ≤ p ∧ p ≤ 6 ∧ len % 4 = 0 ∧ 4 ≤ len ∧ len ≤ 65536 ∧ op < 2
  let ready := s.nand.fault = false ∧ s.nand.ready = true
  (s.nand.xfer = some (p, op, off, len)) ∧ (fits) ∧ (ready) ∧ (op = 1) ∧ (p < 4) ∧ (off % pageLen s ≠ 0))
      5 2 1 4 4 [24] [[8, 1]] { Tests.medium with nand := { Tests.medium.nand with xfer := some (2, 1, 4, 4) } } ∧
    (fun (t p op off len : Nat) (_ : List Nat) (_ : List (List Nat)) (s : State) =>
      (((s.at t).blkOn bSTORE = true)) ∧ 
  let fits := 1 ≤ p ∧ p ≤ 6 ∧ len % 4 = 0 ∧ 4 ≤ len ∧ len ≤ 65536 ∧ op < 2
  let ready := s.nand.fault = false ∧ s.nand.ready = true
  let inside := off + len ≤ partBytes s p ∧ rangeGone s p off len = false
  (s.nand.xfer = some (p, op, off, len)) ∧ (fits) ∧ (ready) ∧ (inside) ∧ (op = 1) ∧ (p < 4) ∧ (off % pageLen s = 0) ∧ (loadReads s p = true))
      5 2 1 2048 8 [24] [[8, 1]] { Tests.medium with cmd := { Tests.medium.cmd with loading := some ⟨2, 0, false, .boot, 0, none, 0, [], []⟩ }, nand := { Tests.medium.nand with xfer := some (2, 1, 2048, 8) } } ∧
    (fun (t p op off len : Nat) (_ : List Nat) (_ : List (List Nat)) (s : State) =>
      (((s.at t).blkOn bSTORE = true)) ∧ 
  let fits := 1 ≤ p ∧ p ≤ 6 ∧ len % 4 = 0 ∧ 4 ≤ len ∧ len ≤ 65536 ∧ op < 2
  let ready := s.nand.fault = false ∧ s.nand.ready = true
  let inside := off + len ≤ partBytes s p ∧ rangeGone s p off len = false
  let pages := rangePages (pageLen s) off len
  (s.nand.xfer = some (p, op, off, len)) ∧ (fits) ∧ (ready) ∧ (inside) ∧ (op = 1) ∧ (p < 4) ∧ (off % pageLen s = 0) ∧ (loadReads s p = false) ∧ (pages.any (pageUsed s p) = true))
      5 2 1 2048 8 [24] [[8, 1]] { Tests.medium with nand := { Tests.medium.nand with pages := [(2 ^ 21 + 1, ⟨1, 0, 3⟩)], xfer := some (2, 1, 2048, 8) } } ∧
    (fun (t p op off len : Nat) (_ : List Nat) (_ : List (List Nat)) (s : State) =>
      (((s.at t).blkOn bSTORE = true)) ∧ 
  let fits := 1 ≤ p ∧ p ≤ 6 ∧ len % 4 = 0 ∧ 4 ≤ len ∧ len ≤ 65536 ∧ op < 2
  let ready := s.nand.fault = false ∧ s.nand.ready = true
  let inside := off + len ≤ partBytes s p ∧ rangeGone s p off len = false
  let pages := rangePages (pageLen s) off len
  (s.nand.xfer = some (p, op, off, len)) ∧ (fits) ∧ (ready) ∧ (inside) ∧ (op = 1) ∧ (p < 4) ∧ (off % pageLen s = 0) ∧ (loadReads s p = false) ∧ (pages.any (pageUsed s p) = false))
      5 2 1 2048 8 [24] [[8, 1]] (let s := { Tests.medium with nand := { Tests.medium.nand with xfer := some (2, 1, 2048, 8) } }; (s.wr (STORE.XFER_BUF 0) 0x01020304).wr (STORE.XFER_BUF 1) 0x05060708) ∧
    (fun (t p op off len : Nat) (_ : List Nat) (errss : List (List Nat)) (s : State) =>
      (((s.at t).blkOn bSTORE = true)) ∧ 
  let fits := 1 ≤ p ∧ p ≤ 6 ∧ len % 4 = 0 ∧ 4 ≤ len ∧ len ≤ 65536 ∧ op < 2
  let ready := s.nand.fault = false ∧ s.nand.ready = true
  let inside := off + len ≤ partBytes s p ∧ rangeGone s p off len = false
  (s.nand.xfer = some (p, op, off, len)) ∧ (fits) ∧ (ready) ∧ (inside) ∧ (op = 0) ∧ (p < 4) ∧ ((∀ l ∈ errss, ∀ e ∈ l, e ≤ 8)) ∧ ((∀ x ∈ rangeSectors s p off len, x ∉ s.nand.bad)))
      5 2 0 0 4 [24] [[8, 1]] { Tests.medium with nand := { Tests.medium.nand with cells := [(nandKey 2 0, 7), (nandKey 2 3, 9)], pages := [(2 ^ 21, ⟨1, 0, 3⟩)], xfer := some (2, 0, 0, 4) } } :=
  ⟨by decide +kernel, by decide +kernel, by decide +kernel, by decide +kernel, by decide +kernel, by decide +kernel, by decide +kernel, by decide +kernel, by decide +kernel, by decide +kernel⟩

theorem witness_ResetsClearVolatileState :
    (fun (_ lowNs _ _ : Nat) (_ : Fuses) (s : State) =>
      ((lowNs < 100)) ∧
      ((s.chip.aonOn = true) ∧ (s.chip.coreOn = true) ∧ (s.chip.brownout = false)))
      5 99 0 511 ⟨3,1,0,true,false⟩ (Tests.inMode .run) ∧
    (fun (_ lowNs _ _ : Nat) (_ : Fuses) (_ : State) =>
      (1000 ≤ lowNs))
      5 1000 0 511 ⟨3,1,0,true,false⟩ (let s := Tests.medium.wr 8 5; { s with recorder := { s.recorder with wbuf := [⟨3, 0, 1, 5, 2, 0, false, false, [], 0⟩], hold := [⟨3, 0, 1, 5, 2, 0, false, false, [], 0⟩] } }) ∧
    (fun (_ lowNs _ _ : Nat) (_ : Fuses) (_ : State) =>
      (100 ≤ lowNs) ∧ (lowNs < 1000))
      5 500 0 511 ⟨3,1,0,true,false⟩ (Tests.inMode .run) ∧
    (fun (_ _ _ _ : Nat) (_ : Fuses) (s : State) =>
      (s.chip.aonOn = false ∨ s.chip.coreOn = false ∨ s.chip.brownout = true))
      5 500 0 511 ⟨3,1,0,true,false⟩ (let s := Tests.inMode .run; { s with chip := { s.chip with aonOn := false } }) :=
  ⟨by decide +kernel, by decide +kernel, by decide +kernel, by decide +kernel⟩

theorem witness_StartEntersBootOrSafe :
    (fun (_ : Nat) (_ : Straps) (s : State) =>
      (s.chip.aonOn = true) ∧ (s.chip.coreOn = true) ∧ (s.chip.brownout = false))
      5 ⟨0,3,0,false,false⟩ Tests.medium ∧
    (fun (_ : Nat) (_ : Straps) (s : State) =>
      ((s.chip.aonOn = true) ∧ (s.chip.coreOn = true) ∧ (s.chip.brownout = true)) ∧
      ((s.chip.aonOn = true) ∧ (s.chip.coreOn = true) ∧ (s.chip.brownout = true) ∧ (s.chip.resetN = true) ∧ (s.chip.brownStart = true)))
      5 ⟨0,3,0,false,false⟩ { Tests.medium with chip := { Tests.up.chip with brownout := true, brownStart := true, fuses := ⟨0,1,0,false,false⟩ } } ∧
    (fun (_ : Nat) (_ : Straps) (s : State) =>
      (s.chip.aonOn = true) ∧ (s.chip.coreOn = true) ∧ (s.chip.brownout = true) ∧ (s.chip.resetN = false))
      5 ⟨0,3,0,false,false⟩ { Tests.medium with chip := { Tests.up.chip with brownout := true, resetN := false, brownStart := true, fuses := ⟨0,1,0,false,false⟩ } } :=
  ⟨by decide +kernel, by decide +kernel, by decide +kernel⟩

theorem witness_WakeSourcesStartTheWake :
    (fun (_ _ _ : Nat) (_ : Bool) (_ : Int) (_ : List Byte) (s : State) =>
      ((s.live = true) ∧ (s.cmd.mode = .sleep) ∧ (s.pwr.waking = false) ∧ (bit s.aon.wakeEn 0 = true)) ∧
      ((s.live = true) ∧ (s.cmd.mode = .sleep) ∧ (s.pwr.waking = false) ∧ (s.cmd.sleeping = false) ∧ (s.cmd.safeCause = 0) ∧ (s.cmd.sleepDone.length < 8)))
      5 0 7 true 1000 [] (Tests.asleep 1) ∧
    (fun (_ _ _ : Nat) (_ : Bool) (tj : Int) (_ : List Byte) (s : State) =>
      ((s.live = true) ∧ (s.cmd.mode = .sleep) ∧ (s.pwr.waking = false) ∧ (bit s.aon.wakeEn 2 = true) ∧ (s.pwr.hotIgnore = false) ∧ (tempTrue s tj = true)) ∧
      ((s.live = true) ∧ (s.cmd.mode = .sleep) ∧ (s.pwr.waking = false) ∧ (bit s.aon.wakeEn 3 = true) ∧ (s.chip.straps.mgmtSel ≠ 3)))
      5 0 7 true 1000 [] (Tests.asleep 0xF) ∧
    (fun (_ k _ : Nat) (_ : Bool) (_ : Int) (frame : List Byte) (s : State) =>
      (s.live = true) ∧ (s.cmd.mode = .sleep) ∧ (s.pwr.waking = false) ∧ (bit s.aon.wakeEn 4 = true) ∧ (s.chip.straps.mgmtSel = 1 ∨ s.chip.straps.mgmtSel = 2) ∧ (sleepFrame s frame = true) ∧ (k < 16) ∧ (wakeHit (fun a => Tbl.getD s.aon.wakeRegs a (resetWord a)) 2 k frame = true))
      5 15 7 true (-40) (onLine (List.replicate 64 1)) (let s := Tests.asleep 0x10; { s with chip := { s.chip with straps := { s.chip.straps with mgmtSel := 1 } }, aon := { s.aon with wakeRegs := [(MAC.WAKE_CTL 2 15, BitVec.ofNat 32 (0x10000 + crc16Byte 0xFFFF 1)), (MAC.WAKE_MASK 2 15 0, 1)] } }) :=
  ⟨by decide +kernel, by decide +kernel, by decide +kernel⟩

theorem witness_DomainsComeUp :
    (fun (_ _ _ _ : Nat) (_ _ _ _ : Bool) (s : State) =>
      (s.live = true) ∧ (s.cmd.mode = .sleep) ∧ (s.pwr.waking = true) ∧ (s.cmd.sleepDone.length ≤ 8) ∧ (s.cmd.sleepLost = false))
      5 3 4 3 true true true false { Tests.asleep 1 with pwr := { (Tests.asleep 1).pwr with waking := true, wakeLatch := 5 }, cmd := { (Tests.asleep 1).cmd with safeCause := 1, sleepDone := [⟨0x0E, 5, cOK, .spi, 0⟩] } } ∧
    (fun (_ d _ _ : Nat) (_ _ _ _ : Bool) (s : State) =>
      ((s.live = true) ∧ (s.cmd.mode ≠ .sleep) ∧ (3 ≤ d) ∧ (d < 12) ∧ (domDue s d = true) ∧ (bit s.pwr.on d = false)) ∧
      ((s.live = true) ∧ (s.cmd.mode ≠ .sleep) ∧ (domDue { s with pwr := { s.pwr with pcieUp := true } } 10 = true)))
      5 3 4 3 true true true false { Tests.inMode .run with pwr := { Tests.up.pwr with placed := 8, on := 7, forcedOff := 8 } } :=
  ⟨by decide +kernel, by decide +kernel⟩

theorem witness_TemperatureIsActedOn :
    (fun (_ : Nat) (tj o : Int) (s : State) =>
      (
((s.domOn 1 = true) ∧ (-1024 ≤ tj) ∧ (tj < 1024) ∧ (s.pwr.tj = some o)) ∧ 
  let warn : Int := ((4 * s.fld PWR.TEMP_CTL PWR.TEMP_CTL_WARN : Nat) : Int)
  (o ≤ warn) ∧ (warn < tj)) ∧
      ((s.domOn 1 = true) ∧ (-1024 ≤ tj) ∧ (tj < 1024) ∧ (s.pwr.tj = some o) ∧ (500 < tj) ∧ (s.cmd.dirty = false) ∧ (s.cmd.loading = none) ∧ (s.cmd.sleeping = false) ∧ (s.cmd.mode = .run)))
      5 501 0 (let s := Tests.inMode .run; { s with pwr := { s.pwr with tj := some 0 } }) ∧
    (fun (_ : Nat) (tj o : Int) (s : State) =>
      ((s.domOn 1 = true) ∧ (-1024 ≤ tj) ∧ (tj < 1024) ∧ (s.pwr.tj = some o)) ∧ 
  let warn : Int := ((4 * s.fld PWR.TEMP_CTL PWR.TEMP_CTL_WARN : Nat) : Int)
  (warn - 20 < o) ∧ (tj ≤ warn - 20))
      5 1 510 (let s := Tests.inMode .run; { s with pwr := { s.pwr with tj := some 510 } }) ∧
    (fun (_ : Nat) (tj o : Int) (s : State) =>
      ((s.domOn 1 = true) ∧ (-1024 ≤ tj) ∧ (tj < 1024) ∧ (s.pwr.tj = some o)) ∧ 
  let warn : Int := ((4 * s.fld PWR.TEMP_CTL PWR.TEMP_CTL_WARN : Nat) : Int)
  ((warn < o ∨ tj ≤ warn)) ∧ ((o ≤ warn - 20 ∨ warn - 20 < tj)))
      5 501 510 (let s := Tests.inMode .run; { s with pwr := { s.pwr with tj := some 510 } }) ∧
    (fun (_ : Nat) (tj o : Int) (s : State) =>
      (s.domOn 1 = true) ∧ (-1024 ≤ tj) ∧ (tj < 1024) ∧ (s.pwr.tj = some o) ∧ (500 < tj) ∧ (s.cmd.dirty = false) ∧ (s.cmd.loading = none) ∧ (s.cmd.sleeping = false) ∧ (s.cmd.mode = .hold) ∧ (s.place.now = none) ∧ (s.cmd.imgJob = none) ∧ (s.cmd.imgWait = none))
      5 501 510 (let s := Tests.inMode .hold; { s with pwr := { s.pwr with tj := some 510 } }) :=
  ⟨by decide +kernel, by decide +kernel, by decide +kernel, by decide +kernel⟩

theorem witness_RefusedCommandsHaveNoEffect :
    (fun (t _ a0 _ : Nat) (_ : Bool) (src : CmdSrc) (s : State) =>
      ((s.at t).takesNow src = true) ∧ (a0 < 2 ^ 32) ∧ (a0 = 0 ∨ 4 < a0))
      5 7 0 0 true .spi (Tests.inMode .run) ∧
    (fun (t _ a0 _ : Nat) (_ : Bool) (src : CmdSrc) (s : State) =>
      ((s.at t).takesNow src = true) ∧ (32 ≤ a0) ∧ (a0 < 2 ^ 32))
      5 7 32 0 true .spi (Tests.inMode .run) ∧
    (fun (t _ a0 a1 : Nat) (_ : Bool) (src : CmdSrc) (s : State) =>
      ((s.at t).takesNow src = true) ∧ (a0 < 19) ∧ (s.present a0 = false) ∧ (a1 = 0))
      5 7 14 0 true .pcie { Tests.inMode .run with chip := { Tests.up.chip with fuses := { Tests.up.chip.fuses with code := 1 } } } ∧
    (fun (t _ a0 a1 : Nat) (_ : Bool) (src : CmdSrc) (s : State) =>
      ((s.at t).takesNow src = true) ∧ (1 ≤ a0) ∧ (a0 < 4) ∧ (a1 = 0) ∧ (s.cmd.mode = .run))
      5 7 3 0 true .pcie (Tests.inMode .run) ∧
    (fun (t _ a0 a1 : Nat) (_ : Bool) (src : CmdSrc) (s : State) =>
      ((s.at t).takesNow src = true) ∧ (a0 = 0) ∧ (a1 = 0) ∧ (s.cmd.mode = .boot) ∧ ((twinned s && s.twin.role != .active) = false))
      5 7 0 0 true .pcie (Tests.inMode .boot) :=
  ⟨by decide +kernel, by decide +kernel, by decide +kernel, by decide +kernel, by decide +kernel⟩

theorem witness_EpochCommandsAreHeld :
    (fun (t _ a0 : Nat) (_ : Bool) (src : CmdSrc) (s : State) =>
      (((s.at t).takesNow src = true) ∧ ((twinned s && s.twin.role != .active) = false) ∧ (s.cmd.mode = .run) ∧ (a0 < 32) ∧ (s.cmd.groups ||| a0 ≠ s.cmd.groups)) ∧
      (((s.at t).takesNow src = true) ∧ ((twinned s && s.twin.role != .active) = false) ∧ (s.cmd.mode = .run)))
      5 7 31 false .pcie (Tests.inMode .run) ∧
    (fun (t _ a0 : Nat) (_ : Bool) (src : CmdSrc) (s : State) =>
      (((s.at t).takesNow src = true) ∧ ((twinned s && s.twin.role != .active) = false) ∧ (s.cmd.mode = .run) ∧ (a0 < 32) ∧ (s.cmd.groups &&& a0 ≠ 0)) ∧
      (((s.at t).takesNow src = true) ∧ ((twinned s && s.twin.role != .active) = false) ∧ (s.cmd.mode = .run) ∧ (a0 < 16)))
      5 7 15 false .pcie { Tests.inMode .run with cmd := { (Tests.inMode .run).cmd with groups := 4 } } ∧
    (fun (t _ a0 : Nat) (_ : Bool) (src : CmdSrc) (s : State) =>
      ((s.at t).takesNow src = true) ∧ ((twinned s && s.twin.role != .active) = false) ∧ (s.cmd.mode = .run) ∧ (a0 = 0) ∧ (s.cmd.safeCause = 0))
      5 7 0 false .pcie (Tests.inMode .run) ∧
    (fun (t _ a0 : Nat) (_ : Bool) (src : CmdSrc) (s : State) =>
      ((s.at t).takesNow src = true) ∧ ((twinned s && s.twin.role != .active) = false) ∧ (s.cmd.mode = .hold) ∧ (a0 = 0))
      5 7 0 false .pcie (Tests.inMode .hold) :=
  ⟨by decide +kernel, by decide +kernel, by decide +kernel, by decide +kernel⟩

theorem witness_ImmediateCommandsComplete :
    (fun (t _ _ : Nat) (_ : Bool) (src : CmdSrc) (s : State) =>
      (((s.at t).takesNow src = true) ∧ (s.cmd.mode = .run ∨ s.cmd.mode = .hold) ∧ (s.recorder.frozen = false)) ∧
      (
(((s.at t).takesNow src = true)) ∧ 
  let lead := !(twinned s && s.twin.role != .active)
  (s.cmd.mode = .hold) ∧ (lead = true) ∧ (s.cmd.safeCause % 4 = 0)))
      5 7 0 false .pcie (Tests.inMode .hold) ∧
    (fun (t _ _ : Nat) (_ : Bool) (src : CmdSrc) (s : State) =>
      ((s.at t).takesNow src = true) ∧ (s.cmd.mode = .run ∨ s.cmd.mode = .hold) ∧ (s.recorder.frozen = true))
      5 7 0 false .spi { Tests.inMode .run with recorder := { Tests.up.recorder with frozen := true } } ∧
    (fun (t _ a0 : Nat) (_ : Bool) (src : CmdSrc) (s : State) =>
      (((s.at t).takesNow src = true) ∧ (s.cmd.mode = .run) ∧ (twinned s = false)) ∧
      (
(((s.at t).takesNow src = true)) ∧ 
  let lead := !(twinned s && s.twin.role != .active)
  (s.cmd.mode = .run) ∧ (lead = true)) ∧
      (
(((s.at t).takesNow src = true)) ∧ 
  let lead := !(twinned s && s.twin.role != .active)
  (s.cmd.mode = .run) ∧ (lead = true) ∧ (a0 < 32) ∧ (s.cmd.groups ||| a0 = s.cmd.groups)) ∧
      (((s.at t).takesNow src = true) ∧ (s.cmd.mode = .run) ∧ (bit s.cmd.safeCause scPARITY = false) ∧ ((∀ x ∈ s.cmd.started, x.cmd.op ≠ 0x03)) ∧ ((∀ x ∈ s.cmd.deferred, x.op ≠ 0x03))))
      5 7 0 false .pcie (Tests.inMode .run) ∧
    (fun (t _ _ : Nat) (_ : Bool) (src : CmdSrc) (s : State) =>
      ((s.at t).takesNow src = true) ∧ (s.cmd.mode = .run) ∧ (s.present bTWIN = true) ∧ (s.twin.role = .active))
      5 7 0 false .pcie (Tests.pair .active) ∧
    (fun (t _ _ : Nat) (_ : Bool) (src : CmdSrc) (s : State) =>
      ((s.at t).takesNow src = true) ∧ (s.cmd.mode = .run) ∧ (s.present bTWIN = true) ∧ (s.twin.role = .standby))
      5 7 0 false .pcie (Tests.pair .standby) :=
  ⟨by decide +kernel, by decide +kernel, by decide +kernel, by decide +kernel, by decide +kernel⟩

theorem witness_LongCommandsStart :
    (fun (t _ a0 : Nat) (_ : Bool) (src : CmdSrc) (s : State) =>
      (((s.at t).takesNow src = true) ∧ (s.cmd.mode = .run) ∧ (s.present bTWIN = true) ∧ (s.twin.role = .standby) ∧ (s.twin.lanes ≠ 0) ∧ (s.twin.gander ≠ .lost)) ∧
      (((s.at t).takesNow src = true) ∧ (s.cmd.mode = .run) ∧ (a0 < 6)) ∧
      (((s.at t).takesNow src = true) ∧ (s.cmd.mode = .run) ∧ (s.nand.ready = false ∨ s.cmd.imgJob.isSome = true)) ∧
      (((s.at t).takesNow src = true) ∧ (s.cmd.mode = .run) ∧ (s.present bSTORE = true)) ∧
      (((s.at t).takesNow src = true) ∧ (s.cmd.mode = .run) ∧ (s.cmd.safeCause % 4 = 0)))
      5 7 0 false .pcie (Tests.pair .standby) ∧
    (fun (t _ a0 : Nat) (_ : Bool) (src : CmdSrc) (s : State) =>
      ((s.at t).takesNow src = true) ∧ (s.cmd.mode = .run) ∧ (s.present bTWIN = true) ∧ (s.twin.role = .active) ∧ (a0 < 2))
      5 7 1 false .spi (Tests.pair .active) ∧
    (fun (t _ _ : Nat) (_ : Bool) (src : CmdSrc) (s : State) =>
      ((s.at t).takesNow src = true) ∧ (s.cmd.mode = .run) ∧ (s.nand.ready = true) ∧ (s.cmd.imgJob = none) ∧ (s.cmd.imgWait = none) ∧ ((∀ x ∈ s.cmd.started, x.cmd.op ≠ 0x0F)))
      5 7 5 false .spi Tests.medium :=
  ⟨by decide +kernel, by decide +kernel, by decide +kernel⟩

theorem witness_LoadAndApply :
    (fun (t _ _ : Nat) (_ : Bool) (src : CmdSrc) (_ : LoadS) (s : State) =>
      ((s.at t).takesNow src = true) ∧ (s.cmd.started = []) ∧ (s.cmd.deferred = []) ∧ ((src = .spi ∨ src = .pcie)) ∧ (s.cmd.mode = .boot ∨ s.cmd.mode = .hold ∨ s.cmd.mode = .safe) ∧ (s.cmd.safeCause % 4 = 0))
      5 7 0 false .pcie ⟨5, 692, false, .boot, 0, none, 0, [], []⟩ { Tests.medium with cmd := { Tests.medium.cmd with mode := .hold } } ∧
    (fun (t tag _ : Nat) (nd : Bool) (src : CmdSrc) (l : LoadS) (s : State) =>
      (((s.at t).takesNow src = true) ∧ (s.cmd.started = []) ∧ (s.cmd.deferred = []) ∧ ((src = .spi ∨ src = .pcie))) ∧ 
  let lc := { l with cmd := some ((s.at t).cmdOf src 0x02 tag nd 0 0) }
  let x := applyBegins { (s.at t).numbered with cmd := { (s.at t).numbered.cmd with loading := some lc, applying := true } }
  (s.cmd.mode = .load) ∧ (s.cmd.loading = some l) ∧ (l.auto = false) ∧ (s.cmd.safeCause = 0) ∧ (fabPart x = false))
      5 7 0 false .pcie ⟨5, 692, false, .boot, 0, none, 0, [(0, 692)], []⟩ Tests.loaded :=
  ⟨by decide +kernel, by decide +kernel⟩

theorem witness_EpochTakesStartedCommands :
    (fun (t _ : Nat) (_ : Cmd) (s : State) =>
      ((s.at t).plainEpoch = true) ∧ (s.cmd.deferred = []) ∧ (s.cmd.started = []))
      70000000000 1 ⟨7,1,false,.spi,5,0,0⟩ (Tests.inMode .run) ∧
    (fun (t e : Nat) (c : Cmd) (s : State) =>
      ((s.at t).plainEpoch = true) ∧ (s.cmd.deferred = []) ∧ (s.cmd.started = [⟨c, some e⟩]) ∧ (e ≤ (s.at t).stcMsec) ∧ (c.op = 0x07))
      70000000000 1 ⟨7,1,false,.spi,5,0,0⟩ { Tests.inMode .run with cmd := { (Tests.inMode .run).cmd with started := [⟨⟨7,1,false,.spi,5,0,0⟩, some 1⟩] } } ∧
    (fun (t e : Nat) (c : Cmd) (s : State) =>
      ((s.at t).plainEpoch = true) ∧ (s.cmd.deferred = []) ∧ (s.cmd.started = [⟨c, some e⟩]) ∧ (e ≤ (s.at t).stcMsec) ∧ (c.op = 0x08))
      70000000000 1 ⟨8,1,false,.spi,5,0,0⟩ { Tests.inMode .run with cmd := { (Tests.inMode .run).cmd with groups := 7, started := [⟨⟨8,1,false,.spi,5,0,0⟩, some 1⟩] } } ∧
    (fun (t e : Nat) (c : Cmd) (s : State) =>
      ((s.at t).plainEpoch = true) ∧ (s.cmd.deferred = []) ∧ (s.cmd.started = [⟨c, some e⟩]) ∧ (e ≤ (s.at t).stcMsec) ∧ (c.op = 0x06) ∧ (s.cmd.mode = .run))
      70000000000 1 ⟨6,1,false,.spi,5,0,0⟩ { Tests.inMode .run with cmd := { (Tests.inMode .run).cmd with started := [⟨⟨6,1,false,.spi,5,0,0⟩, some 1⟩] } } ∧
    (fun (t e : Nat) (c : Cmd) (s : State) =>
      ((s.at t).plainEpoch = true) ∧ (s.cmd.deferred = []) ∧ (s.cmd.started = [⟨c, some e⟩]) ∧ (e ≤ (s.at t).stcMsec) ∧ (c.op = 0x05) ∧ (s.cmd.mode = .hold) ∧ (clockReady s = true))
      70000000000 1 ⟨5,1,false,.spi,5,0,0⟩ { Tests.inMode .hold with time := { Tests.up.time with st := .locked }, cmd := { (Tests.inMode .hold).cmd with started := [⟨⟨5,1,false,.spi,5,0,0⟩, some 1⟩] } } ∧
    (fun (t e : Nat) (c : Cmd) (s : State) =>
      ((s.at t).plainEpoch = true) ∧ (s.cmd.deferred = []) ∧ (s.cmd.started = [⟨c, some e⟩]) ∧ (e ≤ (s.at t).stcMsec) ∧ (c.op = 0x13))
      70000000000 1 ⟨0x13,1,false,.spi,16,0,0⟩ { Tests.inMode .run with cmd := { (Tests.inMode .run).cmd with resetting := [16], started := [⟨⟨0x13,1,false,.spi,16,0,0⟩, some 1⟩] } } ∧
    (fun (t e : Nat) (c : Cmd) (s : State) =>
      ((s.at t).plainEpoch = true) ∧ (s.cmd.deferred = []) ∧ (s.cmd.started = [⟨c, some e⟩]) ∧ (e ≤ (s.at t).stcMsec) ∧ (c.op = 0x03) ∧ (s.cmd.mode = .run ∨ s.cmd.mode = .hold))
      70000000000 1 ⟨3,1,false,.spi,0,0,0⟩ { (Tests.inMode .run).wr 0x710000 0x1234 with cmd := { (Tests.inMode .run).cmd with started := [⟨⟨3,1,false,.spi,0,0,0⟩, some 1⟩] } } :=
  ⟨by decide +kernel, by decide +kernel, by decide +kernel, by decide +kernel, by decide +kernel, by decide +kernel, by decide +kernel⟩

theorem witness_CopyJournalAndUnlockedStart :
    (fun (_ _ : Nat) (_ : Image) (_ : Cmd) (_ : Option Nat) (s : State) =>
      (s.cmd.copying = true))
      5 3 ⟨1,7,0,0,0,[],99,0,true,true⟩ ⟨5,1,false,.spi,0,0,0⟩ none { Tests.inMode .run with cmd := { (Tests.inMode .run).cmd with copying := true } } ∧
    (fun (_ _ : Nat) (i : Image) (_ : Cmd) (_ : Option Nat) (s : State) =>
      (s.cmd.imgJob = some ⟨i, none⟩) ∧ (i.kind = 1) ∧ (s.nand.ready = true) ∧ (s.cmd.imgWait = none) ∧ (s.cmd.sleeping = false) ∧ ((∀ x ∈ s.cmd.started, x.cmd.op ≠ 0x0F)))
      5 3 ⟨1,7,0,0,0,[],99,0,true,true⟩ ⟨5,1,false,.spi,0,0,0⟩ none { Tests.medium with cmd := { Tests.medium.cmd with imgJob := some ⟨⟨1,7,0,0,0,[],99,0,true,true⟩, none⟩ } } ∧
    (fun (t a : Nat) (_ : Image) (c : Cmd) (e : Option Nat) (s : State) =>
      (s.cmd.startWait = some a) ∧ (s.cmd.dirty = false) ∧ (s.cmd.mode = .hold) ∧ (clockReady s = false) ∧ (s.domOn 1 = true) ∧ (a + secs 10 ≤ (s.at t).now) ∧ (s.cmd.queue = []) ∧ (s.cmd.deferred = []) ∧ (s.cmd.started = [⟨c, e⟩]) ∧ (c.op = 0x05))
      700000000000000 3 ⟨1,7,0,0,0,[],99,0,true,true⟩ ⟨5,1,false,.spi,0,0,0⟩ none { Tests.inMode .hold with cmd := { (Tests.inMode .hold).cmd with startWait := some 3, started := [⟨⟨5,1,false,.spi,0,0,0⟩, none⟩] } } :=
  ⟨by decide +kernel, by decide +kernel, by decide +kernel⟩

theorem witness_LockstepAndAutomaticBoot :
    (fun (_ _ : Nat) (s : State) =>
      (s.domOn 1 = true) ∧ (s.cmd.mode = .run))
      70 3 (Tests.inMode .run) ∧
    (fun (_ _ : Nat) (s : State) =>
      (s.domOn 1 = true) ∧ (s.cmd.restarting = true) ∧ (s.calm = true) ∧ (s.cmd.heldAborts = []))
      70 3 { Tests.inMode .run with cmd := { (Tests.inMode .run).cmd with restarting := true } } ∧
    (fun (t a : Nat) (s : State) =>
      (s.domOn 1 = true) ∧ (s.cmd.restarting = false) ∧ (s.cmd.restartAt = some a) ∧ (a + secs 1 ≤ (s.at t).now))
      70000000000000 3 { Tests.inMode .safe with cmd := { (Tests.inMode .safe).cmd with restartAt := some 3, safeCause := 0x3F } } ∧
    (fun (_ _ : Nat) (s : State) =>
      (s.domOn 1 = true) ∧ (s.cmd.restarting = false) ∧ (s.cmd.mode = .boot) ∧ (s.cmd.waitLoad = false) ∧ (s.cmd.loading = none) ∧ (s.cmd.safeCause % 4 = 0) ∧ (s.cmd.wakeBoot = false) ∧ (s.cmd.started = []) ∧ (s.cmd.deferred = []) ∧ (s.cmd.queue = []) ∧ (s.cmd.dirty = false) ∧ (s.chip.straps.bootSel = 1))
      70000000000000 3 { Tests.inMode .boot with chip := { Tests.up.chip with straps := ⟨1,0,0,false,false⟩ } } ∧
    (fun (_ a : Nat) (s : State) =>
      (s.domOn 1 = true) ∧ (s.cmd.restarting = false) ∧ (s.cmd.mode = .boot) ∧ (s.cmd.waitLoad = false) ∧ (s.cmd.loading = none) ∧ (s.cmd.safeCause % 4 = 0) ∧ (s.cmd.wakeBoot = false) ∧ (s.cmd.started = []) ∧ (s.cmd.deferred = []) ∧ (s.cmd.queue = []) ∧ (s.cmd.dirty = false) ∧ (s.chip.straps.bootSel = 0) ∧ (s.aon.prefCfg = some (a % 2)))
      70000000000000 3 { Tests.inMode .boot with aon := { Tests.up.aon with prefCfg := some 1 } } :=
  ⟨by decide +kernel, by decide +kernel, by decide +kernel, by decide +kernel, by decide +kernel⟩

theorem witness_MdioFrames :
    (fun (_ _ _ : Nat) (_ : Path) (s : State) =>
      (s.plainWrite bMACM = true) ∧ (s.macM.mdioBusy = false))
      5 0xFFFFFFFF 77 .spi (Tests.inMode .run) ∧
    (fun (t _ _ : Nat) (_ : Path) (s : State) =>
      (s.now < t) ∧ ((s.at t).blkOn bMACM = true) ∧ (s.macM.mdioBusy = true) ∧ (s.macM.mdioRead = true))
      5 0x12340000 77 .pcie (let s := Tests.inMode .run; { s with macM := { s.macM with mdioBusy := true, mdioRead := true } }) ∧
    (fun (t _ _ : Nat) (_ : Path) (s : State) =>
      (s.now < t) ∧ ((s.at t).blkOn bMACM = true) ∧ (s.macM.mdioBusy = true) ∧ (s.macM.mdioRead = false))
      5 0x12340000 77 .pcie (let s := Tests.inMode .run; { s with macM := { s.macM with mdioBusy := true, mdioRead := false } }) :=
  ⟨by decide +kernel, by decide +kernel, by decide +kernel⟩

theorem witness_StreamAndFabricWrites :
    (fun (_ v k : Nat) (_ : Bool) (_ : Path) (s : State) =>
      ((twinned s && s.twin.role == .standby) = false) ∧ (s.plainWrite (portBlk k) = true) ∧ (k < 2) ∧ (MAC.MAC_CTL_RATE.get (BitVec.ofNat 32 v) ≠ s.fld (MAC.MAC_CTL k) MAC.MAC_CTL_RATE) ∧ (MAC.MAC_CTL_RATE.get (BitVec.ofNat 32 v) ≤ s.variant.media) ∧ (linkUp s k = false))
      5 0x0A 1 true .pcie (Tests.inMode .run) ∧
    (fun (_ v k : Nat) (rx : Bool) (_ : Path) (s : State) =>
      (((twinned s && s.twin.role == .standby) = false) ∧ (s.plainWrite (if rx then bSRX else bSTX) = true) ∧ (k < 32)) ∧
      (((twinned s && s.twin.role == .standby) = false) ∧ (s.plainWrite bFAB = true) ∧ (k < 256) ∧ (merged (s.rd (FAB.FLOW_W0 k)) 0x1FFFFFFF (BitVec.ofNat 32 v) ≠ s.rd (FAB.FLOW_W0 k))))
      5 0xF3 1 true .pcie (Tests.inMode .run) ∧
    (fun (_ v _ : Nat) (_ : Bool) (_ : Path) (s : State) =>
      ((twinned s && s.twin.role == .standby) = false) ∧ (s.plainWrite bDSPC = true) ∧ (s.fld DSPC.CW_APPLY DSPC.CW_APPLY_GO = 0) ∧ ((nodeP s (DSPC.CW_APPLY_NODE.get (BitVec.ofNat 32 v))).isSome = true))
      5 0x5 1 true .pcie Tests.running :=
  ⟨by decide +kernel, by decide +kernel, by decide +kernel⟩

theorem witness_TimeBlockWrites :
    (fun (_ v k : Nat) (_ : Path) (s : State) =>
      ((s.plainWrite bTIME = true) ∧ ((twinned s && s.twin.role == .standby) = false) ∧ (v < 2 ^ 32) ∧ (k < 16) ∧ (merged (s.rd (TIME.REF_CFG k)) 0x7FFF (BitVec.ofNat 32 v) ≠ s.rd (TIME.REF_CFG k))) ∧
      ((s.plainWrite bTIME = true) ∧ ((twinned s && s.twin.role == .standby) = false) ∧ (v < 2 ^ 32) ∧ (k < 6) ∧ (ptpHere s k = true) ∧ (merged (s.rd (TIME.PTP_CTL k)) 0x1FFFF (BitVec.ofNat 32 v) ≠ s.rd (TIME.PTP_CTL k))) ∧
      ((s.plainWrite bTIME = true) ∧ ((twinned s && s.twin.role == .standby) = false) ∧ (v < 2 ^ 32)) ∧
      ((s.plainWrite bTIME = true) ∧ ((twinned s && s.twin.role == .standby) = false) ∧ (v < 2 ^ 32) ∧ (k < 4)))
      5 0xFFFFFFFF 3 .spi (Tests.inMode .run) := by decide +kernel

theorem witness_ClkBlockWrites :
    (fun (_ v k : Nat) (_ : Path) (s : State) =>
      ((s.plainWrite bCLK = true) ∧ ((twinned s && s.twin.role == .standby) = false) ∧ (v < 2 ^ 32)) ∧
      ((s.plainWrite bCLK = true) ∧ ((twinned s && s.twin.role == .standby) = false) ∧ (v < 2 ^ 32) ∧ (1 ≤ k) ∧ (k < 4)) ∧
      ((s.plainWrite bCLK = true) ∧ ((twinned s && s.twin.role == .standby) = false) ∧ (v < 2 ^ 32) ∧ (k < 16)))
      5 0xFFFFFFFF 3 .spi (Tests.inMode .run) ∧
    (fun (_ v k : Nat) (_ : Path) (s : State) =>
      ((s.plainWrite bCLK = true) ∧ ((twinned s && s.twin.role == .standby) = false) ∧ (v < 2 ^ 32)) ∧ 
  let w := BitVec.ofNat 32 v
  (1 ≤ k) ∧ (k < 4) ∧ (CLK.MSY_CTL_UPD.get w = 0) ∧ (s.fld (msyCtlA k) CLK.MSY_CTL_UPD = 0) ∧ (CLK.MSY_CTL_EN.get w ≠ s.fld (msyCtlA k) CLK.MSY_CTL_EN))
      5 1 3 .spi (Tests.inMode .run) :=
  ⟨by decide +kernel, by decide +kernel⟩

theorem witness_AportWrites :
    (fun (_ v x : Nat) (_ : Path) (s : State) =>
      ((s.plainWrite bAPORT = true) ∧ ((twinned s && s.twin.role == .standby) = false) ∧ (x < 88) ∧ (sideHere s x = true)) ∧
      ((s.plainWrite bAPORT = true) ∧ ((twinned s && s.twin.role == .standby) = false) ∧ (x < 64) ∧ (sideHere s x = true) ∧ (s.fld (APORT.SIDE_BLOCK x) APORT.SIDE_BLOCK_CH_CAP < popcount 32 (maskEff s x (v % 2 ^ 32)))) ∧
      ((s.plainWrite bAPORT = true) ∧ ((twinned s && s.twin.role == .standby) = false) ∧ (x < 1296) ∧ (outHere s x = true)))
      5 0xFFFFFFFF 3 .spi (Tests.inMode .run) ∧
    (fun (_ v x : Nat) (_ : Path) (s : State) =>
      (s.plainWrite bAPORT = true) ∧ ((twinned s && s.twin.role == .standby) = false) ∧ (x < 64) ∧ (sideHere s x = true) ∧ (popcount 32 (maskEff s x (v % 2 ^ 32)) ≤ s.fld (APORT.SIDE_BLOCK x) APORT.SIDE_BLOCK_CH_CAP))
      5 0x3 2 .spi ((Tests.inMode .run).wr (APORT.SIDE_BLOCK 2) (APORT.SIDE_BLOCK_CH_CAP.put 0x10 2)) :=
  ⟨by decide +kernel, by decide +kernel⟩

theorem witness_RingAndVectorWrites :
    (fun (_ v r : Nat) (_ : Path) (s : State) =>
      (s.plainWrite bDMA = true) ∧ (r < 224) ∧ ((v % 65536 + 65536 - ringHead s r) % 65536 ≤ 2 ^ s.fld (DMA.RING_SIZE r) DMA.RING_SIZE_LOG2))
      5 0 0 .spi (Tests.inMode .run) ∧
    (fun (_ v r : Nat) (_ : Path) (s : State) =>
      (s.plainWrite bDMA = true) ∧ (r < 224) ∧ (2 ^ s.fld (DMA.RING_SIZE r) DMA.RING_SIZE_LOG2 < (v % 65536 + 65536 - ringHead s r) % 65536))
      5 17 200 .spi (Tests.inMode .run) ∧
    (fun (_ _ r : Nat) (_ : Path) (s : State) =>
      (s.plainWrite bDMA = true) ∧ (r < 256) ∧ (ringEn s r = false) ∧ (isAudioRing r = false ∨ (ringDef s r).isSome = true))
      5 16 200 .spi (Tests.inMode .run) ∧
    (fun (_ _ r : Nat) (_ : Path) (s : State) =>
      (s.plainWrite bDMA = true) ∧ (r < 256) ∧ (ringEn s r = true))
      5 17 230 .spi ((Tests.inMode .run).setFld (DMA.RING_CTL 230) DMA.RING_CTL_EN 1) ∧
    (fun (_ _ r : Nat) (_ : Path) (s : State) =>
      (s.plainWrite bDMA = true) ∧ (r < 64) ∧ (bit s.dma.pend r = true) ∧ (s.dma.fmask = false) ∧ (s.dma.msixEn = true) ∧ (s.dma.linkUp = true))
      5 0 63 .spi (let s := Tests.inMode .run; { s with dma := { s.dma with pend := 2 ^ 63, msixEn := true, linkUp := true, fmask := false } }) :=
  ⟨by decide +kernel, by decide +kernel, by decide +kernel, by decide +kernel, by decide +kernel⟩

theorem witness_FabricAndTwinWrites :
    (fun (t v : Nat) (_ : Path) (s : State) =>
      (s.plainWrite bFAB = true) ∧ (fabPart s = true) ∧ (FAB.CTL_EN.get (BitVec.ofNat 32 v) = 1) ∧ ((fabReach (s.at t)).length ≤ 64))
      5 0x1 .spi (((Tests.inMode .run)).wr FAB.CTL 1) ∧
    (fun (t v : Nat) (p : Path) (s : State) =>
      (s.plainWrite bTWIN = true) ∧ (twinned s = true) ∧ (armed (s.at t) p = true) ∧ (v % 8 = 5) ∧ (s.twin.gander = .lost) ∧ (s.twin.peerSeen = false) ∧ (s.twin.lostFrom + secs 1 ≤ (s.at t).now))
      70000000000000 0x25 .spi (let s := Tests.pair .standby; { s with host := { s.host with spiP := { s.host.spiP with armedTill := some 70000000001000 } }, twin := { s.twin with gander := .lost } }) ∧
    (fun (t v : Nat) (p : Path) (s : State) =>
      (s.plainWrite bTWIN = true) ∧ (twinned s = true) ∧ (armed (s.at t) p = true) ∧ (v % 8 = 5) ∧ (s.twin.gander ≠ .lost ∨ s.twin.peerSeen = true ∨ (s.at t).now < s.twin.lostFrom + secs 1))
      7000000000 0x25 .spi (let s := Tests.pair .standby; { s with host := { s.host with spiP := { s.host.spiP with armedTill := some 70000000001000 } } }) ∧
    (fun (_ _ : Nat) (_ : Path) (s : State) =>
      (s.plainWrite bTWIN = true) ∧ (s.twin.role = .active))
      5 0x25 .spi (Tests.pair .active) :=
  ⟨by decide +kernel, by decide +kernel, by decide +kernel, by decide +kernel⟩

theorem witness_MediumWrites :
    (fun (t v : Nat) (p : Path) (s : State) =>
      ((s.plainWrite bSTORE = true) ∧ (s.nand.xferBusy = false)) ∧
      ((s.plainWrite bSTORE = true) ∧ (armed (s.at t) p = true) ∧ (s.nand.ready = true) ∧ (s.nand.fault = false) ∧ (1 ≤ v % 8) ∧ (v % 8 < 4) ∧ (loadReads s (v % 8) = false) ∧ (s.nand.gone = []) ∧ ((s.nand.endurance = 0 ∨ (partBlks s (v % 8) < s.nand.endurance ∧ ∀ e ∈ s.nand.wear, e.2 + partBlks s (v % 8) < s.nand.endurance)))) ∧
      ((s.plainWrite bSTORE = true) ∧ (armed (s.at t) p = true) ∧ (s.nand.ready = true) ∧ (s.nand.fault = false) ∧ (s.cmd.loading = none)))
      5 3 .spi (let s := Tests.medium; { s with nand := { s.nand with cells := [(2^32+3,5),(3*2^32+3,7)] }, host := { s.host with spiP := { s.host.spiP with armedTill := some 70000000001000 } } }) ∧
    (fun (t _ : Nat) (p : Path) (s : State) =>
      (s.plainWrite bSTORE = true) ∧ (armed (s.at t) p = false))
      5 3 .spi Tests.medium :=
  ⟨by decide +kernel, by decide +kernel⟩

theorem witness_DomainWrites :
    (fun (t v d : Nat) (p : Path) (s : State) =>
      ((s.plainWrite bPWR = true) ∧ ((∀ b, b < 12 → 3 ≤ b → bit (s.rd PWR.DOM_REQ).toNat b = true → bit v b = true)) ∧ ((∀ b, b < 12 → 3 ≤ b → bit s.pwr.on b = true → domDue s b = true))) ∧
      ((s.plainWrite bPWR = true) ∧ ((∀ b, b < 12 → 3 ≤ b → bit (s.rd PWR.DOM_REQ).toNat b = true → bit v b = true)) ∧ ((∀ b, b < 12 → 3 ≤ b → bit s.pwr.on b = true → domDue s b = true)) ∧ (armed (s.at t) p = true) ∧ (3 ≤ d) ∧ (d < 12) ∧ (v = 2 ^ d) ∧ (s.rd PWR.DOM_FORCE = 0) ∧ (domHere s d = true) ∧ (domInUse s d = true) ∧ (bit s.pwr.on d = true) ∧ (bit s.pwr.forcedOff d = false)))
      5 0x8 3 .spi (let s := Tests.inMode .run; { s with host := { s.host with spiP := { s.host.spiP with armedTill := some 70000000001000 } }, pwr := { s.pwr with placed := 4095, pcieUp := true } }) := by decide +kernel

theorem witness_RegisterWriteOutcomes :
    (fun (t a be _ view : Nat) (p : Path) (s : State) =>
      ((s.live = true) ∧ (s.cmd.mode ≠ .sleep) ∧ (s.cmd.dirty = false) ∧ (s.domOn 1 = true) ∧ (be < 16) ∧ (s.plainWrite bROUTE = true) ∧ ((twinned s && s.twin.role == .standby) = false) ∧ (s.cmd.copying = false) ∧ (0x910000 ≤ a) ∧ (a < 0x91C000) ∧ (a % 4 = 0)) ∧
      ((s.live = true) ∧ (s.cmd.mode ≠ .sleep) ∧ (s.cmd.dirty = false) ∧ (s.domOn 1 = true) ∧ (be < 16) ∧ (s.plainWrite bROUTE = true) ∧ ((twinned s && s.twin.role == .standby) = false) ∧ (s.cmd.copying = false) ∧ (0x910000 ≤ a) ∧ (a < 0x91C000) ∧ (a % 4 = 0) ∧ (1 ≤ view) ∧ (view < 4)) ∧
      ((s.live = true) ∧ (s.cmd.mode ≠ .sleep) ∧ (s.cmd.dirty = false) ∧ (s.domOn 1 = true) ∧ (be < 16) ∧ (armed (s.at t) p = false)))
      5 0x910000 15 0xFFFFFFFF 1 .spi (Tests.inMode .run) ∧
    (fun (_ a be _ _ : Nat) (_ : Path) (s : State) =>
      (s.live = true) ∧ (s.cmd.mode ≠ .sleep) ∧ (s.cmd.dirty = false) ∧ (s.domOn 1 = true) ∧ (be < 16) ∧ (a < 0x1300000) ∧ (s.present (blkOf a) = false))
      5 0xE00100 15 0xFFFFFFFF 1 .spi { Tests.inMode .run with chip := { Tests.up.chip with fuses := { Tests.up.chip.fuses with code := 1 } } } ∧
    (fun (_ a be _ _ : Nat) (_ : Path) (s : State) =>
      (s.live = true) ∧ (s.cmd.mode ≠ .sleep) ∧ (s.cmd.dirty = false) ∧ (s.domOn 1 = true) ∧ (be < 16) ∧ (0x1300000 ≤ a) ∧ (a < 2 ^ 26) ∧ (bit (s.rd SYS.ACC_FAULT_INFO).toNat 31 = false))
      5 0x3FFFFFC 3 0xFFFFFFFF 1 .spi (Tests.inMode .run) ∧
    (fun (_ _ be _ _ : Nat) (_ : Path) (s : State) =>
      (s.live = true) ∧ (s.cmd.mode ≠ .sleep) ∧ (s.cmd.dirty = false) ∧ (s.domOn 1 = true) ∧ (be < 16) ∧ (s.present bSTX = true) ∧ (s.domOn 5 = false))
      5 0x0 3 0xFFFFFFFF 1 .spi State.reset :=
  ⟨by decide +kernel, by decide +kernel, by decide +kernel, by decide +kernel⟩

theorem witness_UnlockAndReadEffects :
    (fun (t v k : Nat) (p : Path) (s : State) =>
      ((s.plainWrite bSYS = true)) ∧
      ((s.plainWrite bSYS = true) ∧ (v < 2 ^ 32) ∧ (v ≠ 0xC3A5)) ∧
      ((s.plainWrite bSYS = true) ∧ (armed (s.at t) p = false)) ∧
      ((s.plainWrite bSYS = true) ∧ (s.now < t)) ∧
      ((s.plainWrite bSYS = true) ∧ (k < s.variant.tiles) ∧ (s.plainWrite bDSPC = true)))
      5 0 31 .spi (let s := Tests.inMode .run; { s with host := { s.host with attn := true, attnSeen := true } }) := by decide +kernel

theorem witness_ParityScanFindsFlips :
    (fun (_ _ _ : Nat) (s : State) =>
      (s.domOn 1 = true) ∧ (s.cmd.mode ≠ .sleep) ∧ (s.calm = true) ∧ (s.host.corrupt = []) ∧ (s.cmd.started = []) ∧ (s.cmd.deferred = []))
      5 SYS.CMD_STATUS 31 (Tests.inMode .run) ∧
    (fun (_ a k : Nat) (s : State) =>
      (s.domOn 1 = true) ∧ (s.cmd.mode ≠ .sleep) ∧ (s.calm = true) ∧ (s.host.corrupt = []) ∧ (s.cmd.started = []) ∧ (s.cmd.deferred = []) ∧ (parityReg s a = true) ∧ (isShadow a = false) ∧ (k < 32) ∧ (blkOf a < 19))
      5 PWR.WAKE_EN 31 (Tests.inMode .run) :=
  ⟨by decide +kernel, by decide +kernel⟩

theorem witness_SpiTransactions :
    (fun (_ op a _ : Nat) (s : State) =>
      (
((s.live = true) ∧ (s.cmd.dirty = false) ∧ (s.cmd.mode ≠ .sleep) ∧ (s.domOn 1 = true)) ∧ 
  let x := s.host.spi
  (x.csLow = false) ∧ (x.wait = []) ∧ (op = 0x02 ∨ op = 0x03 ∨ op = 0x12 ∨ op = 0x13) ∧ (a < 2 ^ 26) ∧ (a % 4 = 0)) ∧
      ((s.live = true) ∧ (s.cmd.dirty = false) ∧ (s.cmd.mode ≠ .sleep) ∧ (s.domOn 1 = true)))
      5 2 0x3FFFFFC 0 (Tests.inMode .run) ∧
    (fun (_ op _ _ : Nat) (s : State) =>
      ((s.live = true) ∧ (s.cmd.dirty = false) ∧ (s.cmd.mode ≠ .sleep) ∧ (s.domOn 1 = true)) ∧ 
  let x := s.host.spi
  (x.csLow = false) ∧ (x.wait = []) ∧ (op ∉ [0x02, 0x03, 0x05, 0x12, 0x13, 0x9F]))
      5 0xFF 0x3FFFFFF 0 (Tests.inMode .run) ∧
    (fun (_ _ _ _ : Nat) (s : State) =>
      ((s.live = true) ∧ (s.cmd.dirty = false) ∧ (s.cmd.mode ≠ .sleep) ∧ (s.domOn 1 = true)) ∧ 
  let x := s.host.spi
  (x.csLow = true) ∧ (x.opcode = 0x05))
      5 2 0x3FFFFFC 7 (let s := Tests.inMode .run; { s with host := { s.host with spi := { s.host.spi with csLow := true, opcode := 0x05, addr := 0 } } }) ∧
    (fun (_ _ _ _ : Nat) (s : State) =>
      ((s.live = true) ∧ (s.cmd.dirty = false) ∧ (s.cmd.mode ≠ .sleep) ∧ (s.domOn 1 = true)) ∧ 
  let x := s.host.spi
  (x.csLow = true) ∧ (x.opcode = 0x9F))
      5 2 0x3FFFFFC 7 (let s := Tests.inMode .run; { s with host := { s.host with spi := { s.host.spi with csLow := true, opcode := 0x9F, addr := 0 } } }) ∧
    (fun (_ _ _ v : Nat) (s : State) =>
      ((s.live = true) ∧ (s.cmd.dirty = false) ∧ (s.cmd.mode ≠ .sleep) ∧ (s.domOn 1 = true)) ∧ 
  let x := s.host.spi
  (x.csLow = true) ∧ (x.refused = false) ∧ (x.wait = []) ∧ (x.opcode = 0x02) ∧ (x.addr = SYS.CMD_ARG0) ∧ (s.host.corrupt = []) ∧ (v < 2 ^ 32))
      5 2 0x3FFFFFC 7 (let s := Tests.inMode .run; { s with host := { s.host with spi := { s.host.spi with csLow := true, opcode := 2, addr := SYS.CMD_ARG0 } } }) ∧
    (fun (_ _ _ _ : Nat) (s : State) =>
      ((s.live = true) ∧ (s.cmd.dirty = false) ∧ (s.cmd.mode ≠ .sleep) ∧ (s.domOn 1 = true)) ∧ 
  let x := s.host.spi
  (x.csLow = true) ∧ (x.refused = false) ∧ (x.wait = []) ∧ (x.opcode = 0x03) ∧ (x.addr = SYS.CHIP))
      5 2 0x3FFFFFC 7 (let s := Tests.inMode .run; { s with host := { s.host with spi := { s.host.spi with csLow := true, opcode := 3, addr := SYS.CHIP } } }) ∧
    (fun (_ _ _ v : Nat) (s : State) =>
      ((s.live = true) ∧ (s.cmd.dirty = false) ∧ (s.cmd.mode ≠ .sleep) ∧ (s.domOn 1 = true)) ∧ 
  let x := s.host.spi
  (x.csLow = true) ∧ (x.refused = false) ∧ (x.wait = []) ∧ (x.opcode = 0x02) ∧ (s.plainWrite bSTX = true) ∧ (x.addr = STX.CAUSE_EN) ∧ (v < 2 ^ 32))
      5 2 0x3FFFFFC 7 (let s := Tests.inMode .run; { s with host := { s.host with spi := { s.host.spi with csLow := true, opcode := 2, addr := STX.CAUSE_EN } } }) ∧
    (fun (_ _ _ v : Nat) (s : State) =>
      ((s.live = true) ∧ (s.cmd.dirty = false) ∧ (s.cmd.mode ≠ .sleep) ∧ (s.domOn 1 = true)) ∧ 
  let x := s.host.spi
  (x.csLow = true) ∧ (x.refused = false) ∧ (x.wait = []) ∧ (x.opcode = 0x12) ∧ (winStatus s x.addr = 0) ∧ (x.addr < 0x3000000) ∧ (v < 2 ^ 32))
      5 2 0x3FFFFFC 7 (let s := Tests.inMode .run; { s with host := { s.host with spi := { s.host.spi with csLow := true, opcode := 0x12, addr := 0x2FFFFFC } } }) ∧
    (fun (_ _ _ _ : Nat) (s : State) =>
      ((s.live = true) ∧ (s.cmd.dirty = false) ∧ (s.cmd.mode ≠ .sleep) ∧ (s.domOn 1 = true)) ∧ 
  let x := s.host.spi
  (x.csLow = true) ∧ (x.refused = false) ∧ (x.wait = []) ∧ (x.opcode = 0x13) ∧ (winStatus s x.addr = 0) ∧ (x.addr < 0x3000000))
      5 2 0x3FFFFFC 7 (let s := Tests.inMode .run; { s with host := { s.host with spi := { s.host.spi with csLow := true, opcode := 0x13, addr := 0 } } }) :=
  ⟨by decide +kernel, by decide +kernel, by decide +kernel, by decide +kernel, by decide +kernel, by decide +kernel, by decide +kernel, by decide +kernel, by decide +kernel⟩

theorem witness_CrossingsAndBars :
    (fun (_ a v n e : Nat) (s : State) =>
      ((s.live = true) ∧ (s.cmd.dirty = false) ∧ (s.cmd.mode ≠ .sleep) ∧ (s.domOn 1 = true) ∧ (s.host.spi.wait = [⟨true, true, a, 15, v, 4, e⟩]) ∧ (s.host.spi.refused = false) ∧ (a % 4 = 0) ∧ (a < 0x2FFFFFF) ∧ (s.domOn 6 = true)) ∧
      ((s.live = true) ∧ (s.cmd.dirty = false) ∧ (s.cmd.mode ≠ .sleep) ∧ (s.domOn 1 = true) ∧ (s.host.queue = []) ∧ (s.host.corrupt = []) ∧ (v < 2 ^ 32)) ∧
      ((s.live = true) ∧ (s.cmd.dirty = false) ∧ (s.cmd.mode ≠ .sleep) ∧ (s.domOn 1 = true) ∧ (s.host.queue = [])) ∧
      ((s.live = true) ∧ (s.cmd.dirty = false) ∧ (s.cmd.mode ≠ .sleep) ∧ (s.domOn 1 = true) ∧ (s.host.queue = []) ∧ (16 < n)))
      5 0x2FFFFFC 0x01020304 17 3 (let s := Tests.inMode .run; { s with mem := [(5,3)], host := { s.host with spi := { s.host.spi with csLow := true, opcode := 0x12, addr := 0x3000000, wait := [⟨true, true, 0x2FFFFFC, 15, 0x01020304, 4, 3⟩] } } }) ∧
    (fun (_ a v _ e : Nat) (s : State) =>
      (s.live = true) ∧ (s.cmd.dirty = false) ∧ (s.cmd.mode ≠ .sleep) ∧ (s.domOn 1 = true) ∧ (s.host.queue = [⟨true, 0, [⟨true, true, a, 3, v, 2, e⟩], []⟩]) ∧ (s.host.spi.wait = []) ∧ (a < 0x2FFFFFE) ∧ (s.domOn 6 = true))
      5 4 0x01020304 17 3 (let s := Tests.inMode .run; { s with mem := [(5,3)], host := { s.host with queue := [⟨true, 0, [⟨true, true, 4, 3, 0x01020304, 2, 3⟩], []⟩] } }) ∧
    (fun (_ a _ _ e : Nat) (s : State) =>
      (s.live = true) ∧ (s.cmd.dirty = false) ∧ (s.cmd.mode ≠ .sleep) ∧ (s.domOn 1 = true) ∧ (s.host.queue = [⟨false, 2, [⟨false, true, a, 3, 0, 2, e⟩], []⟩]) ∧ (s.host.spi.wait = []) ∧ (a < 0x2FFFFFE) ∧ (s.domOn 6 = true))
      5 4 0x01020304 17 3 (let s := Tests.inMode .run; { s with mem := [(5,3)], host := { s.host with queue := [⟨false, 2, [⟨false, true, 4, 3, 0, 2, 3⟩], []⟩] } }) ∧
    (fun (_ a _ n _ : Nat) (s : State) =>
      ((s.live = true) ∧ (s.cmd.dirty = false) ∧ (s.cmd.mode ≠ .sleep) ∧ (s.domOn 1 = true) ∧ (s.host.queue = []) ∧ (a < 0x2FFFF00) ∧ (s.domOn 6 = true) ∧ (0 < n)) ∧
      ((s.live = true) ∧ (s.cmd.dirty = false) ∧ (s.cmd.mode ≠ .sleep) ∧ (s.domOn 1 = true) ∧ (s.host.queue = []) ∧ (a < 0x2FFFF00) ∧ (s.domOn 6 = true)))
      5 4 0x01020304 17 3 { Tests.inMode .run with mem := [(5,3)] } :=
  ⟨by decide +kernel, by decide +kernel, by decide +kernel, by decide +kernel⟩

theorem witness_PortTransmission :
    (fun (t p q a b _ _ : Nat) (_ : TxFrame) (s : State) =>
      ((p < 3)) ∧ 
  let m := s.mac p
  let at25 := (max s.now t) * 25
  (m.pauses = [(q, (a, b))]) ∧ (b ≤ at25))
      700000 1 3 100 700 0 0 ⟨.control, [1,2], 64, false⟩ (let s := Tests.inMode .run; s.setMac 1 { s.mac 1 with pauses := [(3, (100, 700))] }) ∧
    (fun (t p q _ _ _ _ : Nat) (f : TxFrame) (s : State) =>
      ((p < 3)) ∧ 
  let m := s.mac p
  let at25 := (max s.now t) * 25
  (s.blkOn (portBlk p) = true) ∧ (linkUp s p = true) ∧ (txEn s p = true) ∧ (m.cur = none) ∧ (m.lineFree ≤ at25) ∧ (m.queues = [(q, [f])]) ∧ (q < 8) ∧ (f.src = .control) ∧ (f.bytes.length ≤ f.staged) ∧ (m.pauses = []) ∧ (s.fld (MAC.GCL_STATUS p) MAC.GCL_STATUS_LEN = 0) ∧ (clearOfStreams (s.at t) p q f.line.length = true))
      700000 1 3 700 100 0 0 ⟨.control, [1,2], 64, false⟩ (let s := (((Tests.inMode .run).setFld (MAC.MAC_STATUS 1) MAC.MAC_STATUS_LINK 1).setFld (MAC.MAC_CTL 1) MAC.MAC_CTL_TX_EN 1); s.setMac 1 { s.mac 1 with queues := [(3, [⟨.control, [1,2], 64, false⟩])] }) ∧
    (fun (t p _ _ _ _ _ : Nat) (f : TxFrame) (s : State) =>
      ((p < 3)) ∧ 
  let m := s.mac p
  let at25 := (max s.now t) * 25
  (m.cur = some f) ∧ (m.queues = []) ∧ (f.src = .control) ∧ (m.lineFree ≤ at25))
      700000 2 7 700 100 0 1 ⟨.control, [1,2], 64, false⟩ (let s := (((Tests.inMode .run).setFld (MAC.MAC_STATUS 2) MAC.MAC_STATUS_LINK 1).setFld (MAC.MAC_CTL 2) MAC.MAC_CTL_TX_EN 1); s.setMac 2 { s.mac 2 with cur := some ⟨.control, [1,2], 64, false⟩ }) ∧
    (fun (t p _ a b _ _ : Nat) (_ : TxFrame) (s : State) =>
      ((p < 3)) ∧ 
  let m := s.mac p
  let n := m.pausedRem + (b - max a m.pausedTo)
  let upTo := fun n => (((gateList s p).take n).map (fun e => e.1)).sum * 2 ^ 56
  (s.fld (MAC.GCL_STATUS p) MAC.GCL_STATUS_LEN ≠ 0) ∧ (gatePos (s.at t) p < upTo (s.fld (MAC.GCL_STATUS p) MAC.GCL_STATUS_LEN)))
      7000000000 2 7 700 100 0 1 ⟨.control, [1,2], 64, false⟩ (let s := (((Tests.inMode .run).wr (MAC.GCL_STATUS 2) (MAC.GCL_STATUS_CYCLE_US.put (MAC.GCL_STATUS_LEN.put 0 2) 10)).wr (MAC.GCL_ENTRY 2 0) (MAC.GCL_ENTRY_INTERVAL.put 0 4000)).wr (MAC.GCL_ENTRY 2 1) (MAC.GCL_ENTRY_INTERVAL.put 0 6000); { s with time := { s.time with on := true, stc := 5000 * 2 ^ 56 } }) ∧
    (fun (t p _ _ _ _ sent : Nat) (f : TxFrame) (s : State) =>
      ((p < 3)) ∧ 
  let m := s.mac p
  let at25 := (max s.now t) * 25
  (s.now < t) ∧ (s.blkOn (portBlk p) = true) ∧ (m.cur = some f) ∧ (at25 < m.lineFree) ∧ (canUnderrun s p sent f = true) ∧ (srcCode f ≠ 3))
      700000 1 3 700 100 0 2080 ⟨.stream 9 7, List.replicate 2100 7, 2048, true⟩ (let s := Tests.inMode .run; s.setMac 1 { s.mac 1 with cur := some ⟨.stream 9 7, List.replicate 2100 7, 2048, true⟩, curQ := 5, lineFree := 20000000, queues := [(3, [⟨.control, [1,2], 64, false⟩])] }) :=
  ⟨by decide +kernel, by decide +kernel, by decide +kernel, by decide +kernel, by decide +kernel⟩

theorem witness_LinksAndReception :
    (fun (_ p q n k : Nat) (_ _ _ _ : Bool) (f : TxFrame) (_ : List Byte) (s : State) =>
      (
((p < 3) ∧ (s.blkOn (portBlk p) = true)) ∧ 
  let m := s.mac p
  (linkUp s p = true) ∧ (m.cur = none) ∧ (m.queues = [(q, [f])]) ∧ (f.src = .stream n k)) ∧
      ((p < 3) ∧ (s.blkOn (portBlk p) = true) ∧ (lpbk s p = false) ∧ (linkUp s p = false ∨ rxEn s p = false)))
      5 1 3 9 7 true true false true ⟨.stream 9 7, [1,2], 64, false⟩ [] (let s := (((Tests.inMode .run).setFld (MAC.MAC_STATUS 1) MAC.MAC_STATUS_LINK 1).setFld (MAC.MAC_CTL 1) MAC.MAC_CTL_TX_EN 1); s.setMac 1 { s.mac 1 with queues := [(3, [⟨.stream 9 7, [1,2], 64, false⟩])] }) ∧
    (fun (_ p _ _ _ : Nat) (_ _ _ _ : Bool) (_ : TxFrame) (_ : List Byte) (s : State) =>
      (p < 3) ∧ (s.blkOn (portBlk p) = true) ∧ (linkUp s p = false))
      5 0 3 9 7 true true false true ⟨.stream 9 7, [1,2], 64, false⟩ [] (Tests.inMode .run) ∧
    (fun (_ p _ _ _ : Nat) (_ _ _ _ : Bool) (_ : TxFrame) (_ : List Byte) (s : State) =>
      (p < 3) ∧ (s.blkOn (portBlk p) = true) ∧ (p < 2) ∧ (portRate s p = 2))
      5 0 3 9 7 true true false true ⟨.stream 9 7, [1,2], 64, false⟩ [] ((Tests.inMode .run).setFld (MAC.MAC_CTL 0) MAC.MAC_CTL_RATE 2) ∧
    (fun (_ p _ _ _ : Nat) (_ _ _ _ : Bool) (_ : TxFrame) (bs : List Byte) (s : State) =>
      ((p < 3) ∧ (s.blkOn (portBlk p) = true) ∧ (lpbk s p = false) ∧ (linkUp s p = true) ∧ (rxEn s p = true) ∧ (bs.length < 64)) ∧
      ((p < 3) ∧ (s.blkOn (portBlk p) = true) ∧ (lpbk s p = false) ∧ (linkUp s p = true) ∧ (rxEn s p = true)))
      5 0 3 9 7 true true false true ⟨.stream 9 7, [1,2], 64, false⟩ [1,2,3] (((Tests.inMode .run).setFld (MAC.MAC_CTL 0) MAC.MAC_CTL_RX_EN 1).setFld (MAC.MAC_STATUS 0) MAC.MAC_STATUS_LINK 1) ∧
    (fun (_ p _ _ _ : Nat) (_ _ _ _ : Bool) (_ : TxFrame) (bs : List Byte) (s : State) =>
      (p < 3) ∧ (s.blkOn (portBlk p) = true) ∧ (lpbk s p = false) ∧ (linkUp s p = true) ∧ (rxEn s p = true) ∧ (64 ≤ bs.length) ∧ (fcsOk bs = false))
      5 0 3 9 7 true true false true ⟨.stream 9 7, [1,2], 64, false⟩ (List.replicate 64 7) (((Tests.inMode .run).setFld (MAC.MAC_CTL 0) MAC.MAC_CTL_RX_EN 1).setFld (MAC.MAC_STATUS 0) MAC.MAC_STATUS_LINK 1) ∧
    (fun (_ p _ _ _ : Nat) (_ _ _ _ : Bool) (_ : TxFrame) (bs : List Byte) (s : State) =>
      (p < 3) ∧ (s.blkOn (portBlk p) = true) ∧ (lpbk s p = false) ∧ (linkUp s p = true) ∧ (rxEn s p = true) ∧ (64 ≤ bs.length) ∧ (fcsOk bs = true) ∧ (beAt bs 12 2 ≠ 0x8808) ∧ (addrOk s p bs = false))
      5 0 3 9 7 true true false true ⟨.stream 9 7, [1,2], 64, false⟩ (onLine (List.replicate 64 8)) (((Tests.inMode .run).setFld (MAC.MAC_CTL 0) MAC.MAC_CTL_RX_EN 1).setFld (MAC.MAC_STATUS 0) MAC.MAC_STATUS_LINK 1) ∧
    (fun (_ p _ _ _ : Nat) (_ _ _ _ : Bool) (_ : TxFrame) (bs : List Byte) (s : State) =>
      (p < 3) ∧ (s.blkOn (portBlk p) = true) ∧ (lpbk s p = false) ∧ (linkUp s p = true) ∧ (rxEn s p = true) ∧ (64 ≤ bs.length) ∧ (bs.length ≤ s.fld (MAC.MAX_FRAME p) MAC.MAX_FRAME_BYTES) ∧ (fcsOk bs = true) ∧ (beAt bs 12 2 ≠ 0x8808) ∧ (addrOk s p bs = true) ∧ (s.blkOn bSRX = false))
      5 0 3 9 7 true true false true ⟨.stream 9 7, [1,2], 64, false⟩ (onLine (List.replicate 12 1 ++ [0x88, 0xF7] ++ List.replicate 50 8)) (((({Tests.inMode .run with pwr := {(Tests.inMode .run).pwr with on := 4095 - 2^5}}).setFld (MAC.MAC_CTL 0) MAC.MAC_CTL_RX_EN 1).setFld (MAC.MAC_STATUS 0) MAC.MAC_STATUS_LINK 1).setFld (SRX.MGMT_POL 0) SRX.MGMT_POL_BURST 4) ∧
    (fun (t p _ _ k : Nat) (_ _ _ _ : Bool) (_ : TxFrame) (bs : List Byte) (s : State) =>
      (p < 3) ∧ (s.blkOn (portBlk p) = true) ∧ (lpbk s p = false) ∧ (linkUp s p = true) ∧ (rxEn s p = true) ∧ (64 ≤ bs.length) ∧ (bs.length ≤ s.fld (MAC.MAX_FRAME p) MAC.MAX_FRAME_BYTES) ∧ (fcsOk bs = true) ∧ (beAt bs 12 2 ≠ 0x8808) ∧ (addrOk s p bs = true) ∧ (s.blkOn bSRX = true) ∧ (builtIn (bs.take (bs.length - 4)) = some .ptp) ∧ ((∀ k, k < 16 → s.fld (SRX.KILL_CTL k) SRX.KILL_CTL_EN = 0)) ∧ ((mgmtBucket (s.at t) p).tok ≠ 0) ∧ (s.srx.rings = []) ∧ (bs.length ≤ 2048))
      5 0 3 9 7 true true false true ⟨.stream 9 7, [1,2], 64, false⟩ (onLine (List.replicate 12 1 ++ [0x88, 0xF7] ++ List.replicate 50 8)) ((((Tests.inMode .run).setFld (MAC.MAC_CTL 0) MAC.MAC_CTL_RX_EN 1).setFld (MAC.MAC_STATUS 0) MAC.MAC_STATUS_LINK 1).setFld (SRX.MGMT_POL 0) SRX.MGMT_POL_BURST 4) :=
  ⟨by decide +kernel, by decide +kernel, by decide +kernel, by decide +kernel, by decide +kernel, by decide +kernel, by decide +kernel, by decide +kernel⟩

theorem witness_StreamRows :
    (fun (t n p _ : Nat) (_ : TxFrame) (s : State) =>
      ((n < 1024) ∧ (p < 2)) ∧ 
  let s0 := s.at t
  let c := STX.TXS_W0_PTIME.get (s0.use (STX.TXSA_W0 n))
  let i := pktIdx c s0.time.stc - 1
  let w0 := txWord s0 (cdiv (pktAt3 c i) 3) n 0
  (s.blkOn bSTX = true) ∧ (0 < pktIdx c s0.time.stc) ∧ (Tbl.getD s.stx.next n 0 ≤ i) ∧ (s.place.now.isSome = true) ∧ (STX.TXS_W0_EN.get w0 = 1) ∧ (Tbl.getD s.stx.lastK n 0 ≤ i) ∧ (txKilled s n = true))
      5 9 1 7 ⟨.stream 9 7, [1,2], 64, false⟩ (let s := ((Tests.inMode .run).wr (STX.TXSA_W0 9) 1).wr (STX.KILLED 0) 0x200; { s with time := { s.time with stc := 5000000 * 2 ^ 56 }, place := { s.place with now := some Tests.placed } }) ∧
    (fun (t n p _ : Nat) (_ : TxFrame) (s : State) =>
      (
((n < 1024) ∧ (p < 2)) ∧ 
  let s0 := s.at t
  let c := STX.TXS_W0_PTIME.get (s0.use (STX.TXSA_W0 n))
  let i := pktIdx c s0.time.stc - 1
  let w0 := txWord s0 (cdiv (pktAt3 c i) 3) n 0
  (s.blkOn bSTX = true) ∧ (0 < pktIdx c s0.time.stc) ∧ (Tbl.getD s.stx.next n 0 ≤ i) ∧ (s.place.now.isSome = true) ∧ (STX.TXS_W0_EN.get w0 = 1) ∧ (Tbl.getD s.stx.lastK n 0 ≤ i) ∧ (txKilled s n = false) ∧ (digestsOn s = false) ∧ (Tbl.getD s.stx.clearK n 0 ≤ i)) ∧
      ((n < 1024) ∧ (p < 2) ∧ (s.blkOn bSRX = true)))
      5 9 1 7 ⟨.stream 9 7, [1,2], 64, false⟩ (let s := ((Tests.inMode .run).wr (STX.TXSA_W0 9) 1); { s with time := { s.time with stc := 5000000 * 2 ^ 56 }, place := { s.place with now := some Tests.placed } }) ∧
    (fun (t n p k : Nat) (f : TxFrame) (s : State) =>
      ((n < 1024) ∧ (p < 2)) ∧ 
  let s0 := s.at t
  (s.blkOn (portBlk p) = true) ∧ ((s.mac p).queues = [(STX.TXS_W1_QUEUE.get (s0.use (STX.TXSA_W1 n)), [f])]) ∧ (f.src = .stream n k) ∧ (launchAt3 s0 n k ≤ s0.time.stc * 3))
      5 9 1 7 ⟨.stream 9 7, [1,2], 64, false⟩ (let s := ((Tests.inMode .run).wr (STX.TXSA_W0 9) 1).setMac 1 {(Tests.inMode .run).mac 1 with queues := [(0,[⟨.stream 9 7, [1,2], 64, false⟩])]} ; { s with time := { s.time with stc := 5000000 * 2 ^ 56 }, place := { s.place with now := some Tests.placed } }) ∧
    (fun (t n p _ : Nat) (_ : TxFrame) (s : State) =>
      (
((n < 1024) ∧ (p < 2)) ∧ 
  let s0 := s.at t
  (s.blkOn bSRX = true) ∧ ((rxsOf s n).tick = mediaNow s0 (rxFs s0 s0.use n)) ∧ ((rxsOf s n).buf = []) ∧ (0 < (rxsOf s n).tick)) ∧
      (
((n < 1024) ∧ (p < 2)) ∧ 
  let s0 := s.at t
  ((rxsOf s n).locked = true) ∧ (rxSilent s0 n 1024 = true)) ∧
      (
((n < 1024) ∧ (p < 2)) ∧ 
  let s0 := s.at t
  ((rxsOf s n).locked = true) ∧ (rxSilent s0 n 16 = true)))
      5 9 1 7 ⟨.stream 9 7, [1,2], 64, false⟩ (let s := setRxs ((Tests.inMode .run).wr (SRX.RXSA_W0 9) 0x1) 9 { RxsS.init with locked := true, tick := 240}; { s with now := 500000000000000, time := { s.time with stc := 5000000 * 2 ^ 56 } }) ∧
    (fun (t n p _ : Nat) (_ : TxFrame) (s : State) =>
      ((n < 1024) ∧ (p < 2)) ∧ 
  let s0 := s.at t
  ((rxsOf s n).locked = false) ∧ (rxSilent s0 n 16 = true))
      5 9 1 7 ⟨.stream 9 7, [1,2], 64, false⟩ (let s := setRxs ((Tests.inMode .run).wr (SRX.RXSA_W0 9) 0x1) 9 { RxsS.init with aLive := true, locked := false, tick := 240}; { s with now := 500000000000000, time := { s.time with stc := 5000000 * 2 ^ 56 } }) :=
  ⟨by decide +kernel, by decide +kernel, by decide +kernel, by decide +kernel, by decide +kernel⟩

theorem witness_TimeRows :
    (fun (t n _ _ _ _ : Nat) (_ _ _ : Int) (_ : List Int) (s : State) =>
      ((s.blkOn bTIME = true) ∧ (n < 16)) ∧ 
  let s0 := s.at t
  let x := slotOf s n
  (x.st ≠ .off) ∧ (x.st ≠ .lost) ∧ (slotLoss s0 n = true ∨ slotType s n = 4))
      9000000000000 3 0 1 5 7 7 50 0 [1,2,3] (setSlot ((Tests.inMode .run).wr (TIME.REF_CFG 3) 2) 3 { SlotS.init with st := .qualified }) ∧
    (fun (t n _ _ _ _ : Nat) (_ _ _ : Int) (_ : List Int) (s : State) =>
      ((s.blkOn bTIME = true) ∧ (n < 16)) ∧ 
  let s0 := s.at t
  let x := slotOf s n
  (x.st = .wait) ∧ (secs (s.fld TIME.SEL_CTL TIME.SEL_CTL_WTR_S) ≤ s0.now - x.waitFrom))
      100000000000000000 3 0 1 5 7 7 50 0 [1,2,3] (setSlot ((Tests.inMode .run).wr (TIME.REF_CFG 3) 4) 3 { SlotS.init with st := .wait }) ∧
    (fun (_ n _ _ _ _ : Nat) (v _ _ : Int) (_ : List Int) (s : State) =>
      ((s.blkOn bTIME = true) ∧ (n < 16)) ∧ 
  let x := slotOf s n
  ((∀ m, m < 16 → m ≠ n → slotType s m = 0)) ∧ (slotType s n ≠ 0) ∧ (slotType s n ≠ 8) ∧ (x.st = .new) ∧ (s.time.inUse = none) ∧ ((v + s.time.learned / 1000000).natAbs ≤ hardLim s))
      900000000000000 3 0 1 5 7 7 50 0 [1,2,3] (setSlot ((Tests.inMode .run).wr (TIME.REF_CFG 3) 4) 3 { SlotS.init with st := .new }) ∧
    (fun (_ n _ _ _ _ : Nat) (_ _ _ : Int) (_ : List Int) (s : State) =>
      ((s.blkOn bTIME = true) ∧ (n < 16)) ∧ 
  let x := slotOf s n
  ((∀ m, m < 16 → m ≠ n → slotType s m = 0 ∧ (slotOf s m).st = .off)) ∧ (slotType s n = 8) ∧ (x.st = .qualified) ∧ (x.far = false) ∧ (s.time.inUse = none) ∧ (s.time.st = .freerun) ∧ (s.cmd.dirty = false) ∧ (s.cmd.started = []) ∧ (s.time.selQ = []) ∧ (fabFormed s = false) ∧ (s.fab.tm = none))
      900000000000000 3 0 1 5 7 7 50 0 [1,2,3] (setSlot ((Tests.inMode .hold).wr (TIME.REF_CFG 3) 8) 3 { SlotS.init with st := .qualified }) ∧
    (fun (t n p k _ _ : Nat) (_ _ _ : Int) (_ : List Int) (s : State) =>
      (
((s.blkOn bTIME = true) ∧ (n < 16)) ∧ 
  let s0 := s.at t
  (s.time.pull.isSome = true) ∧ ((pullLeft s0).natAbs ≤ 256)) ∧
      ((s.blkOn bTIME = true) ∧ (n < 16) ∧ ((∀ m, m < 16 → slotType s m = 0)) ∧ ((∀ m, m < 4 → m ≠ k → fpgSrc s m ≠ p + 1)) ∧ (p < 3) ∧ (k < 4) ∧ (fpgSrc s k ≠ p + 1)))
      900000000000000 3 0 1 5 7 7 50 0 [1,2,3] (let s := Tests.inMode .run; { s with time := { s.time with pull := some (200, 0) } }) ∧
    (fun (t n p k a _ : Nat) (_ _ _ : Int) (_ : List Int) (s : State) =>
      ((s.blkOn bTIME = true) ∧ (n < 16)) ∧ 
  let s0 := s.at t
  ((∀ m, m < 16 → slotType s m = 0)) ∧ ((∀ m, m < 4 → m ≠ k → fpgSrc s m ≠ p + 1)) ∧ (p < 3) ∧ (k < 4) ∧ (s.now < t) ∧ (fpgSrc s k = p + 1) ∧ ((fpgOf s k).alignAt = some a) ∧ (a + 1000 * 2 ^ 56 ≤ s0.time.stc))
      900000000000000 3 1 2 5 7 7 50 0 [1,2,3] (let s := setFpg ((Tests.inMode .run).wr (TIME.FPG_CTL 2) 2) 2 { FpgS.init with alignAt := some 5}; { s with time := { s.time with on := true, stc := 500000 * 2^56 } }) ∧
    (fun (t n _ k a _ : Nat) (v _ _ : Int) (_ : List Int) (s : State) =>
      ((s.blkOn bTIME = true) ∧ (n < 16)) ∧ 
  let s0 := s.at t
  (fpgLast s0 k = some (((a : Nat) : Int), v)) ∧ ((fpgOf s k).last ≠ some a))
      900000000000000 3 2 2 (500000000 * 2 ^ 56) 7 500 50 0 [1,2,3] (let s := ((Tests.inMode .run).wr (TIME.FPG_NUM 2) 1).wr (TIME.FPG_DEN 2) 1000; { s with time := { s.time with on := false, stc := 500000001 * 2 ^ 56 } }) :=
  ⟨by decide +kernel, by decide +kernel, by decide +kernel, by decide +kernel, by decide +kernel, by decide +kernel, by decide +kernel⟩

theorem witness_PtpRows :
    (fun (_ i _ _ _ _ : Nat) (m : PtpMsg) (b : PtpAnnounce) (_ : Int) (s : State) =>
      (
((i < 6) ∧ (ptpRuns s i = true)) ∧ 
  let x := ptpOf s i
  (x.st = .slave ∨ x.st = .uncalibrated) ∧ (i < 5) ∧ (ptpCtl s i TIME.PTP_CTL_P2P = 0)) ∧
      (
((i < 6) ∧ (ptpRuns s i = true)) ∧ 
  let x := ptpOf s i
  (i < 5) ∧ (x.st = .slave) ∧ (x.best = some b) ∧ (b.srcClock = m.srcClock) ∧ (b.srcPort = m.srcPort) ∧ (m.domain = ptpCtl s i TIME.PTP_CTL_DOMAIN) ∧ (m.kind = .sync) ∧ (m.twoStep = false)))
      500 2 90 0 0 0 ⟨.sync, 0, 7, false, 99, 1, 55, 1, 1000, 5, ⟨0,0,0,0,0,0,0,0,0,0,0,0⟩, 0⟩ ⟨0,0,0,0,0,0,0,0,0,0,99,1⟩ 700 (setPtp ((((Tests.inMode .run).setFld (TIME.PTP_CTL 2) TIME.PTP_CTL_EN 1).setFld (MAC.MAC_CTL 1) MAC.MAC_CTL_TX_EN 1).setFld (MAC.MAC_STATUS 1) MAC.MAC_STATUS_LINK 1) 2 { PtpS.init with st := .slave, best := some ⟨0,0,0,0,0,0,0,0,0,0,99,1⟩ }) ∧
    (fun (_ i _ _ _ _ : Nat) (m : PtpMsg) (b : PtpAnnounce) (_ : Int) (s : State) =>
      (
((i < 6) ∧ (ptpRuns s i = true)) ∧ 
  let x := ptpOf s i
  (x.st = .slave ∨ x.st = .uncalibrated) ∧ (ptpCtl s i TIME.PTP_CTL_SLAVE_ONLY = 1) ∧ (ptpCtl s i TIME.PTP_CTL_BC = 0)) ∧
      (
((i < 6) ∧ (ptpRuns s i = true)) ∧ 
  let x := ptpOf s i
  (i < 5) ∧ (x.st = .slave) ∧ (x.best = some b) ∧ (b.srcClock = m.srcClock) ∧ (b.srcPort = m.srcPort) ∧ (m.domain ≠ ptpCtl s i TIME.PTP_CTL_DOMAIN)))
      500 2 90 0 0 0 ⟨.sync, 1, 7, false, 99, 1, 55, 1, 1000, 5, ⟨0,0,0,0,0,0,0,0,0,0,0,0⟩, 0⟩ ⟨0,0,0,0,0,0,0,0,0,0,99,1⟩ 700 (setPtp (((Tests.inMode .run).setFld (TIME.PTP_CTL 2) TIME.PTP_CTL_EN 1).setFld (TIME.PTP_CTL 2) TIME.PTP_CTL_SLAVE_ONLY 1) 2 { PtpS.init with st := .slave, best := some ⟨0,0,0,0,0,0,0,0,0,0,99,1⟩ }) ∧
    (fun (_ i _ _ _ _ : Nat) (m : PtpMsg) (b : PtpAnnounce) (t3 : Int) (s : State) =>
      ((i < 6) ∧ (ptpRuns s i = true)) ∧ 
  let x := ptpOf s i
  (i < 5) ∧ (x.st = .slave) ∧ (x.best = some b) ∧ (b.srcClock = m.srcClock) ∧ (b.srcPort = m.srcPort) ∧ (m.domain = ptpCtl s i TIME.PTP_CTL_DOMAIN) ∧ (m.kind = .delayResp) ∧ (m.reqClock = clockIdentity s) ∧ (m.reqPort = ptpNumber i) ∧ (m.seq = x.dreqSeq) ∧ (x.dreqT3 = some t3))
      500 2 90 0 0 0 ⟨.delayResp, 0, 7, false, 99, 1, clockIdentity (Tests.inMode .run), 2, 1000, 5, ⟨0,0,0,0,0,0,0,0,0,0,0,0⟩, 0⟩ ⟨0,0,0,0,0,0,0,0,0,0,99,1⟩ 700 (setPtp (((Tests.inMode .run).setFld (TIME.PTP_CTL 2) TIME.PTP_CTL_EN 1).setFld (TIME.PTP_CTL 2) TIME.PTP_CTL_SLAVE_ONLY 1) 2 { PtpS.init with st := .slave, dreqT3 := some 700, dreqSeq := 7, best := some ⟨0,0,0,0,0,0,0,0,0,0,99,1⟩ }) :=
  ⟨by decide +kernel, by decide +kernel, by decide +kernel⟩

theorem witness_ClkRows :
    (fun (t k : Nat) (_ : Int) (_ : List (Int × Nat)) (_ : Spread) (s : State) =>
      ((s.blkOn bCLK = true) ∧ (k < 4) ∧ (s.blkOn bTIME = true)) ∧
      (
((s.blkOn bCLK = true) ∧ (k < 4)) ∧ 
  let s0 := s.at t
  (s0.time.stc % stcSec 1 < 2 ^ 56)) ∧
      ((s.blkOn bCLK = true) ∧ (k < 4) ∧ ((msyOf s k).run = true) ∧ ((msyOf s k).lock = false)) ∧
      ((s.blkOn bCLK = true) ∧ (k < 4)) ∧
      ((s.blkOn bCLK = true) ∧ (k < 4) ∧ (s.blkOn bTIME = true) ∧ ((∀ m, m < 16 → slotType s m = 0)) ∧ ((∀ m, m < 4 → fpgSrc s m ≠ 4)) ∧ (s.fld CLK.SYNC_CTL CLK.SYNC_CTL_MODE = 0) ∧ (s.fld CLK.SYNC_CTL CLK.SYNC_CTL_ARM = 0)))
      500 1 5000 [(500, 1200)] ⟨true, true, 3⟩ (let s := (setMsy (Tests.inMode .run) 1 { MsyS.init with run := true }).setFld (msyCtlA 1) CLK.MSY_CTL_FOLLOW 1; { s with clk := { s.clk with spreadPend := some ⟨true, true, 3⟩ }}) ∧
    (fun (t k : Nat) (_ : Int) (_ : List (Int × Nat)) (w : Spread) (s : State) =>
      (
((s.blkOn bCLK = true) ∧ (k < 4)) ∧ 
  let s0 := s.at t
  (2 ^ 56 ≤ s0.time.stc % stcSec 1)) ∧
      (
((s.blkOn bCLK = true) ∧ (k < 4)) ∧ 
  let s0 := s.at t
  (s.clk.spreadPend = some w) ∧ (s.clk.spreadFrom + spreadPeriod ≤ s0.now) ∧ (w.en = false ∨ spreadOk s.clk.maxSpread w.centre w.depth = true ∧ s.clk.ssyLock = true)))
      5000000000 1 5000 [(500, 7)] ⟨true, true, 3⟩ (let s := Tests.inMode .run; { s with time := { s.time with stc := 2 ^ 57 }, clk := { s.clk with ssyLock := true, maxSpread := 9, spreadPend := some ⟨true, true, 3⟩ }}) ∧
    (fun (t k : Nat) (_ : Int) (_ : List (Int × Nat)) (_ : Spread) (s : State) =>
      (s.blkOn bCLK = true) ∧ (k < 4) ∧ (s.blkOn bTIME = true) ∧ ((∀ m, m < 16 → slotType s m = 0)) ∧ ((∀ m, m < 4 → fpgSrc s m ≠ 4)) ∧ (s.fld CLK.SYNC_CTL CLK.SYNC_CTL_MODE = 0) ∧ (s.now < t) ∧ (s.fld CLK.SYNC_CTL CLK.SYNC_CTL_ARM = 1) ∧ (outPhase s k = 2) ∧ (outSrc s k < 5) ∧ (srcRuns s (outSrc s k) = true) ∧ (bit (s.fld CLK.SYNC_CTL CLK.SYNC_CTL_MASK) k = true))
      500 0 0 [] ⟨true, true, 3⟩ ((((setMsy (Tests.inMode .run) 0 { MsyS.init with run := true }).setFld CLK.SYNC_CTL CLK.SYNC_CTL_ARM 1).setFld CLK.SYNC_CTL CLK.SYNC_CTL_MASK 1).setFld (CLK.CLKOUT_CTL 0) CLK.CLKOUT_CTL_PHASE 2) :=
  ⟨by decide +kernel, by decide +kernel, by decide +kernel⟩

theorem witness_SideRows :
    (fun (_ x k v _ _ : Nat) (_ : List (Int × Nat)) (p : Smp) (_ : List (List (Option Smp))) (s : State) =>
      ((s.blkOn bAPORT = true) ∧ (sideHere s x = true)) ∧ 
  let g := gainOf s k
  (g.target = some v) ∧ (p.v % 2 ^ 32 = 0 ∨ p.ok = false))
      5 3 0 9 16 1 [(9000, 4)] ⟨0, true, none⟩ [] (setGain (Tests.inMode .run) 0 { GainS.init with target := some 9 }) ∧
    (fun (_ x k v _ _ : Nat) (_ : List (Int × Nat)) (p : Smp) (_ : List (List (Option Smp))) (s : State) =>
      ((s.blkOn bAPORT = true) ∧ (sideHere s x = true)) ∧ 
  let g := gainOf s k
  (g.target = some v) ∧ (p.v % 2 ^ 32 ≠ 0) ∧ (p.ok = true) ∧ (g.started = false))
      5 3 1295 9 16 1 [(9000, 4)] ⟨7, true, none⟩ [] (setGain (Tests.inMode .run) 1295 { GainS.init with target := some 9 }) ∧
    (fun (t x k v _ _ : Nat) (_ : List (Int × Nat)) (_ : Smp) (_ : List (List (Option Smp))) (s : State) =>
      ((s.blkOn bAPORT = true) ∧ (sideHere s x = true)) ∧ 
  let s0 := s.at t
  let g := gainOf s k
  (g.target = some v) ∧ (g.since + ms (s.fld APORT.ZC_CTL APORT.ZC_CTL_TIMEOUT + 1) ≤ s0.now))
      500000000000000 3 1295 9 16 1 [(9000, 4)] ⟨7, true, none⟩ [] (setGain (Tests.inMode .run) 1295 { GainS.init with target := some 9 }) ∧
    (fun (_ x _ _ _ _ : Nat) (_ : List (Int × Nat)) (_ : Smp) (_ : List (List (Option Smp))) (s : State) =>
      ((s.blkOn bAPORT = true) ∧ (sideHere s x = true)) ∧ 
  let c := sideOf s x
  (c.st = .run) ∧ (isTx x = false) ∧ (s.fld (APORT.SIDE_COUNT x) APORT.SIDE_COUNT_SLIPS < 65535))
      5 87 0 9 16 1 [(9000, 4)] ⟨0, true, none⟩ [] (setSide (Tests.inMode .run) 87 { SideS.init with st := .run }) ∧
    (fun (t x _ _ _ _ : Nat) (_ : List (Int × Nat)) (_ : Smp) (_ : List (List (Option Smp))) (s : State) =>
      ((s.blkOn bAPORT = true) ∧ (sideHere s x = true)) ∧ 
  let s0 := s.at t
  let c := sideOf s x
  (c.st = .anchoring) ∧ (s0.time.stc < c.holdTo))
      5 0 3 9 16 1 [(9000, 4)] ⟨0, true, none⟩ [] (setSide (Tests.inMode .run) 0 { SideS.init with st := .anchoring, holdTo := 10 ^ 40 }) ∧
    (fun (t x _ _ _ _ : Nat) (_ : List (Int × Nat)) (_ : Smp) (_ : List (List (Option Smp))) (s : State) =>
      ((s.blkOn bAPORT = true) ∧ (sideHere s x = true)) ∧ 
  let s0 := s.at t
  let c := sideOf s x
  (c.st = .anchoring) ∧ (c.holdTo ≤ s0.time.stc))
      5 0 0 9 16 1 [(9000, 4)] ⟨0, true, none⟩ [] (setSide (Tests.inMode .run) 0 { SideS.init with st := .anchoring }) ∧
    (fun (_ x _ _ run rate : Nat) (_ : List (Int × Nat)) (_ : Smp) (_ : List (List (Option Smp))) (s : State) =>
      ((s.blkOn bAPORT = true) ∧ (sideHere s x = true)) ∧ 
  let c := sideOf s x
  (c.st = .locking) ∧ (16 ≤ run) ∧ (x < 64 ∨ c.locked = true) ∧ (rate = sideRate s x + 1))
      5 1 3 9 16 1 [(9000, 4)] ⟨0, true, none⟩ [] (setSide (Tests.inMode .run) 1 { SideS.init with st := .locking }) ∧
    (fun (_ x _ _ _ _ : Nat) (_ : List (Int × Nat)) (_ : Smp) (_ : List (List (Option Smp))) (s : State) =>
      ((s.blkOn bAPORT = true) ∧ (sideHere s x = true)) ∧ 
  let c := sideOf s x
  (c.st = .wait))
      5 1 0 9 16 1 [(9000, 4)] ⟨0, true, none⟩ [] (setSide (Tests.inMode .run) 1 { SideS.init with st := .wait }) ∧
    (fun (t x _ _ _ _ : Nat) (_ : List (Int × Nat)) (_ : Smp) (_ : List (List (Option Smp))) (s : State) =>
      ((s.blkOn bAPORT = true) ∧ (sideHere s x = true)) ∧ 
  let s0 := s.at t
  let c := sideOf s x
  (c.st = .run) ∧ (x < 64) ∧ (isTx x = false) ∧ (c.cut = none) ∧ (sideMode s x = 0 ∨ sideMode s x = 3) ∧ (frameWindow s0 x % Nat.max 1 (sideB s x) ≠ 0))
      5 1 0 9 16 1 [(9000, 4)] ⟨0, true, none⟩ [[some ⟨0, true, none⟩]] (setSide (Tests.inMode .run) 1 { SideS.init with st := .run }) ∧
    (fun (t x _ _ _ _ : Nat) (_ : List (Int × Nat)) (_ : Smp) (_ : List (List (Option Smp))) (s : State) =>
      ((s.blkOn bAPORT = true) ∧ (sideHere s x = true)) ∧ 
  let s0 := s.at t
  let c := sideOf s x
  (c.st = .run) ∧ (x < 64) ∧ (isTx x = false) ∧ (c.cut = none) ∧ (sideMode s x = 0 ∨ sideMode s x = 3) ∧ (frameWindow s0 x % Nat.max 1 (sideB s x) = 0))
      5 1 0 9 16 1 [(9000, 4)] ⟨0, true, none⟩ [[some ⟨0, true, none⟩]] (let s := setSide (Tests.inMode .run) 1 { SideS.init with st := .run }; { s with time := { s.time with stc := 0, on := false } }) ∧
    (fun (_ x k _ _ _ : Nat) (cmp : List (Int × Nat)) (_ : Smp) (_ : List (List (Option Smp))) (s : State) =>
      (
((s.blkOn bAPORT = true) ∧ (sideHere s x = true) ∧ (s.blkOn bCLK = true) ∧ (k < 4) ∧ (s.blkOn bTWIN = false) ∧ (s.aport.sides = [])) ∧ 
  let n := (cmp.foldl countCmp ((msyOf s k).good, (msyOf s k).bad)).2
  ((msyOf s k).lock = true) ∧ (4 ≤ n)) ∧
      (
((s.blkOn bAPORT = true) ∧ (sideHere s x = true) ∧ (s.blkOn bCLK = true) ∧ (k < 4) ∧ (s.blkOn bTWIN = false) ∧ (s.aport.sides = [])) ∧ 
  let m := (cmp.foldl countCmp (s.clk.ssyGood, s.clk.ssyBad)).2
  (s.clk.ssyLock = true) ∧ (4 ≤ m)))
      5 1 0 9 16 1 [(9000, 4)] ⟨0, true, none⟩ [] (let s := setMsy (Tests.inMode .run) 0 { MsyS.init with lock := true }; { s with cmd := { s.cmd with resetting := [bTWIN] } }) ∧
    (fun (_ x k _ _ _ : Nat) (cmp : List (Int × Nat)) (_ : Smp) (_ : List (List (Option Smp))) (s : State) =>
      ((s.blkOn bAPORT = true) ∧ (sideHere s x = true) ∧ (s.blkOn bCLK = true) ∧ (k < 4) ∧ (s.blkOn bTWIN = false) ∧ (s.aport.sides = [])) ∧ 
  let n := (cmp.foldl countCmp ((msyOf s k).good, (msyOf s k).bad)).2
  ((msyOf s k).lock = false ∨ n < 4))
      5 1 3 9 16 1 [(9000, 4)] ⟨0, true, none⟩ [] (let s := setMsy (Tests.inMode .run) 0 { MsyS.init with lock := true }; { s with cmd := { s.cmd with resetting := [bTWIN] } }) :=
  ⟨by decide +kernel, by decide +kernel, by decide +kernel, by decide +kernel, by decide +kernel, by decide +kernel, by decide +kernel, by decide +kernel, by decide +kernel, by decide +kernel, by decide +kernel, by decide +kernel⟩

theorem witness_DigitalInputs :
    (fun (_ p rate : Nat) (_ : List Byte) (s : State) =>
      ((s.blkOn bAPORT = true) ∧ (p < s.variant.aes) ∧ ((sideOf s (65 + 2 * p)).locked = false) ∧ (1 ≤ rate) ∧ (rate ≤ 3)) ∧
      ((s.blkOn bAPORT = true) ∧ (p < s.variant.madi) ∧ ((sideOf s (81 + 2 * p)).locked = false)))
      5 0 2 [] (setSide (Tests.inMode .run) 65 { SideS.init with st := .wait }) ∧
    (fun (_ p _ : Nat) (cs : List Byte) (s : State) =>
      ((s.blkOn bAPORT = true) ∧ (p < s.variant.aes) ∧ ((sideOf s (65 + 2 * p)).locked = true)) ∧
      ((s.blkOn bAPORT = true) ∧ (p < s.variant.madi) ∧ ((sideOf s (81 + 2 * p)).locked = true)) ∧
      ((s.blkOn bAPORT = true) ∧ (p < s.variant.aes) ∧ ((sideOf s (65 + 2 * p)).locked = true) ∧ (cs.length = 48) ∧ (byteAt cs 0 % 2 = 0)))
      5 3 2 (List.replicate 48 0) (setSide (setSide (Tests.inMode .run) 71 { SideS.init with st := .run, locked := true }) 87 { SideS.init with st := .run, locked := true }) ∧
    (fun (_ p _ : Nat) (cs : List Byte) (s : State) =>
      (s.blkOn bAPORT = true) ∧ (p < s.variant.aes) ∧ ((sideOf s (65 + 2 * p)).locked = true) ∧ (cs.length = 48) ∧ (byteAt cs 0 % 2 = 1) ∧ (withCrcc (cs.take 24) ≠ cs.take 24))
      5 3 2 (List.replicate 48 1) (setSide (setSide (Tests.inMode .run) 71 { SideS.init with st := .run, locked := true }) 87 { SideS.init with st := .run, locked := true }) :=
  ⟨by decide +kernel, by decide +kernel, by decide +kernel⟩

theorem witness_BundlesTakeEffect :
    (fun (t tile _ r x y _ : Nat) (_ : Int) (f : Alu) (m0 m1 _ : MacOp) (v : Inv) (p : NodeP) (c : Ctx) (_ : List Nat) (s : State) =>
      ((s.plainTile tile v p c = true) ∧ (m0.op = 0) ∧ (m1.op = 0)) ∧ 
  let s1 := fillPassed (s.at t) p
  let b := bundleOf (ofLe (s1.memBytes (tileBase tile + c.pc) 8))
  (b = some ⟨m0, m1, .nop, none, .alu f r x y⟩) ∧ (r < 16))
      5 0 9 1 2 3 0 5 .add ⟨0, false, 0, 0, 0⟩ ⟨0, false, 0, 0, 0⟩ ⟨1, false, 1, 0, 1⟩ (Tests.inv Tests.ctx) Tests.node Tests.ctx [] (Tests.tile Tests.ctx 0x1123) ∧
    (fun (t tile _ r _ _ k : Nat) (_ : Int) (_ : Alu) (m0 m1 _ : MacOp) (v : Inv) (p : NodeP) (c : Ctx) (_ : List Nat) (s : State) =>
      ((s.plainTile tile v p c = true) ∧ (m0.op = 0) ∧ (m1.op = 0)) ∧ 
  let s1 := fillPassed (s.at t) p
  let b := bundleOf (ofLe (s1.memBytes (tileBase tile + c.pc) 8))
  let ptr := c.p.getD k 0
  (b = some ⟨m0, m1, .lds r k false, none, .nop⟩) ∧ (r < 16) ∧ (accOk s p .split ⟨ptr, 4⟩ = true))
      5 0 9 1 2 3 0 5 .add ⟨0, false, 0, 0, 0⟩ ⟨0, false, 0, 0, 0⟩ ⟨1, false, 1, 0, 1⟩ (Tests.inv Tests.ctx) Tests.node Tests.ctx [] ((Tests.tile Tests.ctx ((6 * 2 ^ 14 + 256) * 2 ^ 18)).setMem (tileBase 0 + 16) [1, 2, 3, 4]) ∧
    (fun (t tile _ r _ _ k : Nat) (_ : Int) (_ : Alu) (m0 m1 _ : MacOp) (v : Inv) (p : NodeP) (c : Ctx) (_ : List Nat) (s : State) =>
      ((s.plainTile tile v p c = true) ∧ (m0.op = 0) ∧ (m1.op = 0)) ∧ 
  let s1 := fillPassed (s.at t) p
  let b := bundleOf (ofLe (s1.memBytes (tileBase tile + c.pc) 8))
  let ptr := c.p.getD k 0
  (b = some ⟨m0, m1, .sts r k false, none, .nop⟩) ∧ (r < 16) ∧ (accOk s p .split ⟨ptr, 4⟩ = true))
      5 0 9 1 2 3 0 5 .add ⟨0, false, 0, 0, 0⟩ ⟨0, false, 0, 0, 0⟩ ⟨1, false, 1, 0, 1⟩ (Tests.inv Tests.ctx) Tests.node Tests.ctx [] (Tests.tile Tests.ctx ((7 * 2 ^ 14 + 256) * 2 ^ 18)) ∧
    (fun (t tile _ _ _ _ _ : Nat) (_ : Int) (_ : Alu) (m0 m1 mac : MacOp) (v : Inv) (p : NodeP) (c : Ctx) (_ : List Nat) (s : State) =>
      ((s.plainTile tile v p c = true) ∧ (m0.op = 0) ∧ (m1.op = 0)) ∧ 
  let s1 := fillPassed (s.at t) p
  let b := bundleOf (ofLe (s1.memBytes (tileBase tile + c.pc) 8))
  (b = some ⟨mac, m1, .nop, none, .nop⟩) ∧ (1 ≤ mac.op) ∧ (mac.op ≤ 3))
      5 0 9 1 2 3 0 5 .add ⟨0, false, 0, 0, 0⟩ ⟨0, false, 0, 0, 0⟩ ⟨1, false, 1, 0, 1⟩ (Tests.inv Tests.ctx) Tests.node Tests.ctx [] (Tests.tile Tests.ctx ((2 ^ 9 + 2 ^ 6 + 1) * 2 ^ 49)) ∧
    (fun (t tile _ _ _ _ _ : Nat) (off : Int) (_ : Alu) (m0 m1 _ : MacOp) (v : Inv) (p : NodeP) (c : Ctx) (_ : List Nat) (s : State) =>
      ((s.plainTile tile v p c = true) ∧ (m0.op = 0) ∧ (m1.op = 0)) ∧ 
  let s1 := fillPassed (s.at t) p
  let b := bundleOf (ofLe (s1.memBytes (tileBase tile + c.pc) 8))
  (b = some ⟨m0, m1, .nop, none, .br off⟩))
      5 0 9 1 2 3 0 (-5) .add ⟨0, false, 0, 0, 0⟩ ⟨0, false, 0, 0, 0⟩ ⟨1, false, 1, 0, 1⟩ (Tests.inv Tests.ctx) Tests.node Tests.ctx [] (Tests.tile Tests.ctx (0x20000 + 4091)) ∧
    (fun (t tile sp _ _ _ _ : Nat) (_ : Int) (_ : Alu) (m0 m1 _ : MacOp) (v : Inv) (p : NodeP) (c : Ctx) (rest : List Nat) (s : State) =>
      ((s.plainTile tile v p c = true) ∧ (m0.op = 0) ∧ (m1.op = 0)) ∧ 
  let s1 := fillPassed (s.at t) p
  let b := bundleOf (ofLe (s1.memBytes (tileBase tile + c.pc) 8))
  (b = none) ∧ (s.spareWaits tile sp rest = true))
      5 0 9 1 2 3 0 5 .add ⟨0, false, 0, 0, 0⟩ ⟨0, false, 0, 0, 0⟩ ⟨1, false, 1, 0, 1⟩ (Tests.inv Tests.ctx) Tests.node Tests.ctx [] (Tests.tile Tests.ctx (2 ^ 63)) :=
  ⟨by decide +kernel, by decide +kernel, by decide +kernel, by decide +kernel, by decide +kernel, by decide +kernel⟩

theorem witness_TileRows :
    (fun (t _ _ _ _ _ _ _ _ : Nat) (p : NodeP) (v : Inv) (c : Ctx) (_ : List Nat) (s : State) =>
      ((v.ctx = some c)) ∧ 
  let s0 := s.at t
  (nodeP s p.id = some p) ∧ ((tileOf s p.tile).st = .run) ∧ ((tileOf s p.tile).cur = none) ∧ ((tileOf s p.tile).queue = []) ∧ ((nodeOf s p.id).lastK < nodeBlocks s0 p) ∧ ((nodeOf s p.id).cwPend = false))
      5 0 9 0 0 0 0 0 0 Tests.node (Tests.inv Tests.ctx) Tests.ctx [] (let s := Tests.tile Tests.ctx 0; { s with time := { s.time with stc := 100000000 * 2 ^ 56 }, dsp := { s.dsp with tiles := [(0, { TileS.init with st := .run })] } }) ∧
    (fun (t tile _ _ _ _ _ _ _ : Nat) (_ : NodeP) (v : Inv) (c : Ctx) (_ : List Nat) (s : State) =>
      (
((v.ctx = some c)) ∧ 
  let s0 := s.at t
  let x := tileOf s tile
  (x.st = .run) ∧ (x.cur = some v) ∧ (x.queue = []) ∧ (c.ending = false) ∧ (s0.time.stc < v.deadline)) ∧
      (
((v.ctx = some c)) ∧ 
  let x := tileOf s tile
  (x.st = .run) ∧ (x.cur = some v) ∧ (x.queue = []) ∧ (c.ending = false) ∧ (c.deferred ≤ 256)))
      5 0 9 0 0 0 0 0 0 Tests.node (Tests.inv Tests.ctx) Tests.ctx [] (Tests.tile Tests.ctx 0) ∧
    (fun (t tile sp _ _ _ _ _ _ : Nat) (_ : NodeP) (v : Inv) (c : Ctx) (r : List Nat) (s : State) =>
      ((v.ctx = some c)) ∧ 
  let s0 := s.at t
  let x := tileOf s tile
  (x.st = .run) ∧ (x.cur = some v) ∧ (x.queue = []) ∧ (c.ending = false) ∧ (v.deadline ≤ s0.time.stc) ∧ (s.spareWaits tile sp r = true))
      5 0 9 0 0 0 0 0 0 Tests.node (Tests.inv Tests.ctx) Tests.ctx [] (let s := Tests.tile Tests.ctx 0; { s with time := { s.time with stc := 1000 * 2 ^ 56 } }) ∧
    (fun (_ tile sp _ _ _ _ _ _ : Nat) (_ : NodeP) (v : Inv) (c : Ctx) (r : List Nat) (s : State) =>
      ((v.ctx = some c)) ∧ 
  let x := tileOf s tile
  (x.st = .run) ∧ (x.cur = some v) ∧ (x.queue = []) ∧ (c.ending = false) ∧ (256 < c.deferred) ∧ (s.spareWaits tile sp r = true))
      5 0 9 0 0 0 0 0 0 Tests.node (Tests.inv { Tests.ctx with deferred := 257 }) { Tests.ctx with deferred := 257 } [] (Tests.tile { Tests.ctx with deferred := 257 } 0) ∧
    (fun (_ tile _ _ _ _ _ b _ : Nat) (_ : NodeP) (v : Inv) (c : Ctx) (_ : List Nat) (s : State) =>
      (
((v.ctx = some c)) ∧ 
  let x := tileOf s tile
  (x.st = .run) ∧ (x.cur = some v) ∧ (x.queue = []) ∧ (c.ending = false) ∧ (c.takes = some b)) ∧
      (
((v.ctx = some c)) ∧ 
  let x := tileOf s tile
  (x.st = .run) ∧ (x.cur = some v) ∧ (x.queue = []) ∧ (c.ending = false) ∧ (c.timer = 1)))
      5 0 9 0 0 0 0 5 0 Tests.node (Tests.inv { Tests.ctx with timer := 1, tsw := 1, ipend := 32 }) { Tests.ctx with timer := 1, tsw := 1, ipend := 32 } [] (Tests.tile { Tests.ctx with timer := 1, tsw := 1, ipend := 32 } 0) ∧
    (fun (_ tile _ ch src dst len _ _ : Nat) (p : NodeP) (v : Inv) (c : Ctx) (_ : List Nat) (s : State) =>
      ((v.ctx = some c)) ∧ 
  let n := nodeOf s v.node
  let x := tileOf s tile
  (x.st = .run) ∧ (x.cur = some v) ∧ (x.queue = []) ∧ (c.ending = false) ∧ (nodeP s v.node = some p) ∧ (p.tile = tile) ∧ (Tbl.find n.xrun ch = some (src, dst, len, 0)) ∧ (ch < 4))
      5 0 9 3 0 16 8 5 0 Tests.node (Tests.inv Tests.ctx) Tests.ctx [] (let s := (Tests.tile Tests.ctx 0).setMem 0x2000000 [1, 2, 3, 4, 5, 6, 7, 8]; { s with dsp := { s.dsp with nodes := [(5, { NodeS.init with ybase := 0x10000, pbase := 0x20000, xrun := [(3, 0, 16, 8, 0)] })] } }) ∧
    (fun (_ tile sp _ _ _ _ _ at_ : Nat) (_ : NodeP) (v : Inv) (c : Ctx) (_ : List Nat) (s : State) =>
      (v.ctx = some c) ∧ (s.place.replacing = some (tile, sp, at_)) ∧ (s.place.waiting = []) ∧ (tile ≠ sp))
      5 0 9 3 0 16 8 5 77 Tests.node (Tests.inv Tests.ctx) Tests.ctx [] (let s := Tests.tile Tests.ctx 0; { s with place := { s.place with freeSpares := [], replacing := some (0, 9, 77) } }) :=
  ⟨by decide +kernel, by decide +kernel, by decide +kernel, by decide +kernel, by decide +kernel, by decide +kernel, by decide +kernel⟩

theorem witness_AudioBlockRings :
    (fun (t r _ : Nat) (_ _ : List Byte) (d : RingP) (_ : RingItem) (s : State) =>
      ((r < 96) ∧ (ringDef s r = some d) ∧ (d.rate < 4) ∧ (ringLive s r = true)) ∧ 
  let s0 := s.at t
  let e := blockIdx s r d (s0.time.stc - 104 * 2 ^ 56)
  (d.extract = true) ∧ (e ≤ (s.ring r).lastK))
      5 0 99 ([(0, 4096), (1, 7), (2, 64)].flatMap (fun e => leBytes 4 e.2) ++ List.replicate 20 0) [1,2,3,4,5,6,7,8,9,10,11,12,13,14,15,16] { ring := 0, extract := true, nch := 2, rate := 1, base := 6144 } ⟨0, 3, []⟩ (let s := ((((Tests.running.wr (DMA.RING_CTL 0) 1).wr (DMA.RING_TAIL 0) 0).wr (DMA.RING_BASE_LO 0) 1).wr (DMA.RING_SIZE 0) 4); ({ s with place := { s.place with now := some { Tests.placed with rings := [{ ring := 0, extract := true, nch := 2, rate := 1, base := 6144 }] } }, time := { s.time with stc := 10000000 * 2 ^ 56 }, dma := { s.dma with bme := true, linkUp := true } }.setRing 0 { RingS.init with lastK := 1000000 })) ∧
    (fun (t r _ : Nat) (_ _ : List Byte) (d : RingP) (_ : RingItem) (s : State) =>
      ((r < 96) ∧ (ringDef s r = some d) ∧ (d.rate < 4) ∧ (ringLive s r = true)) ∧ 
  let s0 := s.at t
  let e := blockIdx s r d (s0.time.stc - 104 * 2 ^ 56)
  (d.extract = true) ∧ ((s.ring r).lastK < e) ∧ (ringPosted s r = 0))
      5 0 99 ([(0, 4096), (1, 7), (2, 64)].flatMap (fun e => leBytes 4 e.2) ++ List.replicate 20 0) [] { ring := 0, extract := true, nch := 2, rate := 1, base := 6144 } ⟨0, 3, []⟩ (let s := ((((Tests.running.wr (DMA.RING_CTL 0) 1).wr (DMA.RING_TAIL 0) 0).wr (DMA.RING_BASE_LO 0) 1).wr (DMA.RING_SIZE 0) 4); ({ s with place := { s.place with now := some { Tests.placed with rings := [{ ring := 0, extract := true, nch := 2, rate := 1, base := 6144 }] } }, time := { s.time with stc := 10000000 * 2 ^ 56 }, dma := { s.dma with bme := true, linkUp := true } }.setRing 0 RingS.init)) ∧
    (fun (t r _ : Nat) (desc _ : List Byte) (d : RingP) (_ : RingItem) (s : State) =>
      ((r < 96) ∧ (ringDef s r = some d) ∧ (d.rate < 4) ∧ (ringLive s r = true)) ∧ 
  let s0 := s.at t
  let len := 2 ^ (r / 16 + 1)
  let w := wordsOfBytes desc 8
  let e := blockIdx s r d (s0.time.stc - 104 * 2 ^ 56)
  (d.extract = true) ∧ ((s.ring r).lastK < e) ∧ (ringPosted s r ≠ 0) ∧ (audioBad w = false) ∧ (len * d.nch * 4 ≤ w.getD 2 0))
      5 0 99 ([(0, 4096), (1, 7), (2, 64)].flatMap (fun e => leBytes 4 e.2) ++ List.replicate 20 0) [] { ring := 0, extract := true, nch := 2, rate := 1, base := 6144 } ⟨0, 3, []⟩ (let s := ((((Tests.running.wr (DMA.RING_CTL 0) 1).wr (DMA.RING_TAIL 0) 2).wr (DMA.RING_BASE_LO 0) 1).wr (DMA.RING_SIZE 0) 4); ({ s with place := { s.place with now := some { Tests.placed with rings := [{ ring := 0, extract := true, nch := 2, rate := 1, base := 6144 }] } }, time := { s.time with stc := 10000000 * 2 ^ 56 }, dma := { s.dma with bme := true, linkUp := true } }.setRing 0 RingS.init)) ∧
    (fun (t r _ : Nat) (_ _ : List Byte) (d : RingP) (_ : RingItem) (s : State) =>
      ((r < 96) ∧ (ringDef s r = some d) ∧ (d.rate < 4) ∧ (ringLive s r = true)) ∧ 
  let s0 := s.at t
  let i := blockIdx s r d s0.time.stc
  (d.extract = false) ∧ ((s.ring r).lastK ≤ i) ∧ (ringPosted s r = 0))
      5 0 99 ([(0, 4096), (1, 7), (2, 64)].flatMap (fun e => leBytes 4 e.2) ++ List.replicate 20 0) [] { ring := 0, extract := false, nch := 2, rate := 1, base := 6144 } ⟨0, 3, []⟩ (let s := ((((Tests.running.wr (DMA.RING_CTL 0) 1).wr (DMA.RING_TAIL 0) 0).wr (DMA.RING_BASE_LO 0) 1).wr (DMA.RING_SIZE 0) 4); ({ s with place := { s.place with now := some { Tests.placed with rings := [{ ring := 0, extract := false, nch := 2, rate := 1, base := 6144 }] } }, time := { s.time with stc := 10000000 * 2 ^ 56 }, dma := { s.dma with bme := true, linkUp := true } }.setRing 0 RingS.init)) ∧
    (fun (t r _ : Nat) (_ _ : List Byte) (d : RingP) (_ : RingItem) (s : State) =>
      ((r < 96) ∧ (ringDef s r = some d) ∧ (d.rate < 4) ∧ (ringLive s r = true)) ∧ 
  let s0 := s.at t
  let i := blockIdx s r d s0.time.stc
  (d.extract = false) ∧ ((s.ring r).lastK ≤ i) ∧ (ringPosted s r ≠ 0))
      5 0 99 ([(0, 4096), (1, 7), (2, 64)].flatMap (fun e => leBytes 4 e.2) ++ List.replicate 20 0) [] { ring := 0, extract := false, nch := 2, rate := 1, base := 6144 } ⟨0, 3, []⟩ (let s := ((((Tests.running.wr (DMA.RING_CTL 0) 1).wr (DMA.RING_TAIL 0) 2).wr (DMA.RING_BASE_LO 0) 1).wr (DMA.RING_SIZE 0) 4); ({ s with place := { s.place with now := some { Tests.placed with rings := [{ ring := 0, extract := false, nch := 2, rate := 1, base := 6144 }] } }, time := { s.time with stc := 10000000 * 2 ^ 56 }, dma := { s.dma with bme := true, linkUp := true } }.setRing 0 RingS.init)) ∧
    (fun (t r _ : Nat) (desc _ : List Byte) (d : RingP) (x : RingItem) (s : State) =>
      (
((r < 96) ∧ (ringDef s r = some d) ∧ (d.rate < 4) ∧ (ringLive s r = true)) ∧ 
  let len := 2 ^ (r / 16 + 1)
  let w := wordsOfBytes desc 8
  (d.extract = false) ∧ ((s.ring r).items = [x]) ∧ (x.desc = []) ∧ (audioBad w = false) ∧ (len * d.nch * 4 ≤ w.getD 2 0)) ∧
      (
((r < 96) ∧ (ringDef s r = some d) ∧ (d.rate < 4) ∧ (ringLive s r = true)) ∧ 
  let s0 := s.at t
  let fs := rateHz s d.rate
  let len := 2 ^ (r / 16 + 1)
  (d.extract = false) ∧ ((s.ring r).items = [x]) ∧ (mediaAt fs ((x.k + 1) * len) ≤ s0.time.stc)) ∧
      ((r < 96) ∧ (ringDef s r = some d) ∧ (d.rate < 4) ∧ (ringLive s r = true) ∧ (d.extract = false) ∧ (s.now < t) ∧ ((s.ring r).items = [x]) ∧ (x.desc = [])))
      5 0 99 ([(0, 4096), (1, 7), (2, 64)].flatMap (fun e => leBytes 4 e.2) ++ List.replicate 20 0) [] { ring := 0, extract := false, nch := 2, rate := 1, base := 6144 } ⟨0, 3, []⟩ (let s := ((((Tests.running.wr (DMA.RING_CTL 0) 1).wr (DMA.RING_TAIL 0) 0).wr (DMA.RING_BASE_LO 0) 1).wr (DMA.RING_SIZE 0) 4); ({ s with place := { s.place with now := some { Tests.placed with rings := [{ ring := 0, extract := false, nch := 2, rate := 1, base := 6144 }] } }, time := { s.time with stc := 10000000 * 2 ^ 56 }, dma := { s.dma with bme := true, linkUp := true } }.setRing 0 { RingS.init with items := [⟨0, 3, []⟩] })) ∧
    (fun (_ r _ : Nat) (_ _ : List Byte) (d : RingP) (x : RingItem) (s : State) =>
      (r < 96) ∧ (ringDef s r = some d) ∧ (d.rate < 4) ∧ (ringLive s r = true) ∧ (d.extract = false) ∧ ((s.ring r).items = [x]) ∧ (x.desc ≠ []))
      5 0 99 ([(0, 4096), (1, 7), (2, 64)].flatMap (fun e => leBytes 4 e.2) ++ List.replicate 20 0) [1,2,3,4,5,6,7,8,9,10,11,12,13,14,15,16] { ring := 0, extract := false, nch := 2, rate := 1, base := 6144 } ⟨0, 3, [4096, 7, 64]⟩ (let s := ((((Tests.running.wr (DMA.RING_CTL 0) 1).wr (DMA.RING_TAIL 0) 0).wr (DMA.RING_BASE_LO 0) 1).wr (DMA.RING_SIZE 0) 4); ({ s with place := { s.place with now := some { Tests.placed with rings := [{ ring := 0, extract := false, nch := 2, rate := 1, base := 6144 }] } }, time := { s.time with stc := 10000000 * 2 ^ 56 }, dma := { s.dma with bme := true, linkUp := true } }.setRing 0 { RingS.init with items := [⟨0, 3, [4096, 7, 64]⟩] })) ∧
    (fun (t r _ : Nat) (_ _ : List Byte) (d : RingP) (x : RingItem) (s : State) =>
      ((r < 96) ∧ (ringDef s r = some d) ∧ (d.rate < 4) ∧ (ringLive s r = true)) ∧ 
  let s0 := s.at t
  let fs := rateHz s d.rate
  let len := 2 ^ (r / 16 + 1)
  (d.extract = false) ∧ ((s.ring r).items = [x]) ∧ (s0.time.stc < mediaAt fs ((x.k + 1) * len)))
      5 0 99 ([(0, 4096), (1, 7), (2, 64)].flatMap (fun e => leBytes 4 e.2) ++ List.replicate 20 0) [] { ring := 0, extract := false, nch := 2, rate := 1, base := 6144 } ⟨0, 3, [4096, 7, 64]⟩ (let s := ((((Tests.running.wr (DMA.RING_CTL 0) 1).wr (DMA.RING_TAIL 0) 0).wr (DMA.RING_BASE_LO 0) 1).wr (DMA.RING_SIZE 0) 4); ({ s with place := { s.place with now := some { Tests.placed with rings := [{ ring := 0, extract := false, nch := 2, rate := 1, base := 6144 }] } }, time := { s.time with stc := 0 * 2 ^ 56 }, dma := { s.dma with bme := true, linkUp := true } }.setRing 0 { RingS.init with items := [⟨0, 3, [4096, 7, 64]⟩] })) :=
  ⟨by decide +kernel, by decide +kernel, by decide +kernel, by decide +kernel, by decide +kernel, by decide +kernel, by decide +kernel, by decide +kernel⟩

theorem witness_HostPath :
    (fun (_ r : Nat) (_ : List Nat) (_ : Bool) (f : RingFrame) (_ _ : List Byte) (s : State) =>
      ((96 ≤ r) ∧ (r < 160) ∧ (s.srx.rings.find? (fun g => g.ring == r - 96) = some f) ∧ (ringLive s r = false)) ∧
      ((s.blkOn bDMA = true) ∧ (s.dma.linkUp = true)))
      5 100 [165] false ⟨1, [1,2,3,4,5], 77, false, true, 0, 0, 4, 3⟩ ([(0, 4096), (1, 7), (2, 64)].flatMap (fun e => leBytes 4 e.2) ++ List.replicate 20 0) [] (let s := (((((((Tests.running.wr (DMA.RING_CTL 100) 0).wr (DMA.RING_TAIL 100) 2).wr (DMA.RING_BASE_LO 100) 1).wr (DMA.RING_SIZE 100) 4).wr (DMA.RING_IRQ 100) 0x10005).wr (MAC.MAC_CTL 0) 0x10).wr (MAC.MAC_STATUS 0) 1); { s with now := 1000000000000, srx := { s.srx with rings := [⟨1, [1,2,3,4,5], 77, false, true, 0, 0, 4, 3⟩] }, dma := { s.dma with bme := true, linkUp := true, msixEn := true } }) ∧
    (fun (_ r : Nat) (_ : List Nat) (_ : Bool) (f : RingFrame) (_ _ : List Byte) (s : State) =>
      (96 ≤ r) ∧ (r < 160) ∧ (s.srx.rings.find? (fun g => g.ring == r - 96) = some f) ∧ (ringLive s r = true) ∧ (ringPosted s r = 0))
      5 100 [165] false ⟨1, [1,2,3,4,5], 77, false, true, 0, 0, 4, 3⟩ ([(0, 4096), (1, 7), (2, 64)].flatMap (fun e => leBytes 4 e.2) ++ List.replicate 20 0) [] (let s := (((((((Tests.running.wr (DMA.RING_CTL 100) 1).wr (DMA.RING_TAIL 100) 0).wr (DMA.RING_BASE_LO 100) 1).wr (DMA.RING_SIZE 100) 4).wr (DMA.RING_IRQ 100) 0x10005).wr (MAC.MAC_CTL 0) 0x10).wr (MAC.MAC_STATUS 0) 1); { s with now := 1000000000000, srx := { s.srx with rings := [⟨1, [1,2,3,4,5], 77, false, true, 0, 0, 4, 3⟩] }, dma := { s.dma with bme := true, linkUp := true, msixEn := true } }) ∧
    (fun (_ r : Nat) (_ : List Nat) (_ : Bool) (f : RingFrame) (desc _ : List Byte) (s : State) =>
        let sz := 256 * s.fld (ringParam r) DMA.RING_PARAM_RX_BUF
  (96 ≤ r) ∧ (r < 160) ∧ (s.srx.rings.find? (fun g => g.ring == r - 96) = some f) ∧ (ringLive s r = true) ∧ (ringPosted s r ≠ 0) ∧ (rxDescBad desc = false) ∧ (f.bytes ≠ []) ∧ (f.bytes.length ≤ sz))
      5 100 [165] false ⟨1, [1,2,3,4,5], 77, false, true, 0, 0, 4, 3⟩ ([(0, 4096), (1, 7), (2, 0)].flatMap (fun e => leBytes 4 e.2) ++ List.replicate 20 0) [] (let s := (((((((Tests.running.wr (DMA.RING_CTL 100) 1).wr (DMA.RING_TAIL 100) 2).wr (DMA.RING_BASE_LO 100) 1).wr (DMA.RING_SIZE 100) 4).wr (DMA.RING_IRQ 100) 0x10005).wr (MAC.MAC_CTL 0) 0x10).wr (MAC.MAC_STATUS 0) 1); { s with now := 1000000000000, srx := { s.srx with rings := [⟨1, [1,2,3,4,5], 77, false, true, 0, 0, 4, 3⟩] }, dma := { s.dma with bme := true, linkUp := true, msixEn := true } }) ∧
    (fun (_ r : Nat) (others : List Nat) (_ : Bool) (_ : RingFrame) (desc bytes : List Byte) (s : State) =>
        let p := txRingPort s r
  (160 ≤ r) ∧ (r < 224) ∧ (ringLive s r = true) ∧ (ringPosted s r ≠ 0) ∧ (txEof desc = true) ∧ (nextTurn (Tbl.getD s.dma.txLast p 223) (r :: others) = some r) ∧ (txSof desc = true) ∧ (txDescBad desc = false) ∧ (txLen desc + 4 ≤ s.fld (MAC.MAX_FRAME p) MAC.MAX_FRAME_BYTES) ∧ (s.blkOn (portBlk p) = true) ∧ (linkUp s p = true) ∧ (txEn s p = true) ∧ (bytes.length = txLen desc))
      5 164 [165] false ⟨1, [1,2,3,4,5], 77, false, true, 0, 0, 4, 3⟩ ([(0, 4096), (1, 7), (2, 0xC003)].flatMap (fun e => leBytes 4 e.2) ++ List.replicate 20 0) [1,2,3] (let s := (((((((Tests.running.wr (DMA.RING_CTL 164) 1).wr (DMA.RING_TAIL 164) 2).wr (DMA.RING_BASE_LO 164) 1).wr (DMA.RING_SIZE 164) 4).wr (DMA.RING_IRQ 164) 0x10005).wr (MAC.MAC_CTL 0) 0x10).wr (MAC.MAC_STATUS 0) 1); { s with now := 1000000000000, srx := { s.srx with rings := [⟨1, [1,2,3,4,5], 77, false, true, 0, 0, 4, 3⟩] }, dma := { s.dma with bme := true, linkUp := true, msixEn := true } }) ∧
    (fun (_ r : Nat) (others : List Nat) (_ : Bool) (_ : RingFrame) (desc _ : List Byte) (s : State) =>
        let p := txRingPort s r
  (160 ≤ r) ∧ (r < 224) ∧ (ringLive s r = true) ∧ (ringPosted s r ≠ 0) ∧ (txEof desc = true) ∧ (nextTurn (Tbl.getD s.dma.txLast p 223) (r :: others) = some r) ∧ (txLen desc = 0))
      5 164 [165] false ⟨1, [1,2,3,4,5], 77, false, true, 0, 0, 4, 3⟩ ([(0, 4096), (1, 7), (2, 0xC000)].flatMap (fun e => leBytes 4 e.2) ++ List.replicate 20 0) [1,2,3] (let s := (((((((Tests.running.wr (DMA.RING_CTL 164) 1).wr (DMA.RING_TAIL 164) 2).wr (DMA.RING_BASE_LO 164) 1).wr (DMA.RING_SIZE 164) 4).wr (DMA.RING_IRQ 164) 0x10005).wr (MAC.MAC_CTL 0) 0x10).wr (MAC.MAC_STATUS 0) 1); { s with now := 1000000000000, srx := { s.srx with rings := [⟨1, [1,2,3,4,5], 77, false, true, 0, 0, 4, 3⟩] }, dma := { s.dma with bme := true, linkUp := true, msixEn := true } }) ∧
    (fun (t r : Nat) (_ : List Nat) (_ : Bool) (_ : RingFrame) (_ _ : List Byte) (s : State) =>
        let s0 := s.at t
  ((s.ring r).cnt ≠ 0) ∧ (s0.now < (s.ring r).cntFrom + us (s.fld (DMA.RING_IRQ r) DMA.RING_IRQ_TIME_US)))
      5 100 [165] false ⟨1, [1,2,3,4,5], 77, false, true, 0, 0, 4, 3⟩ ([(0, 4096), (1, 7), (2, 64)].flatMap (fun e => leBytes 4 e.2) ++ List.replicate 20 0) [] (let s := (((((((Tests.running.wr (DMA.RING_CTL 100) 1).wr (DMA.RING_TAIL 100) 2).wr (DMA.RING_BASE_LO 100) 1).wr (DMA.RING_SIZE 100) 4).wr (DMA.RING_IRQ 100) 0x10005).wr (MAC.MAC_CTL 0) 0x10).wr (MAC.MAC_STATUS 0) 1); { s with now := 1000000000000, srx := { s.srx with rings := [⟨1, [1,2,3,4,5], 77, false, true, 0, 0, 4, 3⟩] }, dma := { s.dma with bme := true, linkUp := true, msixEn := true } }.setRing 100 { RingS.init with cnt := 3, cntFrom := 999999999999 }) ∧
    (fun (t r : Nat) (_ : List Nat) (_ : Bool) (_ : RingFrame) (_ _ : List Byte) (s : State) =>
        let s0 := s.at t
  ((s.ring r).cnt ≠ 0) ∧ (s.fld (DMA.RING_IRQ r) DMA.RING_IRQ_TIME_US ≠ 0) ∧ ((s.ring r).cntFrom + us (s.fld (DMA.RING_IRQ r) DMA.RING_IRQ_TIME_US) ≤ s0.now))
      5 100 [165] false ⟨1, [1,2,3,4,5], 77, false, true, 0, 0, 4, 3⟩ ([(0, 4096), (1, 7), (2, 64)].flatMap (fun e => leBytes 4 e.2) ++ List.replicate 20 0) [] (let s := (((((((Tests.running.wr (DMA.RING_CTL 100) 1).wr (DMA.RING_TAIL 100) 2).wr (DMA.RING_BASE_LO 100) 1).wr (DMA.RING_SIZE 100) 4).wr (DMA.RING_IRQ 100) 0x10005).wr (MAC.MAC_CTL 0) 0x10).wr (MAC.MAC_STATUS 0) 1); { s with now := 1000000000000, srx := { s.srx with rings := [⟨1, [1,2,3,4,5], 77, false, true, 0, 0, 4, 3⟩] }, dma := { s.dma with bme := true, linkUp := true, msixEn := true } }.setRing 100 { RingS.init with cnt := 3, cntFrom := 9 }) ∧
    (fun (t _ : Nat) (_ : List Nat) (_ : Bool) (_ : RingFrame) (_ _ : List Byte) (s : State) =>
      (s.now < t))
      3000000000000 100 [165] false ⟨1, [1,2,3,4,5], 77, false, true, 0, 0, 4, 3⟩ ([(0, 4096), (1, 7), (2, 64)].flatMap (fun e => leBytes 4 e.2) ++ List.replicate 20 0) [] (let s := (((((((Tests.running.wr (DMA.RING_CTL 100) 0).wr (DMA.RING_TAIL 100) 2).wr (DMA.RING_BASE_LO 100) 1).wr (DMA.RING_SIZE 100) 4).wr (DMA.RING_IRQ 100) 0x10005).wr (MAC.MAC_CTL 0) 0x10).wr (MAC.MAC_STATUS 0) 1); { s with now := 1000000000000, srx := { s.srx with rings := [⟨1, [1,2,3,4,5], 77, false, true, 0, 0, 4, 3⟩] }, dma := { s.dma with bme := true, linkUp := true, msixEn := true } }.setRing 100 { RingS.init with cnt := 3, cntFrom := 9 }) :=
  ⟨by decide +kernel, by decide +kernel, by decide +kernel, by decide +kernel, by decide +kernel, by decide +kernel, by decide +kernel, by decide +kernel⟩

theorem witness_TwinLinkRows :
    (fun (_ l _ : Nat) (_ : Int) (_ : Heartbeat) (_ : Hello) (_ _ : Digest) (s : State) =>
      ((s.blkOn bTWIN = true) ∧ (twinned s = true) ∧ (s.twin.forced = false) ∧ (s.twin.yield = []) ∧ (s.twin.takeover = []) ∧ (s.cmd.mode = .run) ∧ (s.domOn 1 = true) ∧ (s.twin.ind ≠ 0)) ∧
      ((s.blkOn bTWIN = true) ∧ (twinned s = true) ∧ (s.twin.forced = false) ∧ (s.twin.yield = []) ∧ (s.twin.takeover = []) ∧ (s.cmd.mode = .run)) ∧
      ((s.blkOn bTWIN = true) ∧ (twinned s = true) ∧ (s.twin.forced = false) ∧ (s.twin.yield = []) ∧ (s.twin.takeover = []) ∧ (s.cmd.mode = .run) ∧ (bit s.twin.lanes l = true)) ∧
      ((s.blkOn bTWIN = true) ∧ (twinned s = true) ∧ (s.twin.forced = false) ∧ (s.twin.yield = []) ∧ (s.twin.takeover = []) ∧ (s.cmd.mode = .run) ∧ (s.twin.lanes ≠ 0)))
      5 0 1000 (0) ⟨1, 2, 1, 0, 0, 10000000000, false⟩ (let m := helloOf (Tests.pair .isolated); { m with unit := 1, serial := 77 }) ⟨true, 3, 4, 0x5⟩ ⟨true, 3, 4, 0x5⟩ (let s := Tests.pair .active; { s with twin := { s.twin with ind := 4 } }) ∧
    (fun (t _ _ : Nat) (_ : Int) (_ : Heartbeat) (_ : Hello) (_ _ : Digest) (s : State) =>
      ((s.blkOn bTWIN = true) ∧ (twinned s = true) ∧ (s.twin.forced = false) ∧ (s.twin.yield = []) ∧ (s.twin.takeover = []) ∧ (s.cmd.mode = .run)) ∧ 
  let s0 := s.at t
  (s.domOn 1 = true) ∧ (s.twin.ind = 0) ∧ (s.twin.resyncing = false) ∧ (s.fld TWIN.TWIN_FORCE TWIN.TWIN_FORCE_FORCE = 0) ∧ (s.twin.misAt = []) ∧ (s.twin.divTill ≤ s0.now))
      5 0 1000 (0) ⟨1, 2, 1, 0, 0, 10000000000, false⟩ (let m := helloOf (Tests.pair .isolated); { m with unit := 1, serial := 77 }) ⟨true, 3, 4, 0x5⟩ ⟨true, 3, 4, 0x5⟩ (let s := Tests.pair .active; { s with twin := { s.twin with hb := .none } }) ∧
    (fun (t _ a : Nat) (_ : Int) (_ : Heartbeat) (_ : Hello) (_ _ : Digest) (s : State) =>
      ((s.blkOn bTWIN = true) ∧ (twinned s = true) ∧ (s.twin.forced = false) ∧ (s.twin.yield = []) ∧ (s.twin.takeover = []) ∧ (s.cmd.mode = .run)) ∧ 
  let s0 := s.at t
  (s.domOn 1 = true) ∧ (s.twin.ind = 0) ∧ (s.twin.resyncing = false) ∧ (s.fld TWIN.TWIN_FORCE TWIN.TWIN_FORCE_FORCE = 0) ∧ (s.twin.misAt = [a]) ∧ (a + us 200 ≤ s0.now) ∧ (s0.now < a + ms 10))
      5 0 1000 (0) ⟨1, 2, 1, 0, 0, 10000000000, false⟩ (let m := helloOf (Tests.pair .isolated); { m with unit := 1, serial := 77 }) ⟨true, 3, 4, 0x5⟩ ⟨true, 3, 4, 0x5⟩ (let s := Tests.pair .active; { s with now := 19660801000, twin := { s.twin with misAt := [1000] } }) ∧
    (fun (_ l _ : Nat) (_ : Int) (_ : Heartbeat) (_ : Hello) (_ _ : Digest) (s : State) =>
      (s.blkOn bTWIN = true) ∧ (twinned s = true) ∧ (s.twin.forced = false) ∧ (s.twin.yield = []) ∧ (s.twin.takeover = []) ∧ (s.cmd.mode = .run) ∧ (bit s.twin.lanes l = false))
      5 0 1000 (0) ⟨1, 2, 1, 0, 0, 10000000000, false⟩ (let m := helloOf (Tests.pair .isolated); { m with unit := 1, serial := 77 }) ⟨true, 3, 4, 0x5⟩ ⟨true, 3, 4, 0x5⟩ (let s := Tests.pair .isolated; { s with twin := { s.twin with lanes := 0 } }) ∧
    (fun (t l a : Nat) (_ : Int) (_ : Heartbeat) (g : Hello) (_ _ : Digest) (s : State) =>
      (
((s.blkOn bTWIN = true) ∧ (twinned s = true) ∧ (s.twin.forced = false) ∧ (s.twin.yield = []) ∧ (s.twin.takeover = []) ∧ (s.cmd.mode = .run)) ∧ 
  let s0 := s.at t
  let calm := s.twin.role = .isolated ∧ s.twin.gander = .standby
  (bit s.twin.lanes l = true) ∧ (calm) ∧ (s.twin.peerSeen = false) ∧ (s.twin.hbRun = 2) ∧ (s.twin.hbLast = some a) ∧ (a + us 50 ≤ s0.now) ∧ (s0.now ≤ a + us 150)) ∧
      (
((s.blkOn bTWIN = true) ∧ (twinned s = true) ∧ (s.twin.forced = false) ∧ (s.twin.yield = []) ∧ (s.twin.takeover = []) ∧ (s.cmd.mode = .run)) ∧ 
  let mine := helloOf s
  let calm := s.twin.role = .isolated ∧ s.twin.gander = .standby
  (s.twin.lanes ≠ 0) ∧ (calm) ∧ (s.twin.clash = false) ∧ (g.unit ≠ mine.unit) ∧ (g = { mine with serial := g.serial, unit := g.unit, tileFault := g.tileFault, clockId := g.clockId })))
      5 0 1000 (0) ⟨1, 2, 1, 0, 0, 10000000000, false⟩ (let m := helloOf (Tests.pair .isolated); { m with unit := 1, serial := 77 }) ⟨true, 3, 4, 0x5⟩ ⟨true, 3, 4, 0x5⟩ (let s := Tests.pair .isolated; { s with now := 6553601000, twin := { s.twin with gander := .standby, hbRun := 2, hbLast := some 1000 } }) ∧
    (fun (_ l _ : Nat) (_ : Int) (h : Heartbeat) (_ : Hello) (_ _ : Digest) (s : State) =>
      ((s.blkOn bTWIN = true) ∧ (twinned s = true) ∧ (s.twin.forced = false) ∧ (s.twin.yield = []) ∧ (s.twin.takeover = []) ∧ (s.cmd.mode = .run)) ∧ 
  let follower := s.twin.role = .standby ∧ s.twin.gander = .standby
  (bit s.twin.lanes l = true) ∧ (follower) ∧ (h.role = 1) ∧ (h.mode ≠ s.cmd.mode.code) ∧ (s.cmd.modeStc / 2 ^ 48 ≤ h.stc8) ∧ (s.cmd.groupsStc / 2 ^ 48 ≤ h.stc8))
      5 0 1000 (0) ⟨1, 2, 1, 0, 0, 10000000000, false⟩ (let m := helloOf (Tests.pair .isolated); { m with unit := 1, serial := 77 }) ⟨true, 3, 4, 0x5⟩ ⟨true, 3, 4, 0x5⟩ (let s := Tests.pair .standby; { s with twin := { s.twin with gander := .standby } }) ∧
    (fun (t _ a : Nat) (_ : Int) (_ : Heartbeat) (_ : Hello) (_ _ : Digest) (s : State) =>
      ((s.blkOn bTWIN = true) ∧ (twinned s = true) ∧ (s.twin.forced = false) ∧ (s.twin.yield = []) ∧ (s.twin.takeover = []) ∧ (s.cmd.mode = .run)) ∧ 
  let s0 := s.at t
  (s.twin.peerSeen = true) ∧ (s.twin.hbLast = some a) ∧ (s0.now < a + us 300))
      5 0 1000 (0) ⟨1, 2, 1, 0, 0, 10000000000, false⟩ (let m := helloOf (Tests.pair .isolated); { m with unit := 1, serial := 77 }) ⟨true, 3, 4, 0x5⟩ ⟨true, 3, 4, 0x5⟩ (let s := Tests.pair .isolated; { s with now := 6553601000, twin := { s.twin with gander := .standby, peerSeen := true, hbLast := some 1000 } }) ∧
    (fun (t _ a : Nat) (_ : Int) (_ : Heartbeat) (_ : Hello) (_ _ : Digest) (s : State) =>
      ((s.blkOn bTWIN = true) ∧ (twinned s = true) ∧ (s.twin.forced = false) ∧ (s.twin.yield = []) ∧ (s.twin.takeover = []) ∧ (s.cmd.mode = .run)) ∧ 
  let s0 := s.at t
  let calm := s.twin.role = .isolated ∧ s.twin.gander = .standby
  (s.twin.peerSeen = true) ∧ (s.twin.hbLast = some a) ∧ (a + us 300 ≤ s0.now) ∧ (calm))
      5 0 1000 (0) ⟨1, 2, 1, 0, 0, 10000000000, false⟩ (let m := helloOf (Tests.pair .isolated); { m with unit := 1, serial := 77 }) ⟨true, 3, 4, 0x5⟩ ⟨true, 3, 4, 0x5⟩ (let s := Tests.pair .isolated; { s with now := 26214401000, twin := { s.twin with gander := .standby, peerSeen := true, hbLast := some 1000 } }) ∧
    (fun (_ _ _ : Nat) (off : Int) (_ : Heartbeat) (_ : Hello) (_ _ : Digest) (s : State) =>
      ((s.blkOn bTWIN = true) ∧ (twinned s = true) ∧ (s.twin.forced = false) ∧ (s.twin.yield = []) ∧ (s.twin.takeover = []) ∧ (s.cmd.mode = .run)) ∧ 
  let follower := s.twin.role = .standby ∧ s.twin.gander = .standby
  (s.twin.lanes ≠ 0) ∧ (follower) ∧ (s.twin.ind = 0) ∧ (s.fld TWIN.TWIN_FORCE TWIN.TWIN_FORCE_FORCE = 0) ∧ (s.twin.timeOk = true) ∧ (s.fld TWIN.TWIN_CTL TWIN.TWIN_CTL_TIME_NS * 256 < off.natAbs) ∧ (s.twin.timeBad < 99))
      5 0 1000 (1000000) ⟨1, 2, 1, 0, 0, 10000000000, false⟩ (let m := helloOf (Tests.pair .isolated); { m with unit := 1, serial := 77 }) ⟨true, 3, 4, 0x5⟩ ⟨true, 3, 4, 0x5⟩ (let s := Tests.pair .standby; { s with twin := { s.twin with gander := .standby, timeOk := true } }) ∧
    (fun (_ _ _ : Nat) (off : Int) (_ : Heartbeat) (_ : Hello) (_ _ : Digest) (s : State) =>
      ((s.blkOn bTWIN = true) ∧ (twinned s = true) ∧ (s.twin.forced = false) ∧ (s.twin.yield = []) ∧ (s.twin.takeover = []) ∧ (s.cmd.mode = .run)) ∧ 
  let follower := s.twin.role = .standby ∧ s.twin.gander = .standby
  (s.twin.lanes ≠ 0) ∧ (follower) ∧ (s.twin.ind = 0) ∧ (s.fld TWIN.TWIN_FORCE TWIN.TWIN_FORCE_FORCE = 0) ∧ (s.twin.timeOk = true) ∧ (s.fld TWIN.TWIN_CTL TWIN.TWIN_CTL_TIME_NS * 256 < off.natAbs) ∧ (s.twin.timeBad = 99))
      5 0 1000 (-1000000) ⟨1, 2, 1, 0, 0, 10000000000, false⟩ (let m := helloOf (Tests.pair .isolated); { m with unit := 1, serial := 77 }) ⟨true, 3, 4, 0x5⟩ ⟨true, 3, 4, 0x5⟩ (let s := Tests.pair .standby; { s with twin := { s.twin with gander := .standby, timeOk := true, timeBad := 99 } }) ∧
    (fun (_ l _ : Nat) (_ : Int) (_ : Heartbeat) (_ : Hello) (_ _ : Digest) (s : State) =>
      (s.blkOn bTWIN = true) ∧ (twinned s = true) ∧ (s.twin.forced = false) ∧ (s.twin.yield = []) ∧ (s.twin.takeover = []) ∧ (s.cmd.mode = .run) ∧ (l < 2) ∧ (s.twin.lanes = 0) ∧ (s.twin.role = .standby))
      5 1 1000 (0) ⟨1, 2, 1, 0, 0, 10000000000, false⟩ (let m := helloOf (Tests.pair .isolated); { m with unit := 1, serial := 77 }) ⟨true, 3, 4, 0x5⟩ ⟨true, 3, 4, 0x5⟩ (let s := Tests.pair .standby; { s with twin := { s.twin with lanes := 0 } }) ∧
    (fun (_ _ _ : Nat) (_ : Int) (_ : Heartbeat) (g : Hello) (_ _ : Digest) (s : State) =>
      ((s.blkOn bTWIN = true) ∧ (twinned s = true) ∧ (s.twin.forced = false) ∧ (s.twin.yield = []) ∧ (s.twin.takeover = []) ∧ (s.cmd.mode = .run)) ∧ 
  let mine := helloOf s
  let calm := s.twin.role = .isolated ∧ s.twin.gander = .standby
  (s.twin.lanes ≠ 0) ∧ (calm) ∧ (s.twin.clash = false) ∧ (g.unit ≠ mine.unit) ∧ (g.code ≠ mine.code) ∧ (s.twin.refuse ≠ 2))
      5 0 1000 (0) ⟨1, 2, 1, 0, 0, 10000000000, false⟩ (let m := helloOf (Tests.pair .isolated); { m with unit := 1, code := 9 }) ⟨true, 3, 4, 0x5⟩ ⟨true, 3, 4, 0x5⟩ (let s := Tests.pair .isolated; { s with twin := { s.twin with gander := .standby } }) ∧
    (fun (t _ a : Nat) (_ : Int) (_ : Heartbeat) (_ : Hello) (d e : Digest) (s : State) =>
      ((s.blkOn bTWIN = true) ∧ (twinned s = true) ∧ (s.twin.forced = false) ∧ (s.twin.yield = []) ∧ (s.twin.takeover = []) ∧ (s.cmd.mode = .run) ∧ (s.twin.lanes ≠ 0) ∧ (s.twin.paired = true) ∧ (s.twin.role ≠ .solo) ∧ (s.twin.localD = [⟨d, a⟩]) ∧ (d.block = e.block) ∧ (d.index = e.index) ∧ (d.k = e.k) ∧ (d.crc = e.crc)) ∧
      (
((s.blkOn bTWIN = true) ∧ (twinned s = true) ∧ (s.twin.forced = false) ∧ (s.twin.yield = []) ∧ (s.twin.takeover = []) ∧ (s.cmd.mode = .run)) ∧ 
  let s0 := s.at t
  (s.twin.localD = [⟨d, a⟩]) ∧ (s.twin.peerD = []) ∧ (s0.now < a + ms 2)))
      5 0 1000 (0) ⟨1, 2, 1, 0, 0, 10000000000, false⟩ (let m := helloOf (Tests.pair .isolated); { m with unit := 1, serial := 77 }) ⟨true, 3, 4, 0x5⟩ ⟨true, 3, 4, 0x5⟩ (let s := Tests.pair .active; { s with twin := { s.twin with paired := true, localD := [⟨⟨true, 3, 4, 0x5⟩, 1000⟩] } }) ∧
    (fun (_ _ a : Nat) (_ : Int) (_ : Heartbeat) (_ : Hello) (d e : Digest) (s : State) =>
      (s.blkOn bTWIN = true) ∧ (twinned s = true) ∧ (s.twin.forced = false) ∧ (s.twin.yield = []) ∧ (s.twin.takeover = []) ∧ (s.cmd.mode = .run) ∧ (s.twin.lanes ≠ 0) ∧ (s.twin.paired = true) ∧ (s.twin.role ≠ .solo) ∧ (s.twin.localD = [⟨d, a⟩]) ∧ (d.block = e.block) ∧ (d.index = e.index) ∧ (d.k = e.k) ∧ (d.crc ≠ e.crc))
      5 0 1000 (0) ⟨1, 2, 1, 0, 0, 10000000000, false⟩ (let m := helloOf (Tests.pair .isolated); { m with unit := 1, serial := 77 }) ⟨true, 3, 4, 0x5⟩ ⟨true, 3, 4, 0x6⟩ (let s := Tests.pair .active; { s with twin := { s.twin with paired := true, localD := [⟨⟨true, 3, 4, 0x5⟩, 1000⟩] } }) ∧
    (fun (t _ a : Nat) (_ : Int) (_ : Heartbeat) (_ : Hello) (d _ : Digest) (s : State) =>
      ((s.blkOn bTWIN = true) ∧ (twinned s = true) ∧ (s.twin.forced = false) ∧ (s.twin.yield = []) ∧ (s.twin.takeover = []) ∧ (s.cmd.mode = .run)) ∧ 
  let s0 := s.at t
  (s.twin.localD = [⟨d, a⟩]) ∧ (s.twin.peerD = []) ∧ (a + ms 2 ≤ s0.now))
      5 0 1000 (0) ⟨1, 2, 1, 0, 0, 10000000000, false⟩ (let m := helloOf (Tests.pair .isolated); { m with unit := 1, serial := 77 }) ⟨true, 3, 4, 0x5⟩ ⟨true, 3, 4, 0x6⟩ (let s := Tests.pair .active; { s with now := 196608000000, twin := { s.twin with paired := true, localD := [⟨⟨true, 3, 4, 0x5⟩, 1000⟩] } }) ∧
    (fun (t l a : Nat) (_ : Int) (_ : Heartbeat) (_ : Hello) (_ _ : Digest) (s : State) =>
      ((s.blkOn bTWIN = true) ∧ (twinned s = true) ∧ (s.twin.forced = false) ∧ (s.twin.yield = []) ∧ (s.twin.takeover = []) ∧ (s.cmd.mode = .run)) ∧ 
  let s0 := s.at t
  (l ≠ 8) ∧ (s.twin.misAt = []) ∧ (Tbl.find s.twin.indTill l = some a) ∧ (s0.now < a))
      5 0 1000 (0) ⟨1, 2, 1, 0, 0, 10000000000, false⟩ (let m := helloOf (Tests.pair .isolated); { m with unit := 1, serial := 77 }) ⟨true, 3, 4, 0x5⟩ ⟨true, 3, 4, 0x5⟩ (let s := Tests.pair .active; { s with now := 10, twin := { s.twin with ind := 3, indTill := [(0, 1000)] } }) ∧
    (fun (t l a : Nat) (_ : Int) (_ : Heartbeat) (_ : Hello) (_ _ : Digest) (s : State) =>
      ((s.blkOn bTWIN = true) ∧ (twinned s = true) ∧ (s.twin.forced = false) ∧ (s.twin.yield = []) ∧ (s.twin.takeover = []) ∧ (s.cmd.mode = .run)) ∧ 
  let s0 := s.at t
  (l ≠ 8) ∧ (s.twin.misAt = []) ∧ (Tbl.find s.twin.indTill l = some a) ∧ (a ≤ s0.now))
      5 0 1000 (0) ⟨1, 2, 1, 0, 0, 10000000000, false⟩ (let m := helloOf (Tests.pair .isolated); { m with unit := 1, serial := 77 }) ⟨true, 3, 4, 0x5⟩ ⟨true, 3, 4, 0x5⟩ (let s := Tests.pair .active; { s with now := 1000, twin := { s.twin with ind := 3, indTill := [(0, 1000)] } }) :=
  ⟨by decide +kernel, by decide +kernel, by decide +kernel, by decide +kernel, by decide +kernel, by decide +kernel, by decide +kernel, by decide +kernel, by decide +kernel, by decide +kernel, by decide +kernel, by decide +kernel, by decide +kernel, by decide +kernel, by decide +kernel, by decide +kernel, by decide +kernel⟩

theorem witness_GanderRows :
    (fun (_ _ _ h1 h2 _ : Nat) (s : State) =>
      ((s.blkOn bTWIN = true) ∧ (twinned s = true) ∧ (s.twin.forced = false) ∧ (s.twin.yield = []) ∧ (s.twin.takeover = []) ∧ (s.cmd.mode = .run) ∧ (s.fld TWIN.TWIN_FORCE TWIN.TWIN_FORCE_FORCE = 0) ∧ (s.twin.role = .standby ∨ s.twin.role = .isolated) ∧ (6500 ≤ h1) ∧ (h1 ≤ 8500) ∧ (6500 ≤ h2) ∧ (h2 ≤ 8500)) ∧
      ((arbOn s = false)))
      5 0 20000 7000 7500 1000 (let s := Tests.pair .standby; { s with twin := { s.twin with gander := .standby } }) ∧
    (fun (_ _ _ h1 h2 _ : Nat) (s : State) =>
      (s.blkOn bTWIN = true) ∧ (twinned s = true) ∧ (s.twin.forced = false) ∧ (s.twin.yield = []) ∧ (s.twin.takeover = []) ∧ (s.cmd.mode = .run) ∧ (s.fld TWIN.TWIN_FORCE TWIN.TWIN_FORCE_FORCE = 0) ∧ (s.twin.role = .active) ∧ (1500 ≤ h1) ∧ (h1 ≤ 3500) ∧ (1500 ≤ h2) ∧ (h2 ≤ 3500))
      5 0 20000 2000 3000 1000 (let s := Tests.pair .active; { s with twin := { s.twin with gander := .grant } }) ∧
    (fun (_ _ _ h1 h2 _ : Nat) (s : State) =>
      (s.blkOn bTWIN = true) ∧ (twinned s = true) ∧ (s.twin.forced = false) ∧ (s.twin.yield = []) ∧ (s.twin.takeover = []) ∧ (s.cmd.mode = .run) ∧ (s.fld TWIN.TWIN_FORCE TWIN.TWIN_FORCE_FORCE = 0) ∧ (gKind h1 ≠ gKind h2))
      5 0 20000 2000 7000 1000 (let s := Tests.pair .active; { s with twin := { s.twin with gander := .grant } }) ∧
    (fun (t _ _ _ _ a : Nat) (s : State) =>
        let s0 := s.at t
  (s.blkOn bTWIN = true) ∧ (twinned s = true) ∧ (s.twin.forced = false) ∧ (s.twin.yield = []) ∧ (s.twin.takeover = []) ∧ (s.cmd.mode = .run) ∧ (s.fld TWIN.TWIN_FORCE TWIN.TWIN_FORCE_FORCE = 0) ∧ (s.twin.gander ≠ .lost) ∧ (s.twin.gLast = some a) ∧ (s0.now < a + us 30))
      5 0 20000 7000 7500 1000 (let s := Tests.pair .standby; { s with now := 1001, twin := { s.twin with gander := .standby, gLast := some 1000, timeOk := true, paired := true } }) ∧
    (fun (t _ _ _ _ a : Nat) (s : State) =>
        let s0 := s.at t
  (s.blkOn bTWIN = true) ∧ (twinned s = true) ∧ (s.twin.forced = false) ∧ (s.twin.yield = []) ∧ (s.twin.takeover = []) ∧ (s.cmd.mode = .run) ∧ (s.fld TWIN.TWIN_FORCE TWIN.TWIN_FORCE_FORCE = 0) ∧ (s.twin.gander ≠ .lost) ∧ (s.twin.gLast = some a) ∧ (a + us 30 ≤ s0.now) ∧ (s.twin.role = .standby) ∧ (s.twin.ind = 0) ∧ (s.twin.timeOk = true) ∧ (s.twin.paired = true))
      5 0 20000 7000 7500 1000 (let s := Tests.pair .standby; { s with now := 6553600000, twin := { s.twin with gander := .standby, gLast := some 1000, timeOk := true, paired := true } }) ∧
    (fun (_ i high _ _ _ : Nat) (s : State) =>
      (arbOn s = true) ∧ (i < 2) ∧ (15000 ≤ high) ∧ (high ≤ 25000))
      5 1 20000 7000 7500 1000 (let s := Tests.inMode .run; { s with now := 1001, chip := { s.chip with straps := { s.chip.straps with arbEn := true } }, gander := { s.gander with in0 := ⟨.ok, some 1000, 0, 0, 0⟩ } }) ∧
    (fun (t i high _ _ a : Nat) (s : State) =>
      ((arbOn s = true) ∧ (i < 2) ∧ (high < 15000 ∨ 85000 < high)) ∧
      (
  let s0 := s.at t
  let gin := fun (u : State) (k : Nat) => if k = 0 then u.gander.in0 else u.gander.in1
  (arbOn s = true) ∧ (i < 2) ∧ ((gin s i).sym ≠ .none) ∧ ((gin s i).last = some a) ∧ (s0.now < a + us 300)))
      5 0 200 7000 7500 1000 (let s := Tests.inMode .run; { s with now := 1001, chip := { s.chip with straps := { s.chip.straps with arbEn := true } }, gander := { s.gander with in0 := ⟨.ok, some 1000, 0, 0, 0⟩ } }) ∧
    (fun (t i _ _ _ a : Nat) (s : State) =>
        let s0 := s.at t
  let gin := fun (u : State) (k : Nat) => if k = 0 then u.gander.in0 else u.gander.in1
  (arbOn s = true) ∧ (i < 2) ∧ ((gin s i).sym ≠ .none) ∧ ((gin s i).last = some a) ∧ (a + us 300 ≤ s0.now))
      5 0 20000 7000 7500 1000 (let s := Tests.inMode .run; { s with now := 19660801000, chip := { s.chip with straps := { s.chip.straps with arbEn := true } }, gander := { s.gander with in0 := ⟨.ok, some 1000, 0, 0, 0⟩ } }) ∧
    (fun (t i _ _ _ a : Nat) (s : State) =>
        let s0 := s.at t
  let gin := fun (u : State) (k : Nat) => if k = 0 then u.gander.in0 else u.gander.in1
  (arbOn s = true) ∧ (s.gander.resyncTill ≤ s0.now) ∧ (s.gander.holder = 2) ∧ (s.gander.first = some a) ∧ (a + ms (s.fld SYS.ARB_CTL SYS.ARB_CTL_SETTLE_MS) ≤ s0.now) ∧ (s.fld SYS.ARB_CTL SYS.ARB_CTL_PREFER = i) ∧ ((gin s i).sym = .ok))
      5 0 20000 7000 7500 1000 (let s := Tests.inMode .run; { s with now := 65536000000000000, chip := { s.chip with straps := { s.chip.straps with arbEn := true } }, gander := { s.gander with holder := 2, first := some 1000, in0 := ⟨.ok, some 1000, 0, 0, 0⟩ } }) ∧
    (fun (t _ _ _ _ _ : Nat) (s : State) =>
        let s0 := s.at t
  let gin := fun (u : State) (k : Nat) => if k = 0 then u.gander.in0 else u.gander.in1
  let own := gin s s.gander.holder
  let other := gin s (1 - s.gander.holder)
  (arbOn s = true) ∧ (s.gander.resyncTill ≤ s0.now) ∧ (s.gander.holder < 2) ∧ (own.sym = .none ∨ own.sym = .fail ∨ own.sym = .yield) ∧ (other.sym = .ok) ∧ (other.from_ + ms 1 ≤ s0.now))
      5 0 20000 7000 7500 1000 (let s := Tests.inMode .run; { s with now := 655360000000, chip := { s.chip with straps := { s.chip.straps with arbEn := true } }, gander := { s.gander with holder := 0, in0 := ⟨.fail, some 1000, 0, 0, 0⟩, in1 := ⟨.ok, some 1000, 0, 0, 0⟩ } }) ∧
    (fun (t _ _ _ _ _ : Nat) (s : State) =>
        let s0 := s.at t
  let gin := fun (u : State) (k : Nat) => if k = 0 then u.gander.in0 else u.gander.in1
  let own := gin s s.gander.holder
  let other := gin s (1 - s.gander.holder)
  (arbOn s = true) ∧ (s.gander.resyncTill ≤ s0.now) ∧ (s.gander.holder < 2) ∧ (own.sym = .ok) ∧ (own.divRun < 10) ∧ (other.divRun < 10))
      5 0 20000 7000 7500 1000 (let s := Tests.inMode .run; { s with now := 655360000000, chip := { s.chip with straps := { s.chip.straps with arbEn := true } }, gander := { s.gander with holder := 1, in0 := ⟨.ok, some 1000, 0, 0, 0⟩, in1 := ⟨.ok, some 1000, 0, 0, 0⟩ } }) ∧
    (fun (t _ _ _ _ _ : Nat) (s : State) =>
        let s0 := s.at t
  let gin := fun (u : State) (k : Nat) => if k = 0 then u.gander.in0 else u.gander.in1
  let own := gin s s.gander.holder
  let other := gin s (1 - s.gander.holder)
  (arbOn s = true) ∧ (s.gander.resyncTill ≤ s0.now) ∧ (s.gander.holder < 2) ∧ (own.sym = .ok) ∧ (other.sym = .diverge) ∧ (10 ≤ other.divRun))
      5 0 20000 7000 7500 1000 (let s := Tests.inMode .run; { s with now := 655360000000, chip := { s.chip with straps := { s.chip.straps with arbEn := true } }, gander := { s.gander with holder := 1, in0 := ⟨.diverge, some 1000, 0, 0, 10⟩, in1 := ⟨.ok, some 1000, 0, 0, 0⟩ } }) :=
  ⟨by decide +kernel, by decide +kernel, by decide +kernel, by decide +kernel, by decide +kernel, by decide +kernel, by decide +kernel, by decide +kernel, by decide +kernel, by decide +kernel, by decide +kernel, by decide +kernel⟩

theorem witness_ResyncRows :
    (fun (_ _ _ _ : Nat) (_ : Cmd) (_ : Snapshot) (_ : MirrorItem) (h : Heartbeat) (s : State) =>
      ((s.blkOn bTWIN = true) ∧ (twinned s = true) ∧ (s.cmd.mode = .run) ∧ (s.calm = true) ∧ (bit s.cmd.safeCause scPARITY = false)) ∧ 
  let seen := s.twin.paired = true ∧ s.twin.peerSeen = true ∧ s.twin.peer = some h ∧ h.role = 1 ∧ s.twin.ind = 0
  (s.twin.role = .isolated) ∧ (seen) ∧ (s.twin.resyncing = false) ∧ (s.twin.resync = .idle) ∧ (s.twin.lanes ≠ 0))
      5 5 4 1000 ⟨0x0B, 7, false, .spi, 0, 0, 1⟩ ⟨[(0x720010, 7), (0x730000, 9)], 0, 3, 12⟩ (.stateReset 9) ⟨1, 1, 1, 4, 0, 5, false⟩ (let s := Tests.pair .isolated; { s with twin := { s.twin with paired := true, peerSeen := true, peer := some ⟨1, 1, 1, 4, 0, 5, false⟩, gander := .standby } }) ∧
    (fun (_ _ _ _ : Nat) (_ : Cmd) (_ : Snapshot) (_ : MirrorItem) (_ : Heartbeat) (s : State) =>
      (s.blkOn bTWIN = true) ∧ (twinned s = true) ∧ (s.cmd.mode = .run) ∧ (s.calm = true) ∧ (bit s.cmd.safeCause scPARITY = false) ∧ (s.twin.paired = false))
      5 5 4 1000 ⟨0x0B, 7, false, .spi, 0, 0, 1⟩ ⟨[(0x720010, 7), (0x730000, 9)], 0, 3, 12⟩ (.stateReset 9) ⟨1, 1, 1, 4, 0, 5, false⟩ (let s := Tests.pair .isolated; { s with twin := { s.twin with gander := .standby } }) ∧
    (fun (t _ a since : Nat) (c : Cmd) (_ : Snapshot) (_ : MirrorItem) (h : Heartbeat) (s : State) =>
      (
((s.blkOn bTWIN = true) ∧ (twinned s = true) ∧ (s.cmd.mode = .run) ∧ (s.calm = true) ∧ (bit s.cmd.safeCause scPARITY = false)) ∧ 
  let s0 := s.at t
  (s.twin.role = .active) ∧ (s.twin.paired = true) ∧ (s.twin.lanes ≠ 0) ∧ (since + ms 2 ≤ s0.now)) ∧
      (
((s.blkOn bTWIN = true) ∧ (twinned s = true) ∧ (s.cmd.mode = .run) ∧ (s.calm = true) ∧ (bit s.cmd.safeCause scPARITY = false)) ∧ 
  let s0 := s.at t
  (s.twin.role = .active) ∧ (s.twin.yield = [(some c, a)]) ∧ (a + ms 10 ≤ s0.now) ∧ (s.twin.peerSeen = true) ∧ (s.twin.peer = some h) ∧ (h.sym = 1) ∧ (s.twin.gander = .lost)))
      5 5 4 1000 ⟨0x0B, 7, false, .spi, 0, 0, 1⟩ ⟨[(0x720010, 7), (0x730000, 9)], 0, 3, 12⟩ (.stateReset 9) ⟨1, 1, 1, 4, 0, 5, false⟩ (let s := Tests.pair .active; { s with now := 1310720000000, twin := { s.twin with paired := true, peerSeen := true, peer := some ⟨1, 1, 1, 4, 0, 5, false⟩, gander := .lost, yield := [(some ⟨0x0B, 7, false, .spi, 0, 0, 1⟩, 4)] } }) ∧
    (fun (_ _ _ _ : Nat) (_ : Cmd) (x : Snapshot) (_ : MirrorItem) (_ : Heartbeat) (s : State) =>
      (
((s.blkOn bTWIN = true) ∧ (twinned s = true) ∧ (s.cmd.mode = .run) ∧ (s.calm = true) ∧ (bit s.cmd.safeCause scPARITY = false)) ∧ 
  let table := fun (b : Bool) (w : Nat) => (snapMask (phys b w) = 0 ∨ swapBank w ≠ w : Prop)
  (s.twin.role = .isolated) ∧ (s.twin.resyncing = true) ∧ (s.twin.held = []) ∧ (x.off = s.time.off) ∧ ((∀ e ∈ s.regs, table s.bankSel e.1)) ∧ ((∀ e ∈ x.regs, table false e.1))) ∧
      ((s.blkOn bTWIN = true) ∧ (twinned s = true) ∧ (s.cmd.mode = .run) ∧ (s.calm = true) ∧ (bit s.cmd.safeCause scPARITY = false) ∧ (s.twin.lanes ≠ 0) ∧ (s.twin.resyncing = true)))
      5 5 4 1000 ⟨0x0B, 7, false, .spi, 0, 0, 1⟩ ⟨[(0x720010, 7), (0x730000, 9)], 0, 3, 12⟩ (.stateReset 9) ⟨1, 1, 1, 4, 0, 5, false⟩ (let s := Tests.pair .isolated; { s.wr 0x720004 5 with twin := { s.twin with resyncing := true, resync := .asked } }) ∧
    (fun (_ n a _ : Nat) (_ : Cmd) (_ : Snapshot) (_ : MirrorItem) (_ : Heartbeat) (s : State) =>
      (s.blkOn bTWIN = true) ∧ (twinned s = true) ∧ (s.cmd.mode = .run) ∧ (s.calm = true) ∧ (bit s.cmd.safeCause scPARITY = false) ∧ (s.twin.lanes ≠ 0) ∧ (s.twin.resyncing = false) ∧ (s.twin.role = .standby) ∧ (s.twin.seqIn = some a) ∧ (s.twin.yield = []) ∧ (s.twin.takeover = []) ∧ (n ≠ a + 1))
      5 6 4 1000 ⟨0x0B, 7, false, .spi, 0, 0, 1⟩ ⟨[(0x720010, 7), (0x730000, 9)], 0, 3, 12⟩ (.stateReset 9) ⟨1, 1, 1, 4, 0, 5, false⟩ (let s := Tests.pair .standby; { s with twin := { s.twin with seqIn := some 4 } }) ∧
    (fun (_ n a since : Nat) (_ : Cmd) (_ : Snapshot) (m : MirrorItem) (_ : Heartbeat) (s : State) =>
      (s.blkOn bTWIN = true) ∧ (twinned s = true) ∧ (s.cmd.mode = .run) ∧ (s.calm = true) ∧ (bit s.cmd.safeCause scPARITY = false) ∧ (s.twin.lanes ≠ 0) ∧ (s.twin.resyncing = false) ∧ (s.twin.role = .standby) ∧ (s.twin.seqIn = some a) ∧ (s.twin.yield = []) ∧ (s.twin.takeover = []) ∧ (n = a + 1) ∧ (m = .banks since (banksCrc s)))
      5 5 4 1000 ⟨0x0B, 7, false, .spi, 0, 0, 1⟩ ⟨[(0x720010, 7), (0x730000, 9)], 0, 3, 12⟩ (.banks 1000 (banksCrc (Tests.pair .standby))) ⟨1, 1, 1, 4, 0, 5, false⟩ (let s := Tests.pair .standby; { s with twin := { s.twin with seqIn := some 4 } }) ∧
    (fun (_ n a since : Nat) (_ : Cmd) (_ : Snapshot) (m : MirrorItem) (_ : Heartbeat) (s : State) =>
      (s.blkOn bTWIN = true) ∧ (twinned s = true) ∧ (s.cmd.mode = .run) ∧ (s.calm = true) ∧ (bit s.cmd.safeCause scPARITY = false) ∧ (s.twin.lanes ≠ 0) ∧ (s.twin.resyncing = false) ∧ (s.twin.role = .standby) ∧ (s.twin.seqIn = some a) ∧ (s.twin.yield = []) ∧ (s.twin.takeover = []) ∧ (n = a + 1) ∧ (m = .stateReset since))
      5 5 4 1000 ⟨0x0B, 7, false, .spi, 0, 0, 1⟩ ⟨[(0x720010, 7), (0x730000, 9)], 0, 3, 12⟩ (.stateReset 1000) ⟨1, 1, 1, 4, 0, 5, false⟩ (let s := Tests.pair .standby; { s with twin := { s.twin with seqIn := some 4 } }) ∧
    (fun (_ n _ since : Nat) (_ : Cmd) (_ : Snapshot) (m : MirrorItem) (_ : Heartbeat) (s : State) =>
      (s.blkOn bTWIN = true) ∧ (twinned s = true) ∧ (s.cmd.mode = .run) ∧ (s.calm = true) ∧ (bit s.cmd.safeCause scPARITY = false) ∧ (s.twin.lanes ≠ 0) ∧ (s.twin.resyncing = false) ∧ (s.twin.role = .isolated) ∧ (s.twin.resync = .idle) ∧ (m = .write n since))
      5 5 4 1000 ⟨0x0B, 7, false, .spi, 0, 0, 1⟩ ⟨[(0x720010, 7), (0x730000, 9)], 0, 3, 12⟩ (.write 5 1000) ⟨1, 1, 1, 4, 0, 5, false⟩ (let s := Tests.pair .isolated; { s with twin := { s.twin with seqIn := some 4 } }) ∧
    (fun (t _ _ since : Nat) (_ : Cmd) (_ : Snapshot) (_ : MirrorItem) (_ : Heartbeat) (s : State) =>
      ((s.blkOn bTWIN = true) ∧ (twinned s = true) ∧ (s.cmd.mode = .run) ∧ (s.calm = true) ∧ (bit s.cmd.safeCause scPARITY = false)) ∧ 
  let s0 := s.at t
  let clean := secs (s.fld TWIN.RESYNC_CTL TWIN.RESYNC_CTL_CLEAN_S)
  (s.twin.resync = .watching since) ∧ (s.twin.cleanSeen = false) ∧ (s0.now < s.twin.cleanFrom + clean) ∧ (s0.now < since + secs (s.fld TWIN.RESYNC_CTL TWIN.RESYNC_CTL_LIMIT_S)))
      5 5 4 1000 ⟨0x0B, 7, false, .spi, 0, 0, 1⟩ ⟨[(0x720010, 7), (0x730000, 9)], 0, 3, 12⟩ (.stateReset 9) ⟨1, 1, 1, 4, 0, 5, false⟩ (let s := Tests.pair .isolated; { s with now := 1001, twin := { s.twin with resync := .watching 1000, cleanFrom := 1000 } }) ∧
    (fun (t _ _ since : Nat) (_ : Cmd) (_ : Snapshot) (_ : MirrorItem) (_ : Heartbeat) (s : State) =>
      ((s.blkOn bTWIN = true) ∧ (twinned s = true) ∧ (s.cmd.mode = .run) ∧ (s.calm = true) ∧ (bit s.cmd.safeCause scPARITY = false)) ∧ 
  let s0 := s.at t
  let clean := secs (s.fld TWIN.RESYNC_CTL TWIN.RESYNC_CTL_CLEAN_S)
  (s.twin.resync = .watching since) ∧ (s.twin.cleanSeen = false) ∧ (s0.now < s.twin.cleanFrom + clean) ∧ (since + secs (s.fld TWIN.RESYNC_CTL TWIN.RESYNC_CTL_LIMIT_S) ≤ s0.now))
      5 5 4 1000 ⟨0x0B, 7, false, .spi, 0, 0, 1⟩ ⟨[(0x720010, 7), (0x730000, 9)], 0, 3, 12⟩ (.stateReset 9) ⟨1, 1, 1, 4, 0, 5, false⟩ (let s := (Tests.pair .isolated).wr TWIN.RESYNC_CTL 0x11400; { s with now := 65536 * 15 * 10 ^ 9, twin := { s.twin with resync := .watching 1000, cleanFrom := 65536 * 10 ^ 9 } }) ∧
    (fun (t _ a since : Nat) (_ : Cmd) (_ : Snapshot) (_ : MirrorItem) (h : Heartbeat) (s : State) =>
      ((s.blkOn bTWIN = true) ∧ (twinned s = true) ∧ (s.cmd.mode = .run) ∧ (s.calm = true) ∧ (bit s.cmd.safeCause scPARITY = false)) ∧ 
  let s0 := s.at t
  let clean := secs (s.fld TWIN.RESYNC_CTL TWIN.RESYNC_CTL_CLEAN_S)
  let seen := s.twin.paired = true ∧ s.twin.peerSeen = true ∧ s.twin.peer = some h ∧ h.role = 1 ∧ s.twin.ind = 0
  (s.twin.role = .isolated) ∧ (seen) ∧ (s.twin.timeOk = true) ∧ (s.twin.gander = .standby) ∧ (s.twin.resyncing = false) ∧ (s.twin.resync = .watching since) ∧ (s.fld TWIN.TWIN_FORCE TWIN.TWIN_FORCE_FORCE = 0) ∧ (s.twin.cleanFrom + clean ≤ s0.now) ∧ (s.twin.cmpAt = some a) ∧ (s0.now ≤ a + clean) ∧ (s.now < t) ∧ (s.flag TWIN.TWIN_CTL TWIN.TWIN_CTL_AUTO_REJOIN = true) ∧ (s.twin.rejoinHeld = false) ∧ (s.twin.yield = []) ∧ (s.twin.takeover = []))
      688128000000001 5 655360000000000 1000 ⟨0x0B, 7, false, .spi, 0, 0, 1⟩ ⟨[(0x720010, 7), (0x730000, 9)], 0, 3, 12⟩ (.stateReset 9) ⟨1, 1, 1, 4, 0, 5, false⟩ (let s := (Tests.pair .isolated).wr TWIN.TWIN_CTL 0xFFFFFFFF; { s with now := 65536 * 10 ^ 10 + 65536 * 5 * 10 ^ 8, twin := { s.twin with paired := true, peerSeen := true, peer := some ⟨1, 1, 1, 4, 0, 5, false⟩, timeOk := true, gander := .standby, resync := .watching 1000, cmpAt := some (65536 * 10 ^ 10), cleanFrom := 0 } }) ∧
    (fun (t _ a since : Nat) (_ : Cmd) (_ : Snapshot) (_ : MirrorItem) (h : Heartbeat) (s : State) =>
      ((s.blkOn bTWIN = true) ∧ (twinned s = true) ∧ (s.cmd.mode = .run) ∧ (s.calm = true) ∧ (bit s.cmd.safeCause scPARITY = false)) ∧ 
  let s0 := s.at t
  let clean := secs (s.fld TWIN.RESYNC_CTL TWIN.RESYNC_CTL_CLEAN_S)
  let seen := s.twin.paired = true ∧ s.twin.peerSeen = true ∧ s.twin.peer = some h ∧ h.role = 1 ∧ s.twin.ind = 0
  (s.twin.role = .isolated) ∧ (seen) ∧ (s.twin.timeOk = true) ∧ (s.twin.gander = .standby) ∧ (s.twin.resyncing = false) ∧ (s.twin.resync = .watching since) ∧ (s.fld TWIN.TWIN_FORCE TWIN.TWIN_FORCE_FORCE = 0) ∧ (s.twin.cleanFrom + clean ≤ s0.now) ∧ (s.twin.cmpAt = some a) ∧ (s0.now ≤ a + clean) ∧ (s.twin.rejoinHeld = true) ∧ (s.twin.rejoinOk = false))
      5 5 655360000000000 1000 ⟨0x0B, 7, false, .spi, 0, 0, 1⟩ ⟨[(0x720010, 7), (0x730000, 9)], 0, 3, 12⟩ (.stateReset 9) ⟨1, 1, 1, 4, 0, 5, false⟩ (let s := (Tests.pair .isolated).wr TWIN.TWIN_CTL 0xFFFFFFFF; { s with now := 65536 * 10 ^ 10 + 65536 * 5 * 10 ^ 8, twin := { s.twin with paired := true, peerSeen := true, peer := some ⟨1, 1, 1, 4, 0, 5, false⟩, timeOk := true, gander := .standby, resync := .watching 1000, cmpAt := some (65536 * 10 ^ 10), cleanFrom := 0, rejoinHeld := true } }) ∧
    (fun (t _ a _ : Nat) (c : Cmd) (_ : Snapshot) (_ : MirrorItem) (_ : Heartbeat) (s : State) =>
      ((s.blkOn bTWIN = true) ∧ (twinned s = true) ∧ (s.cmd.mode = .run) ∧ (s.calm = true) ∧ (bit s.cmd.safeCause scPARITY = false)) ∧ 
  let s0 := s.at t
  (s.twin.takeover = [(c, a)]) ∧ (s0.now < a + ms 10))
      5 5 4 1000 ⟨0x0B, 7, false, .spi, 0, 0, 1⟩ ⟨[(0x720010, 7), (0x730000, 9)], 0, 3, 12⟩ (.stateReset 9) ⟨1, 1, 1, 4, 0, 5, false⟩ (let s := Tests.pair .standby; { s with now := 5, twin := { s.twin with takeover := [(⟨0x0B, 7, false, .spi, 0, 0, 1⟩, 4)] } }) ∧
    (fun (t _ a _ : Nat) (c : Cmd) (_ : Snapshot) (_ : MirrorItem) (_ : Heartbeat) (s : State) =>
      ((s.blkOn bTWIN = true) ∧ (twinned s = true) ∧ (s.cmd.mode = .run) ∧ (s.calm = true) ∧ (bit s.cmd.safeCause scPARITY = false)) ∧ 
  let s0 := s.at t
  (s.twin.takeover = [(c, a)]) ∧ (a + ms 10 ≤ s0.now))
      5 5 4 1000 ⟨0x0B, 7, false, .spi, 0, 0, 1⟩ ⟨[(0x720010, 7), (0x730000, 9)], 0, 3, 12⟩ (.stateReset 9) ⟨1, 1, 1, 4, 0, 5, false⟩ (let s := Tests.pair .standby; { s with now := 1310720000000, twin := { s.twin with takeover := [(⟨0x0B, 7, false, .spi, 0, 0, 1⟩, 4)] } }) ∧
    (fun (t _ a _ : Nat) (_ : Cmd) (_ : Snapshot) (_ : MirrorItem) (_ : Heartbeat) (s : State) =>
      ((s.blkOn bTWIN = true) ∧ (twinned s = true) ∧ (s.cmd.mode = .run) ∧ (s.calm = true) ∧ (bit s.cmd.safeCause scPARITY = false)) ∧ 
  let s0 := s.at t
  (s.twin.role = .active) ∧ (s.twin.yield = [(none, a)]) ∧ (s0.now < a + ms 10))
      5 5 4 1000 ⟨0x0B, 7, false, .spi, 0, 0, 1⟩ ⟨[(0x720010, 7), (0x730000, 9)], 0, 3, 12⟩ (.stateReset 9) ⟨1, 1, 1, 4, 0, 5, false⟩ (let s := Tests.pair .active; { s with now := 5, twin := { s.twin with yield := [(none, 4)] } }) ∧
    (fun (t _ a _ : Nat) (_ : Cmd) (_ : Snapshot) (_ : MirrorItem) (_ : Heartbeat) (s : State) =>
      ((s.blkOn bTWIN = true) ∧ (twinned s = true) ∧ (s.cmd.mode = .run) ∧ (s.calm = true) ∧ (bit s.cmd.safeCause scPARITY = false)) ∧ 
  let s0 := s.at t
  (s.twin.role = .active) ∧ (s.twin.yield = [(none, a)]) ∧ (a + ms 10 ≤ s0.now))
      5 5 4 1000 ⟨0x0B, 7, false, .spi, 0, 0, 1⟩ ⟨[(0x720010, 7), (0x730000, 9)], 0, 3, 12⟩ (.stateReset 9) ⟨1, 1, 1, 4, 0, 5, false⟩ (let s := Tests.pair .active; { s with now := 1310720000000, twin := { s.twin with yield := [(none, 4)] } }) ∧
    (fun (t _ a _ : Nat) (c : Cmd) (_ : Snapshot) (_ : MirrorItem) (_ : Heartbeat) (s : State) =>
      ((s.blkOn bTWIN = true) ∧ (twinned s = true) ∧ (s.cmd.mode = .run) ∧ (s.calm = true) ∧ (bit s.cmd.safeCause scPARITY = false)) ∧ 
  let s0 := s.at t
  (s.twin.role = .active) ∧ (s.twin.yield = [(some c, a)]) ∧ (a + ms 10 ≤ s0.now) ∧ (s.twin.peerSeen = false))
      5 5 4 1000 ⟨0x0B, 7, false, .spi, 0, 0, 1⟩ ⟨[(0x720010, 7), (0x730000, 9)], 0, 3, 12⟩ (.stateReset 9) ⟨1, 1, 1, 4, 0, 5, false⟩ (let s := Tests.pair .active; { s with now := 1310720000000, twin := { s.twin with yield := [(some ⟨0x0B, 7, false, .spi, 0, 0, 1⟩, 4)] } }) :=
  ⟨by decide +kernel, by decide +kernel, by decide +kernel, by decide +kernel, by decide +kernel, by decide +kernel, by decide +kernel, by decide +kernel, by decide +kernel, by decide +kernel, by decide +kernel, by decide +kernel, by decide +kernel, by decide +kernel, by decide +kernel, by decide +kernel, by decide +kernel⟩

theorem witness_FabricLanes :
    (fun (_ l _ _ _ _ _ : Nat) (_ : LaneHello) (_ : LinkState) (s : State) =>
      (fabHere s l = true) ∧ (fabTwin s = false) ∧ (s.fab.tm = none) ∧ (s.fab.st = .discovering))
      5 0 9 8 1 807 7 ⟨77, 3, some 0⟩ ⟨77, 5, 0, 0, false, false, false, false, []⟩ (let s := (Tests.inMode .run).wr FAB.CTL 0; { s with now := 1000, fab := { s.fab with st := .discovering, lanes := [(0, { UbLaneS.init with lock := false })] } }) ∧
    (fun (t l a b _ _ _ : Nat) (h : LaneHello) (_ : LinkState) (s : State) =>
      ((fabHere s l = true) ∧ (fabTwin s = false) ∧ (s.fab.tm = none) ∧ (s.fab.st = .discovering)) ∧ 
  let s0 := s.at t
  let x := fabLane s l
  (x.up = false) ∧ (x.refuse ≠ 2) ∧ (x.hellos = [a, b]) ∧ (s0.now ≤ b + ms 3) ∧ (h.serial ≠ s.chip.fuses.serial) ∧ (h.heard = some s.chip.fuses.serial))
      5 0 9 8 1 807 7 ⟨77, 3, some State.reset.chip.fuses.serial⟩ ⟨77, 5, 0, 0, false, false, false, false, []⟩ (let s := (Tests.inMode .run).wr FAB.CTL 0; { s with now := 1000, fab := { s.fab with st := .discovering, lanes := [(0, { UbLaneS.init with hellos := [9, 8] })] } }) ∧
    (fun (t l _ _ _ trip res : Nat) (h : LaneHello) (_ : LinkState) (s : State) =>
      (
((fabHere s l = true) ∧ (fabTwin s = false) ∧ (s.fab.tm = none) ∧ (s.fab.st = .discovering)) ∧ 
  let x := fabLane s l
  (x.up = true) ∧ (h.serial = s.chip.fuses.serial)) ∧
      (
((fabHere s l = true) ∧ (fabTwin s = false) ∧ (s.fab.tm = none) ∧ (s.fab.st = .discovering)) ∧ 
  let s0 := s.at t
  let x := fabLane s l
  (x.up = true) ∧ (s0.now < x.hellos.headD 0 + ms 3)) ∧
      (
((fabHere s l = true) ∧ (fabTwin s = false) ∧ (s.fab.tm = none) ∧ (s.fab.st = .discovering)) ∧ 
  let x := fabLane s l
  (x.up = true)) ∧
      (
((fabHere s l = true) ∧ (fabTwin s = false) ∧ (s.fab.tm = none) ∧ (s.fab.st = .discovering)) ∧ 
  let x := fabLane s l
  let last := ((trip - res) :: x.samples).take 16
  let mean := last.foldl (· + ·) 0 / (2 * last.length)
  (x.up = true) ∧ (mean ≤ 10000)))
      5 0 9 8 1 807 7 ⟨State.reset.chip.fuses.serial, 3, some State.reset.chip.fuses.serial⟩ ⟨77, 5, 0, 0, false, false, false, false, []⟩ (let s := (Tests.inMode .run).wr FAB.CTL 0; { s with now := 1000, fab := { s.fab with st := .discovering, lanes := [(0, { UbLaneS.init with up := true, hellos := [9, 8] })] } }) ∧
    (fun (t l _ _ _ _ _ : Nat) (_ : LaneHello) (_ : LinkState) (s : State) =>
      ((fabHere s l = true) ∧ (fabTwin s = false) ∧ (s.fab.tm = none) ∧ (s.fab.st = .discovering)) ∧ 
  let s0 := s.at t
  let x := fabLane s l
  (x.up = true) ∧ (x.hellos.headD 0 + ms 3 ≤ s0.now))
      5 0 9 8 1 807 7 ⟨77, 3, some 0⟩ ⟨77, 5, 0, 0, false, false, false, false, []⟩ (let s := (Tests.inMode .run).wr FAB.CTL 0; { s with now := 262144000000, fab := { s.fab with st := .discovering, lanes := [(0, { UbLaneS.init with up := true, hellos := [9, 8] })] } }) ∧
    (fun (_ l _ _ _ trip res : Nat) (_ : LaneHello) (_ : LinkState) (s : State) =>
      ((fabHere s l = true) ∧ (fabTwin s = false) ∧ (s.fab.tm = none) ∧ (s.fab.st = .discovering)) ∧ 
  let x := fabLane s l
  let last := ((trip - res) :: x.samples).take 16
  let mean := last.foldl (· + ·) 0 / (2 * last.length)
  (x.up = true) ∧ (10000 < mean))
      5 0 9 8 1 40007 7 ⟨77, 3, some 0⟩ ⟨77, 5, 0, 0, false, false, false, false, []⟩ (let s := (Tests.inMode .run).wr FAB.CTL 0; { s with now := 1000, fab := { s.fab with st := .discovering, lanes := [(0, { UbLaneS.init with up := true, hellos := [9, 8] })] } }) ∧
    (fun (_ l _ _ k _ _ : Nat) (_ : LaneHello) (rec : LinkState) (s : State) =>
      ((fabHere s l = true) ∧ (fabTwin s = false) ∧ (s.fab.tm = none) ∧ (s.fab.st = .discovering) ∧ (fabPart s = true) ∧ (k < 8) ∧ ((fabLane s k).up = true)) ∧
      (
((fabHere s l = true) ∧ (fabTwin s = false) ∧ (s.fab.tm = none) ∧ (s.fab.st = .discovering)) ∧ 
  let x := fabLane s l
  let newer := s.fab.recs.filter (fun r => r.serial != rec.serial) ++ [rec]
  (fabPart s = true) ∧ (x.up = true) ∧ (rec.serial ≠ s.chip.fuses.serial) ∧ ((∀ r ∈ s.fab.recs, r.serial = rec.serial → r.ver < rec.ver)) ∧ (rec.form = false) ∧ (fabReach { s with fab := { s.fab with recs := newer } } = s.fab.reach) ∧ (k < 8) ∧ (k ≠ l) ∧ ((fabLane s k).up = true)))
      5 0 9 8 1 807 7 ⟨77, 3, some 0⟩ ⟨77, 5, 0, 0, false, false, false, false, []⟩ (let s := (Tests.inMode .run).wr FAB.CTL 1; { s with now := 1000, fab := { s.fab with st := .discovering, lanes := [(0, { UbLaneS.init with up := true }), (1, { UbLaneS.init with up := true })], recs := [⟨77, 4, 0, 0, false, false, false, false, []⟩, ⟨88, 4, 0, 0, false, false, false, false, []⟩], reach := [State.reset.chip.fuses.serial] } }) ∧
    (fun (_ l _ _ _ _ _ : Nat) (_ : LaneHello) (rec : LinkState) (s : State) =>
      ((fabHere s l = true) ∧ (fabTwin s = false) ∧ (s.fab.tm = none) ∧ (s.fab.st = .discovering)) ∧ 
  let x := fabLane s l
  (fabPart s = true) ∧ (x.up = true) ∧ (rec.serial = s.chip.fuses.serial))
      5 0 9 8 1 807 7 ⟨77, 3, some 0⟩ ⟨State.reset.chip.fuses.serial, 5, 0, 0, false, false, false, false, []⟩ (let s := (Tests.inMode .run).wr FAB.CTL 1; { s with now := 1000, fab := { s.fab with st := .discovering, lanes := [(0, { UbLaneS.init with up := true })] } }) ∧
    (fun (t l _ _ _ _ _ : Nat) (_ : LaneHello) (_ : LinkState) (s : State) =>
      ((fabHere s l = true) ∧ (fabTwin s = false) ∧ (s.fab.tm = none) ∧ (s.fab.st = .discovering)) ∧ 
  let s0 := s.at t
  (fabPart s = true) ∧ (s.fld FAB.CTL FAB.CTL_EXPECT = (fabReach s).length) ∧ (s.fab.flows = []) ∧ (s0.now < s.fab.changeAt + ms 100))
      5 0 9 8 1 807 7 ⟨77, 3, some 0⟩ ⟨77, 5, 0, 0, false, false, false, false, []⟩ (let s := (Tests.inMode .run).wr FAB.CTL 3; { s with now := 5, fab := { s.fab with st := .discovering, lanes := [(0, { UbLaneS.init with up := true })] } }) ∧
    (fun (t l _ _ _ _ _ : Nat) (_ : LaneHello) (_ : LinkState) (s : State) =>
      ((fabHere s l = true) ∧ (fabTwin s = false) ∧ (s.fab.tm = none) ∧ (s.fab.st = .discovering)) ∧ 
  let s0 := s.at t
  (fabPart s = true) ∧ (s.fld FAB.CTL FAB.CTL_EXPECT = (fabReach s).length) ∧ (s.fab.flows = []) ∧ (s.fab.changeAt + ms 100 ≤ s0.now) ∧ (0 < (fabReach s).length) ∧ ((fabReach s).length ≤ 64))
      5 0 9 8 1 807 7 ⟨77, 3, some 0⟩ ⟨77, 5, 0, 0, false, false, false, false, []⟩ (let s := (Tests.inMode .run).wr FAB.CTL 3; { s with now := 13107200000000, fab := { s.fab with st := .discovering, lanes := [(0, { UbLaneS.init with up := true })] } }) :=
  ⟨by decide +kernel, by decide +kernel, by decide +kernel, by decide +kernel, by decide +kernel, by decide +kernel, by decide +kernel, by decide +kernel, by decide +kernel⟩

theorem witness_FabricFlows :
    (fun (t _ _ _ _ _ : Nat) (_ : Int) (_ : List Byte) (_ : FabFlowS) (_ : List (Nat × Nat)) (s : State) =>
      (
((fabFormed s = true)) ∧ 
  let s0 := s.at t
  (fabTopology s0 = s0) ∧ (s.fab.flows = [])) ∧
      (
((fabFormed s = true)) ∧ 
  let s0 := s.at t
  let me := myId s
  (fabMaster s0 = s0) ∧ (s.fab.tm ≠ some me)))
      5 0 2 0 1 3 (0) [] FabFlowS.init [] (let s := ((Tests.inMode .run).wr FAB.CTL 1).wr (FAB.FLOW_W0 2) 0; { s with time := { s.time with stc := 0 * 2 ^ 56, st := .locked }, fab := { s.fab with st := .formed, lanes := [(0, { UbLaneS.init with up := true, delay := 400, neigh := some (77, 3) })], recs := [⟨77, 5, 0, 0, false, false, false, false, [⟨3, State.reset.chip.fuses.serial, 0⟩]⟩], reach := [State.reset.chip.fuses.serial, 77], formed := [State.reset.chip.fuses.serial, 77], present := 3, flows := [] } }) ∧
    (fun (t _ f _ _ _ : Nat) (_ : Int) (_ : List Byte) (x : FabFlowS) (_ : List (Nat × Nat)) (s : State) =>
      ((fabFormed s = true)) ∧ 
  let s0 := s.at t
  (fabTopology s0 = s0) ∧ (s.fab.flows = [(f, x)]) ∧ (x.st = 1) ∧ (x.stopped = true) ∧ (pathWhole (fabEdges s) x.path = false))
      5 0 2 0 1 3 (0) [] { FabFlowS.init with st := 1, stopped := true, path := [(0, 5)] } [] (let s := ((Tests.inMode .run).wr FAB.CTL 1).wr (FAB.FLOW_W0 2) 0; { s with time := { s.time with stc := 0 * 2 ^ 56, st := .locked }, fab := { s.fab with st := .formed, lanes := [(0, { UbLaneS.init with up := true, delay := 400, neigh := some (77, 3) })], recs := [⟨77, 5, 0, 0, false, false, false, false, [⟨3, State.reset.chip.fuses.serial, 0⟩]⟩], reach := [State.reset.chip.fuses.serial, 77], formed := [State.reset.chip.fuses.serial, 77], present := 3, flows := [(2, { FabFlowS.init with st := 1, stopped := true, path := [(0, 5)] })] } }) ∧
    (fun (t _ _ i _ _ : Nat) (_ : Int) (_ : List Byte) (_ : FabFlowS) (_ : List (Nat × Nat)) (s : State) =>
      ((fabFormed s = true)) ∧ 
  let s0 := s.at t
  let me := myId s
  (fabMaster s0 = s0) ∧ (s.fab.tm = some me) ∧ (i ∈ treeLanes s me))
      5 0 2 0 1 3 (0) [] FabFlowS.init [] (let s := ((Tests.inMode .run).wr FAB.CTL 257).wr (FAB.FLOW_W0 2) 0; { s with time := { s.time with stc := 0 * 2 ^ 56, st := .locked }, fab := { s.fab with st := .formed, lanes := [(0, { UbLaneS.init with up := true, delay := 400, neigh := some (77, 3) })], recs := [⟨77, 5, 0, 0, false, false, false, false, [⟨3, State.reset.chip.fuses.serial, 0⟩]⟩], reach := [State.reset.chip.fuses.serial, 77], formed := [State.reset.chip.fuses.serial, 77], present := 3, flows := [], tm := some 0, routes := [(0, (0, 0)), (1, (0, 1))] } }) ∧
    (fun (t l _ _ m _ : Nat) (_ : Int) (_ : List Byte) (_ : FabFlowS) (_ : List (Nat × Nat)) (s : State) =>
      ((fabFormed s = true)) ∧ 
  let s0 := s.at t
  let me := myId s
  let from_ := fabHere s l = true ∧ (fabLane s l).up = true ∧ s.fab.tm = some m ∧ m ≠ me ∧ fabMaster s0 = s0
  let run := s.fab.valid = false ∧ s0.now < s.fab.tmAt + ms 2
  (from_) ∧ (run) ∧ (s.fab.tmRun < 15))
      5 0 2 0 1 3 (0) [] FabFlowS.init [] (let s := ((Tests.inMode .run).wr FAB.CTL 1).wr (FAB.FLOW_W0 2) 0; { s with time := { s.time with stc := 0 * 2 ^ 56, st := .locked }, fab := { s.fab with st := .formed, lanes := [(0, { UbLaneS.init with up := true, delay := 400, neigh := some (77, 3) })], recs := [⟨77, 5, 0, 0, true, false, false, false, [⟨3, State.reset.chip.fuses.serial, 0⟩]⟩], reach := [State.reset.chip.fuses.serial, 77], formed := [State.reset.chip.fuses.serial, 77], present := 3, flows := [], tm := some 1 } }) ∧
    (fun (t l _ _ m _ : Nat) (stc8 : Int) (_ : List Byte) (_ : FabFlowS) (_ : List (Nat × Nat)) (s : State) =>
      ((fabFormed s = true)) ∧ 
  let s0 := s.at t
  let me := myId s
  let here := stc8 + ((fabLane s l).delay : Int) * 256 / 100
  let skewed := 25600 < (here - (s0.stc8 : Int)).natAbs
  let from_ := fabHere s l = true ∧ (fabLane s l).up = true ∧ s.fab.tm = some m ∧ m ≠ me ∧ fabMaster s0 = s0
  let run := s.fab.valid = false ∧ s0.now < s.fab.tmAt + ms 2
  (from_) ∧ (run) ∧ (15 ≤ s.fab.tmRun) ∧ (¬skewed) ∧ (s.fab.skew = false))
      5 0 2 0 1 3 (0) [] FabFlowS.init [] (let s := ((Tests.inMode .run).wr FAB.CTL 1).wr (FAB.FLOW_W0 2) 0; { s with time := { s.time with stc := 0 * 2 ^ 56, st := .locked }, fab := { s.fab with st := .formed, lanes := [(0, { UbLaneS.init with up := true, delay := 400, neigh := some (77, 3) })], recs := [⟨77, 5, 0, 0, true, false, false, false, [⟨3, State.reset.chip.fuses.serial, 0⟩]⟩], reach := [State.reset.chip.fuses.serial, 77], formed := [State.reset.chip.fuses.serial, 77], present := 3, flows := [], tm := some 1, tmRun := 15 } }) ∧
    (fun (t l _ _ m _ : Nat) (stc8 : Int) (_ : List Byte) (_ : FabFlowS) (_ : List (Nat × Nat)) (s : State) =>
      ((fabFormed s = true)) ∧ 
  let s0 := s.at t
  let me := myId s
  let here := stc8 + ((fabLane s l).delay : Int) * 256 / 100
  let skewed := 25600 < (here - (s0.stc8 : Int)).natAbs
  let from_ := fabHere s l = true ∧ (fabLane s l).up = true ∧ s.fab.tm = some m ∧ m ≠ me ∧ fabMaster s0 = s0
  (from_) ∧ (s.fab.valid = true) ∧ (skewed) ∧ (s.fab.skew = false) ∧ (s.fab.skewBad = 9))
      5 0 2 0 1 3 (1000000000) [] FabFlowS.init [] (let s := ((Tests.inMode .run).wr FAB.CTL 1).wr (FAB.FLOW_W0 2) 0; { s with time := { s.time with stc := 0 * 2 ^ 56, st := .locked }, fab := { s.fab with st := .formed, lanes := [(0, { UbLaneS.init with up := true, delay := 400, neigh := some (77, 3) })], recs := [⟨77, 5, 0, 0, true, false, false, false, [⟨3, State.reset.chip.fuses.serial, 0⟩]⟩], reach := [State.reset.chip.fuses.serial, 77], formed := [State.reset.chip.fuses.serial, 77], present := 3, flows := [], tm := some 1, tmRun := 15, skewBad := 9, valid := true } }) ∧
    (fun (t l f _ _ _ : Nat) (_ : Int) (_ : List Byte) (x : FabFlowS) (r : List (Nat × Nat)) (s : State) =>
      ((fabFormed s = true)) ∧ 
  let s0 := s.at t
  let me := myId s
  let d := fabDef s f
  let g := Nat.max 1 d.g
  let hz := fabHz s d
  let n := s0.time.stc * hz / stcSec 1
  (fabFlow s f = x) ∧ (x.st = 1) ∧ (d.src = me) ∧ (g ≤ n + 1) ∧ (x.sent ≤ ((n + 1) / g - 1) * g) ∧ (x.path = (me, l) :: r))
      5 0 2 0 1 3 (0) [] { FabFlowS.init with d := ⟨2, 0, 1, 2, 0, 2⟩, st := 1, lF := 20, path := [(0, 0)] } [] (let s := ((Tests.inMode .run).wr FAB.CTL 1).wr (FAB.FLOW_W0 2) 33570945; { s with time := { s.time with stc := 1000000 * 2 ^ 56, st := .locked }, fab := { s.fab with st := .formed, lanes := [(0, { UbLaneS.init with up := true, delay := 400, neigh := some (77, 3) })], recs := [⟨77, 5, 0, 0, false, false, false, false, [⟨3, State.reset.chip.fuses.serial, 0⟩]⟩], reach := [State.reset.chip.fuses.serial, 77], formed := [State.reset.chip.fuses.serial, 77], present := 3, flows := [(2, { FabFlowS.init with d := ⟨2, 0, 1, 2, 0, 2⟩, st := 1, lF := 20, path := [(0, 0)] })] } }) ∧
    (fun (t _ f _ _ _ : Nat) (_ : Int) (_ : List Byte) (x : FabFlowS) (_ : List (Nat × Nat)) (s : State) =>
      ((fabFormed s = true)) ∧ 
  let s0 := s.at t
  let d := fabDef s f
  let hz := fabHz s d
  let n := s0.time.stc * hz / stcSec 1
  (fabFlow s f = x) ∧ (x.st = 1) ∧ (n + 1 < x.sent))
      5 0 2 0 1 3 (0) [] { FabFlowS.init with d := ⟨2, 0, 1, 2, 0, 2⟩, st := 1, lF := 20, sent := 9999999, path := [(0, 0)] } [] (let s := ((Tests.inMode .run).wr FAB.CTL 1).wr (FAB.FLOW_W0 2) 33570945; { s with time := { s.time with stc := 1000000 * 2 ^ 56, st := .locked }, fab := { s.fab with st := .formed, lanes := [(0, { UbLaneS.init with up := true, delay := 400, neigh := some (77, 3) })], recs := [⟨77, 5, 0, 0, false, false, false, false, [⟨3, State.reset.chip.fuses.serial, 0⟩]⟩], reach := [State.reset.chip.fuses.serial, 77], formed := [State.reset.chip.fuses.serial, 77], present := 3, flows := [(2, { FabFlowS.init with d := ⟨2, 0, 1, 2, 0, 2⟩, st := 1, lF := 20, sent := 9999999, path := [(0, 0)] })] } }) ∧
    (fun (t l f i _ _ : Nat) (_ : Int) (cell : List Byte) (x : FabFlowS) (_ : List (Nat × Nat)) (s : State) =>
      ((fabFormed s = true)) ∧ 
  let s0 := s.at t
  let me := myId s
  let d := fabDef s f
  let g := Nat.max 1 d.g
  let hz := fabHz s d
  let n := s0.time.stc * hz / stcSec 1
  let body := cell.take (cell.length - 4)
  let good := fabHere s l = true ∧ (fabLane s l).up = true ∧ cell.length = cellLen d ∧ leAt cell 4 2 = f ∧ f < 256 ∧ byteAt cell 0 = 1 ∧ byteAt cell 6 = d.g
  let whole := leAt cell (cell.length - 4) 4 = crc32 body
  let at_ := leAt cell 8 8
  (good) ∧ (whole) ∧ (byteAt cell 2 = me) ∧ (fabFlow s f = x) ∧ (d.f = f) ∧ (x.st = 1) ∧ (s0.time.stc < mediaAt hz (at_ + x.lF)) ∧ (at_ < n + 1 - x.lF + 512) ∧ (i < d.nch * d.g) ∧ (d.g ≤ 512))
      5 0 2 3 1 3 (0) (withCrc (cellBody 1 0 63 2 2 40 [⟨7, true, none⟩, ⟨8, true, none⟩, smpBad, ⟨9, true, none⟩])) { FabFlowS.init with d := ⟨2, 1, 0, 2, 0, 2⟩, st := 1, lF := 20, path := [(0, 0)] } [] (let s := ((Tests.inMode .run).wr FAB.CTL 1).wr (FAB.FLOW_W0 2) 33570819; { s with time := { s.time with stc := 1000000 * 2 ^ 56, st := .locked }, fab := { s.fab with st := .formed, lanes := [(0, { UbLaneS.init with up := true, delay := 400, neigh := some (77, 3) })], recs := [⟨77, 5, 0, 0, false, false, false, false, [⟨3, State.reset.chip.fuses.serial, 0⟩]⟩], reach := [State.reset.chip.fuses.serial, 77], formed := [State.reset.chip.fuses.serial, 77], present := 3, flows := [(2, { FabFlowS.init with d := ⟨2, 1, 0, 2, 0, 2⟩, st := 1, lF := 20, path := [(0, 0)] })] } }) ∧
    (fun (_ l f i _ _ : Nat) (_ : Int) (cell : List Byte) (_ : FabFlowS) (_ : List (Nat × Nat)) (s : State) =>
      ((fabFormed s = true)) ∧ 
  let me := myId s
  let d := fabDef s f
  let g := Nat.max 1 d.g
  let body := cell.take (cell.length - 4)
  let good := fabHere s l = true ∧ (fabLane s l).up = true ∧ cell.length = cellLen d ∧ leAt cell 4 2 = f ∧ f < 256 ∧ byteAt cell 0 = 1 ∧ byteAt cell 6 = d.g
  let whole := leAt cell (cell.length - 4) 4 = crc32 body
  (good) ∧ (whole) ∧ (byteAt cell 2 ≠ me) ∧ (byteAt cell 3 ≠ 0) ∧ ((fabFlow s f).path.find? (fun y => y.1 == me) = some (me, i)))
      5 0 2 0 1 3 (0) (withCrc (cellBody 1 1 63 2 2 40 [⟨7, true, none⟩, ⟨8, true, none⟩, smpBad, ⟨9, true, none⟩])) { FabFlowS.init with d := ⟨2, 1, 1, 2, 0, 2⟩, st := 1, path := [(1, 3), (0, 0)] } [] (let s := ((Tests.inMode .run).wr FAB.CTL 1).wr (FAB.FLOW_W0 2) 33570947; { s with time := { s.time with stc := 1000000 * 2 ^ 56, st := .locked }, fab := { s.fab with st := .formed, lanes := [(0, { UbLaneS.init with up := true, delay := 400, neigh := some (77, 3) })], recs := [⟨77, 5, 0, 0, false, false, false, false, [⟨3, State.reset.chip.fuses.serial, 0⟩]⟩], reach := [State.reset.chip.fuses.serial, 77], formed := [State.reset.chip.fuses.serial, 77], present := 3, flows := [(2, { FabFlowS.init with d := ⟨2, 1, 1, 2, 0, 2⟩, st := 1, path := [(1, 3), (0, 0)] })] } }) ∧
    (fun (_ l f _ _ _ : Nat) (_ : Int) (cell : List Byte) (_ : FabFlowS) (_ : List (Nat × Nat)) (s : State) =>
      ((fabFormed s = true)) ∧ 
  let d := fabDef s f
  let g := Nat.max 1 d.g
  let body := cell.take (cell.length - 4)
  let good := fabHere s l = true ∧ (fabLane s l).up = true ∧ cell.length = cellLen d ∧ leAt cell 4 2 = f ∧ f < 256 ∧ byteAt cell 0 = 1 ∧ byteAt cell 6 = d.g
  let whole := leAt cell (cell.length - 4) 4 = crc32 body
  (good) ∧ (¬whole))
      5 0 2 3 1 3 (0) ((withCrc (cellBody 1 0 63 2 2 40 [⟨7, true, none⟩, ⟨8, true, none⟩, smpBad, ⟨9, true, none⟩])).dropLast ++ [1]) { FabFlowS.init with d := ⟨2, 1, 0, 2, 0, 2⟩, st := 1, lF := 20, path := [(0, 0)] } [] (let s := ((Tests.inMode .run).wr FAB.CTL 1).wr (FAB.FLOW_W0 2) 33570819; { s with time := { s.time with stc := 1000000 * 2 ^ 56, st := .locked }, fab := { s.fab with st := .formed, lanes := [(0, { UbLaneS.init with up := true, delay := 400, neigh := some (77, 3) })], recs := [⟨77, 5, 0, 0, false, false, false, false, [⟨3, State.reset.chip.fuses.serial, 0⟩]⟩], reach := [State.reset.chip.fuses.serial, 77], formed := [State.reset.chip.fuses.serial, 77], present := 3, flows := [(2, { FabFlowS.init with d := ⟨2, 1, 0, 2, 0, 2⟩, st := 1, lF := 20, path := [(0, 0)] })] } }) ∧
    (fun (t _ f i _ _ : Nat) (_ : Int) (_ : List Byte) (x : FabFlowS) (_ : List (Nat × Nat)) (s : State) =>
      ((fabFormed s = true)) ∧ 
  let s0 := s.at t
  let me := myId s
  let d := fabDef s f
  let hz := fabHz s d
  let n := s0.time.stc * hz / stcSec 1
  (fabFlow s f = x) ∧ (d.f = f) ∧ (x.st = 1) ∧ (d.dst = me) ∧ (x.lF ≤ n) ∧ (x.read ≤ n - x.lF) ∧ (i < d.nch))
      5 0 2 0 1 3 (0) [] { FabFlowS.init with d := ⟨2, 1, 0, 2, 0, 2⟩, st := 1, lF := 20, read := 3, buf := [(28, ⟨7, true, none⟩)] } [] (let s := ((Tests.inMode .run).wr FAB.CTL 1).wr (FAB.FLOW_W0 2) 33570819; { s with time := { s.time with stc := 1000000 * 2 ^ 56, st := .locked }, fab := { s.fab with st := .formed, lanes := [(0, { UbLaneS.init with up := true, delay := 400, neigh := some (77, 3) })], recs := [⟨77, 5, 0, 0, false, false, false, false, [⟨3, State.reset.chip.fuses.serial, 0⟩]⟩], reach := [State.reset.chip.fuses.serial, 77], formed := [State.reset.chip.fuses.serial, 77], present := 3, flows := [(2, { FabFlowS.init with d := ⟨2, 1, 0, 2, 0, 2⟩, st := 1, lF := 20, read := 3, buf := [(28, ⟨7, true, none⟩)] })] } }) ∧
    (fun (t _ f _ _ _ : Nat) (_ : Int) (_ : List Byte) (x : FabFlowS) (_ : List (Nat × Nat)) (s : State) =>
      ((fabFormed s = true)) ∧ 
  let s0 := s.at t
  let d := fabDef s f
  let hz := fabHz s d
  let n := s0.time.stc * hz / stcSec 1
  (fabFlow s f = x) ∧ (n - x.lF < x.read))
      5 0 2 0 1 3 (0) [] { FabFlowS.init with d := ⟨2, 1, 0, 2, 0, 2⟩, st := 1, lF := 20, read := 3000 } [] (let s := ((Tests.inMode .run).wr FAB.CTL 1).wr (FAB.FLOW_W0 2) 33570819; { s with time := { s.time with stc := 1000000 * 2 ^ 56, st := .locked }, fab := { s.fab with st := .formed, lanes := [(0, { UbLaneS.init with up := true, delay := 400, neigh := some (77, 3) })], recs := [⟨77, 5, 0, 0, false, false, false, false, [⟨3, State.reset.chip.fuses.serial, 0⟩]⟩], reach := [State.reset.chip.fuses.serial, 77], formed := [State.reset.chip.fuses.serial, 77], present := 3, flows := [(2, { FabFlowS.init with d := ⟨2, 1, 0, 2, 0, 2⟩, st := 1, lF := 20, read := 3000 })] } }) :=
  ⟨by decide +kernel, by decide +kernel, by decide +kernel, by decide +kernel, by decide +kernel, by decide +kernel, by decide +kernel, by decide +kernel, by decide +kernel, by decide +kernel, by decide +kernel, by decide +kernel, by decide +kernel⟩

theorem witness_SequencerRows :
    (fun (t r tag _ _ _ : Nat) (_ : Int) (desc : List Byte) (_ : LoadS) (s : State) =>
      (
((s.calm = true) ∧ (s.cmd.started = []) ∧ (s.twin.mirCmds = [])) ∧ 
  let src : CmdSrc := .ring r (ringHead s r) (s.ring r).gen
  let cmd := fun op b => (s.at t).cmdOf src op tag b 0 0
  (224 ≤ r) ∧ (r < 256) ∧ (s.fld (ringParam r) DMA.RING_PARAM_CE_MODE = 0) ∧ (ringLive s r = true) ∧ (ringPosted s r ≠ 0) ∧ ((∀ q, q < 256 → 224 ≤ q → q ≠ r → ringLive s q = false)) ∧ ((s.at t).takesNow src = true) ∧ (tag < 256) ∧ (descWord desc 0 = 0x10 + 256 * tag) ∧ (descWord desc 1 = 0) ∧ (descWord desc 2 = 0) ∧ ((∀ i ∈ [3, 4, 5, 6, 7], descWord desc i = 0)) ∧ (s.cmd.mode = .run) ∧ (s.recorder.frozen = false)) ∧
      ((s.calm = true) ∧ (s.cmd.started = []) ∧ (s.twin.mirCmds = []) ∧ (s.blkOn bTIME = true) ∧ (s.time.step = none) ∧ (s.time.steps = [])) ∧
      ((s.calm = true) ∧ (s.cmd.started = []) ∧ (s.twin.mirCmds = []) ∧ (s.flag TIME.SEC_LOAD_HI TIME.SEC_LOAD_HI_GO = false)) ∧
      (
((s.calm = true) ∧ (s.cmd.started = []) ∧ (s.twin.mirCmds = [])) ∧ 
  let src : CmdSrc := .ring r (ringHead s r) (s.ring r).gen
  let cmd := fun op b => (s.at t).cmdOf src op tag b 0 0
  (s.cmd.applying = false) ∧ (s.cmd.loading = none)))
      5 230 9 1 55 7 (-256) (leBytes 4 (0x10 + 256 * 9) ++ List.replicate 28 0) ⟨4, 0, false, .boot, 0, none, 0, [], []⟩ (let s := ((((Tests.running.wr (DMA.RING_CTL 230) 1).wr (DMA.RING_TAIL 230) 2).wr (DMA.RING_BASE_LO 230) 1).wr (DMA.RING_SIZE 230) 4); { s with dma := { s.dma with bme := true, linkUp := true } }) ∧
    (fun (t r tag _ _ _ : Nat) (_ : Int) (desc : List Byte) (_ : LoadS) (s : State) =>
      ((s.calm = true) ∧ (s.cmd.started = []) ∧ (s.twin.mirCmds = [])) ∧ 
  let src : CmdSrc := .ring r (ringHead s r) (s.ring r).gen
  (224 ≤ r) ∧ (r < 256) ∧ (s.fld (ringParam r) DMA.RING_PARAM_CE_MODE = 0) ∧ (ringLive s r = true) ∧ (ringPosted s r ≠ 0) ∧ ((∀ q, q < 256 → 224 ≤ q → q ≠ r → ringLive s q = false)) ∧ ((s.at t).takesNow src = true) ∧ (tag < 256) ∧ (descWord desc 0 = 0x10 + 256 * tag + 2 ^ 17))
      5 230 9 1 55 7 (-256) (leBytes 4 (0x10 + 256 * 9 + 2 ^ 17) ++ List.replicate 28 0) ⟨4, 0, false, .boot, 0, none, 0, [], []⟩ (let s := ((((Tests.running.wr (DMA.RING_CTL 230) 1).wr (DMA.RING_TAIL 230) 2).wr (DMA.RING_BASE_LO 230) 1).wr (DMA.RING_SIZE 230) 4); { s with dma := { s.dma with bme := true, linkUp := true } }) ∧
    (fun (_ r _ _ _ _ : Nat) (_ : Int) (_ : List Byte) (_ : LoadS) (s : State) =>
      (s.calm = true) ∧ (s.cmd.started = []) ∧ (s.twin.mirCmds = []) ∧ (ringLive s r = false))
      5 230 9 1 55 7 (-256) [] ⟨4, 0, false, .boot, 0, none, 0, [], []⟩ (let s := ((((Tests.running.wr (DMA.RING_CTL 230) 0).wr (DMA.RING_TAIL 230) 2).wr (DMA.RING_BASE_LO 230) 1).wr (DMA.RING_SIZE 230) 4); { s with dma := { s.dma with bme := true, linkUp := true } }) ∧
    (fun (t _ _ _ _ _ : Nat) (d : Int) (_ : List Byte) (_ : LoadS) (s : State) =>
      ((s.calm = true) ∧ (s.cmd.started = []) ∧ (s.twin.mirCmds = [])) ∧ 
  let s0 := s.at t
  let stepped := fun (e : Int) => ((s0.time.stc : Int) + e * (2 : Int) ^ 48).toNat
  let still := s.blkOn bTIME = true ∧ s.aport.sides = [] ∧ s.blkOn bSTX = false
  (still) ∧ (s.time.step = some d) ∧ (s.time.steps = []) ∧ (stepped d / 2 ^ 56 / 1000000 ≤ s.time.epoch))
      5 230 9 1 55 7 (-256) [] ⟨4, 0, false, .boot, 0, none, 0, [], []⟩ (let s := Tests.running; { s with cmd := { s.cmd with resetting := [bSTX] }, time := { s.time with stc := 5 * 10 ^ 9 * 2 ^ 56, step := some (-256), epoch := 5000 } }) ∧
    (fun (t _ _ _ _ _ : Nat) (d : Int) (_ : List Byte) (_ : LoadS) (s : State) =>
      ((s.calm = true) ∧ (s.cmd.started = []) ∧ (s.twin.mirCmds = [])) ∧ 
  let s0 := s.at t
  let stepped := fun (e : Int) => ((s0.time.stc : Int) + e * (2 : Int) ^ 48).toNat
  let moved := satOff (s.time.off + d) - s.time.off
  let still := s.blkOn bTIME = true ∧ s.aport.sides = [] ∧ s.blkOn bSTX = false
  (still) ∧ (s.time.step = none) ∧ (s.time.steps = [d]) ∧ (stepped moved / 2 ^ 56 / 1000000 ≤ s.time.epoch))
      5 230 9 1 55 7 (-256) [] ⟨4, 0, false, .boot, 0, none, 0, [], []⟩ (let s := Tests.running; { s with cmd := { s.cmd with resetting := [bSTX] }, time := { s.time with stc := 5 * 10 ^ 9 * 2 ^ 56, steps := [-256], epoch := 5000 } }) ∧
    (fun (t _ _ _ _ _ : Nat) (_ : Int) (_ : List Byte) (_ : LoadS) (s : State) =>
      ((s.calm = true) ∧ (s.cmd.started = []) ∧ (s.twin.mirCmds = [])) ∧ 
  let still := s.blkOn bTIME = true ∧ s.aport.sides = [] ∧ s.blkOn bSTX = false
  (still) ∧ (s.now < t) ∧ (s.flag TIME.SEC_LOAD_HI TIME.SEC_LOAD_HI_GO = true) ∧ ((secLoadValue s + 1) * 1000 ≤ s.time.epoch))
      5 230 9 1 55 7 (-256) [] ⟨4, 0, false, .boot, 0, none, 0, [], []⟩ (let s := (Tests.running.wr TIME.SEC_LOAD_LO 7).wr TIME.SEC_LOAD_HI 0x10000; { s with cmd := { s.cmd with resetting := [bSTX] }, time := { s.time with stc := 5500000000 * 2 ^ 56 + 7, epoch := 8000 } }) ∧
    (fun (t r tag m _ _ : Nat) (_ : Int) (_ : List Byte) (_ : LoadS) (s : State) =>
      ((s.calm = true) ∧ (s.cmd.started = []) ∧ (s.twin.mirCmds = [])) ∧ 
  let src : CmdSrc := .ring r (ringHead s r) (s.ring r).gen
  let cmd := fun op b => (s.at t).cmdOf src op tag b 0 0
  (s.cmd.applying = false) ∧ (s.place.now = none) ∧ (fabFormed s = true) ∧ (m ≠ myId s) ∧ (m < s.fab.formed.length))
      5 230 9 1 55 7 (-256) [] ⟨4, 0, false, .boot, 0, none, 0, [], []⟩ (let s := (Tests.inMode .run).wr FAB.CTL 1; { s with fab := { s.fab with st := .formed, reach := [0, 77], formed := [0, 77], present := 3 } }) ∧
    (fun (t r tag _ _ a : Nat) (_ : Int) (_ : List Byte) (l : LoadS) (s : State) =>
      ((s.calm = true) ∧ (s.cmd.started = []) ∧ (s.twin.mirCmds = [])) ∧ 
  let s0 := s.at t
  let src : CmdSrc := .ring r (ringHead s r) (s.ring r).gen
  let cmd := fun op b => (s.at t).cmdOf src op tag b 0 0
  (s.blkOn bFAB = true) ∧ (s.cmd.applying = true) ∧ (s.cmd.restarting = false) ∧ (s.cmd.sleeping = false) ∧ (s.cmd.mode = .load) ∧ (s.cmd.deferred = []) ∧ (s.cmd.loading = some l) ∧ (l.auto = false) ∧ (l.begun = .boot) ∧ (s.fab.waitCfg = some a) ∧ (s.fab.late = false) ∧ (s0.now < a + secs 1))
      5 230 9 1 55 7 (-256) [] ⟨4, 0, false, .boot, 0, none, 0, [], []⟩ (let s := (Tests.inMode .load).wr FAB.CTL 1; { s with now := 5, cmd := { s.cmd with applying := true, loading := some ⟨4, 0, false, .boot, 0, none, 0, [], []⟩ }, fab := { s.fab with st := .formed, reach := [0, 77], formed := [0, 77], present := 3, waitCfg := some 7 } }) ∧
    (fun (t r tag m _ a : Nat) (_ : Int) (_ : List Byte) (l : LoadS) (s : State) =>
      ((s.calm = true) ∧ (s.cmd.started = []) ∧ (s.twin.mirCmds = [])) ∧ 
  let s0 := s.at t
  let src : CmdSrc := .ring r (ringHead s r) (s.ring r).gen
  let cmd := fun op b => (s.at t).cmdOf src op tag b 0 0
  (s.blkOn bFAB = true) ∧ (s.cmd.applying = true) ∧ (s.cmd.restarting = false) ∧ (s.cmd.sleeping = false) ∧ (s.cmd.mode = .load) ∧ (s.cmd.deferred = []) ∧ (s.cmd.loading = some l) ∧ (l.auto = false) ∧ (l.begun = .boot) ∧ (s.fab.waitCfg = some a) ∧ (s.fab.late = false) ∧ (a + secs 1 ≤ s0.now) ∧ (m ∈ fabOthers s) ∧ (Tbl.find s.fab.reports m = none))
      5 230 9 1 55 7 (-256) [] ⟨4, 0, false, .boot, 0, none, 0, [], []⟩ (let s := (Tests.inMode .load).wr FAB.CTL 1; { s with now := 131072000000000, cmd := { s.cmd with applying := true, loading := some ⟨4, 0, false, .boot, 0, none, 0, [], []⟩ }, fab := { s.fab with st := .formed, reach := [0, 77], formed := [0, 77], present := 3, waitCfg := some 7 } }) :=
  ⟨by decide +kernel, by decide +kernel, by decide +kernel, by decide +kernel, by decide +kernel, by decide +kernel, by decide +kernel, by decide +kernel, by decide +kernel⟩

theorem witness_EveryStepKeepsTheInvariant : State.reset.inv = true ∧ step State.reset = .next State.reset := ⟨by decide +kernel, rfl⟩

/-- The loaded device with its APPLY begun. -/
def Tests.applying : State :=
  let s := (Tests.loaded.at 5).numbered
  applyBegins { s with cmd := { s.cmd with applying := true
                                           loading := some ⟨5, 692, false, .boot, 0, some ((Tests.loaded.at 5).cmdOf .spi 0x02 7 false 0 0), 0, [(0, 692)], []⟩ } }
def Tests.applyingLoad : LoadS := ⟨5, 692, false, .boot, 0, some ((Tests.loaded.at 5).cmdOf .spi 0x02 7 false 0 0), 0, [(0, 692)], []⟩

/-- The container passes the front checks and is placed. -/
theorem test_container_placed : (match applyFront Tests.applying Tests.applyingLoad with
    | .ok k => (match (placeInOf (adoptPeerFaults Tests.applying k.c.configId) k []).place with | .ok _ => true | .error _ => false)
    | .error _ => false) = true := by decide +kernel

theorem witness_LoadAndApply_placed : fabPart Tests.applying = false ∧ ∃ k p on, applyFront Tests.applying Tests.applyingLoad = .ok k ∧
    (placeInOf (adoptPeerFaults Tests.applying k.c.configId) k []).place = .ok (p, on) := by
  refine ⟨by decide +kernel, ?_⟩
  have h := test_container_placed
  split at h
  · rename_i k hk
    split at h
    · rename_i x hx
      exact ⟨k, x.1, x.2, hk, hx⟩
    · cases h
  · cases h
end

section
/-!
Writes of MAC_CTL that enable no byte with a writable bit, and the obligation on a line rate above MEDIA_MAX (R40), which such a write refutes.
-/
namespace Sys2Proof.Machine

/-! ### A write that no rule refuses -/

/-- What plainWrite says of the device and of the block. -/
theorem State.plainWrite_spec {s : State} {b : Nat} (h : s.plainWrite b = true) :
    s.live = true ∧ s.cmd.mode ≠ .sleep ∧ s.cmd.dirty = false ∧ s.domOn 1 = true ∧ s.present b = true ∧ s.domOn (domainOf b) = true := by
  simp only [State.plainWrite, Bool.and_eq_true, bne_iff_ne, Bool.not_eq_true'] at h
  obtain ⟨⟨⟨⟨⟨⟨⟨hlive, hmode⟩, hdirty⟩, hdom1⟩, hpresent⟩, hdom⟩, -⟩, -⟩ := h
  exact ⟨hlive, hmode, hdirty, hdom1, hpresent, hdom⟩

theorem isProtected_eq_false_iff (a : Nat) : isProtected a = false ↔ hasRWP a = false ∧ a ≠ SYS.UNLOCK ∧ isMbx a = false := by
  simp [isProtected, and_assoc]

/-- The sequencer has no mode change to judge first. -/
theorem rowStart_of_plainWrite {s : State} {b : Nat} (t : Nat) (h : s.plainWrite b = true) : rowStart t s = s.at t := by
  obtain ⟨-, hmode, hdirty, -⟩ := State.plainWrite_spec h
  rw [rowStart, if_neg hmode, settle_of_clean _ _ (by exact hdirty)]

/-- The row REGISTER_WRITE is one access that the destination performs. -/
theorem execRegisterWrite_of_plainWrite {s : State} {b : Nat} (t : Nat) (p : Path) (a be v : Nat) (h : s.plainWrite b = true) :
    exec (.registerWrite t p a be v) s = .next (perform (s.at t) p ⟨true, false, a, be, v, 4, t⟩).2 := by
  have hlive : (s.at t).live = true := (State.plainWrite_spec h).1
  change execRegisterWrite t p a be v s = _
  rw [execRegisterWrite, oneAccess, rowStart_of_plainWrite t h, if_pos hlive]

/-- No rule refuses a write in the normal view of an unprotected register that the variant has. -/
theorem hostWrite_of_plainWrite {s : State} (t : Nat) (p : Path) (a be : Nat) (v : Word) (h : s.plainWrite (blkOf a) = true)
    (hin : a < 0x1300000) (hview : viewOf a = 0) (hprot : isProtected a = false) (hhere : regHere s a = true) :
    hostWrite (s.at t) p a be v = (aOK, normalWrite (s.at t) p a be v) := by
  obtain ⟨-, hmode, -, hdom1, hpresent, hdom⟩ := State.plainWrite_spec h
  obtain ⟨hrwp, hkey, -⟩ := (isProtected_eq_false_iff a).1 hprot
  have hnormal : normalOf a = a := by simp [normalOf, hview]
  have hdom1' : (s.at t).domOn 1 = true := hdom1
  have hdom' : (s.at t).domOn (domainOf (blkOf a)) = true := hdom
  have hthere : ((s.at t).present (blkOf a) && regHere (s.at t) a) = true := Bool.and_eq_true_iff.2 ⟨hpresent, hhere⟩
  simp [hostWrite, hnormal, hview, hprot, hrwp, hkey, hmode, hdom1', hdom', hthere, Nat.not_le.mpr hin, disarmFor]

/-- A write that reaches no writable bit of a plain register leaves the state. -/
theorem normalWrite_of_noBits (s : State) (p : Path) (a be : Nat) (v : Word) (hmbx : isMbx a = false) (hcmd : a ≠ SYS.CMD)
    (hpath : perPath a = false) (hfault : a ≠ SYS.ACC_FAULT_INFO)
    (hm : typeMask a (fun t => t == .rw || t == .rwh || t == .rwp) &&& beMask be = 0) (hc : typeMask a (fun t => t == .w1c) = 0) :
    normalWrite s p a be v = s := by
  simp [normalWrite, hmbx, hcmd, hpath, hfault, hm, hc, hostStore]

/-! ### MAC_CTL of a media port -/

/-- What the writable fields of MAC_CTL are: RW, all in byte 0. -/
theorem typeMask_macCtl {k : Nat} (hk : k < 2) :
    typeMask (MAC.MAC_CTL k) (fun t => t == .rw || t == .rwh || t == .rwp) = 0xFF ∧ typeMask (MAC.MAC_CTL k) (fun t => t == .w1c) = 0 := by
  revert k; decide +kernel

/-- MAC_CTL is a plain register in the normal view: no protected one, none of the sequencer's, and none that a path has for itself. -/
theorem macCtl_plain {k : Nat} (hk : k < 2) :
    MAC.MAC_CTL k < 0x1300000 ∧ viewOf (MAC.MAC_CTL k) = 0 ∧ isProtected (MAC.MAC_CTL k) = false ∧ perPath (MAC.MAC_CTL k) = false ∧
    MAC.MAC_CTL k ≠ SYS.CMD ∧ MAC.MAC_CTL k ≠ SYS.ACC_FAULT_INFO ∧ blkOf (MAC.MAC_CTL k) = portBlk k := by
  revert k; decide +kernel

/-- A register of a media port is there whenever its block is. -/
theorem regHere_of_portBlk (s : State) {a k : Nat} (hk : k < 2) (hb : blkOf a = portBlk k) : regHere s a = true := by
  have : blkOf a = 4 ∨ blkOf a = 5 := by rw [hb, portBlk]; omega
  rcases this with h | h <;> simp [regHere, h, bDSPC, bAPORT, bTIME, bFAB]

/-- Without byte 0 the byte enables reach no field of MAC_CTL. -/
theorem beMask_withoutByte0 {be : Nat} (h : bit be 0 = false) : (0xFF : Word) &&& beMask be = 0 := by
  cases h1 : bit be 1 <;> cases h2 : bit be 2 <;> cases h3 : bit be 3 <;> simp [beMask, h, h1, h2, h3]

/-- A write of MAC_CTL that leaves out byte 0 completes with OK and does nothing: in particular it records nothing, whatever RATE holds. -/
theorem registerWrite_macCtl_withoutByte0 {s : State} {k be : Nat} (t : Nat) (p : Path) (v : Nat) (h : s.plainWrite (portBlk k) = true) (hk : k < 2)
    (hbe : bit be 0 = false) : exec (.registerWrite t p (MAC.MAC_CTL k) be v) s = .next ((s.at t).ended p) := by
  obtain ⟨hin, hview, hprot, hpath, hcmd, hfault, hblk⟩ := macCtl_plain hk
  obtain ⟨hrw, hw1c⟩ := typeMask_macCtl hk
  obtain ⟨-, -, hmbx⟩ := (isProtected_eq_false_iff _).1 hprot
  have hwrite : hostWrite (s.at t) p (MAC.MAC_CTL k) be (BitVec.ofNat 32 v) = (aOK, s.at t) := by
    rw [hostWrite_of_plainWrite t p _ be _ (hblk ▸ h) hin hview hprot (regHere_of_portBlk s hk hblk),
      normalWrite_of_noBits _ p _ be _ hmbx hcmd hpath hfault (by rw [hrw]; exact beMask_withoutByte0 hbe) hw1c]
  rw [execRegisterWrite_of_plainWrite t p _ be v h]
  simp [perform, hwrite, accEnds, aOK, State.ended]

/-! ### A line rate that no write has selected -/

/-- From reset: software asks for every domain, PD3 comes up, and both bits of port A's RATE flip between two parity scans. Two flips in one byte leave its
parity right (R72), so RATE is 3 with no mismatch found. -/
def flippedRateRun : Host.Outcome State Fault Refusal :=
  core.run 3 { State.reset with pending :=
    [.domainRequestWrite 1 .spi 0xFFF, .domainUp 2 3, .parityScan 3 [(MAC.MAC_CTL 0, 0), (MAC.MAC_CTL 0, 1)]] }

/-- The state that this run reaches. -/
def flippedRate : State := match flippedRateRun with | .next s => s | _ => State.reset

/-- Port A's registers can be written, its RATE is above what the variant has, and nothing is recorded. -/
theorem flippedRate_aboveVariant : flippedRate.plainWrite (portBlk 0) = true ∧ (twinned flippedRate && flippedRate.twin.role == .standby) = false ∧
    flippedRate.variant.media < MAC.MAC_CTL_RATE.get (merged (flippedRate.rd (MAC.MAC_CTL 0)) (beMask 2) 0) ∧ flippedRate.recorder.evq = [] := by
  decide +kernel

/-- Refutes O6: the value that a narrow write of byte 1 of MAC_CTL makes holds the RATE that stands, and where bit flips have put that above MEDIA_MAX the
write, which reaches no field of the register, selects no rate and records no VARIANT_LIMIT. -/
theorem not_lineRateAboveTheVariant : ¬ Obligations.LineRateAboveTheVariant := by
  intro h
  obtain ⟨hplain, hstandby, habove, hevq⟩ := flippedRate_aboveVariant
  obtain ⟨-, hnarrow, -⟩ := h 5 0 2 0 0 .spi flippedRate hplain hstandby (by decide) (by decide)
  obtain ⟨u, hu, ⟨-, -, hrecord, -⟩, -⟩ := hnarrow habove
  rw [registerWrite_macCtl_withoutByte0 5 .spi 0 hplain (by decide) (by decide)] at hu
  rw [← Host.Outcome.next.inj hu] at hrecord
  simp [State.ended, hevq] at hrecord

end Sys2Proof.Machine
end

section
/-!
Commands that the sequencer refuses as they arrive, and the obligation on LOAD, APPLY, STOP and SLEEP while FUSE or TEST_STRAP is 1 (R80).
-/
namespace Sys2Proof.Machine

/-! ### What a completion leaves of the sequencer -/

@[simp] theorem ringCount_cmd (s : State) (r : Nat) : (ringCount s r).cmd = s.cmd := by
  simp only [ringCount]; split
  · rfl
  · split <;> simp

@[simp] theorem ringDone_cmd (s : State) (c : Cpl) (r slot gen : Nat) : (ringDone s c r slot gen).cmd = s.cmd := by
  unfold ringDone; split <;> simp

/-- A completion that enters SYS.CMD_DONE changes nothing of the sequencer but that FIFO. -/
theorem pushDone_cmd (s : State) (c : Cpl) : ∃ l, (pushDone s c).cmd = { s.cmd with done := l } := by
  unfold pushDone; split
  · exact ⟨_, State.raise_cmd _ _ _⟩
  · exact ⟨_, by rw [State.raise_cmd, State.raise_cmd]⟩

/-- Wherever a completion goes, of the sequencer only the FIFO and what the always-on island holds of completions can change. -/
theorem finish_cmd (s : State) (c : Cmd) (status detail : Nat) :
    ∃ l k b, (finish s c status detail).cmd = { s.cmd with done := l, sleepDone := k, sleepLost := b } := by
  unfold finish
  split
  · exact ⟨_, _, _, rfl⟩
  · exact ⟨_, _, _, ringDone_cmd _ _ _ _ _⟩
  · split
    · split <;> exact ⟨_, _, _, rfl⟩
    · exact (pushDone_cmd s _).imp fun _ h => ⟨_, _, h⟩

/-- A refused command changes nothing of the sequencer but what it holds of completions. -/
theorem reject_cmd (s : State) (c : Cmd) (status : Nat) :
    ∃ l k b, (reject s c status).cmd = { s.cmd with done := l, sleepDone := k, sleepLost := b } := by
  rw [reject, State.emit_cmd]; exact finish_cmd s c status 0

/-- After a refusal the sequencer has no more to do than before it. -/
theorem pump_reject (n : Nat) (s : State) (c : Cmd) (status : Nat) (hd : s.cmd.dirty = false) (hq : s.cmd.queue = []) :
    pump n (reject s c status) = reject s c status := by
  obtain ⟨l, k, b, h⟩ := reject_cmd s c status
  exact pump_of_idle n _ (by rw [h]; exact hd) (by rw [h]; exact hq)

/-! ### A verdict that refuses -/

/-- What Table 4-11 refuses, R347 refuses too. -/
theorem verdict_of_modeVerdict_r (s : State) (c : Cmd) (h : modeVerdict s c.op = .r) : verdict s c = .r := by
  rw [verdict, h, ite_self]

/-- A known command whose words pass the checks of R98 is refused with ILLEGAL_IN_STATE when the mode refuses it. -/
theorem judge_of_modeVerdict_r (s : State) (c : Cmd) (hknown : opKnown c.op = true) (harg : argBad s c.op c.arg0 c.arg1 = false)
    (hhere : argAbsent s c.op c.arg0 = false) (h : modeVerdict s c.op = .r) : judge s c = reject s c cILLEGAL := by
  simp [judge, hknown, harg, hhere, verdict_of_modeVerdict_r s c h]

/-- A sequencer that takes a command as it arrives has nothing to do of its own. -/
theorem State.calm_of_takesNow {s : State} {src : CmdSrc} (h : s.takesNow src = true) : s.calm = true := by
  simp only [State.takesNow, Bool.and_eq_true] at h
  obtain ⟨⟨⟨⟨⟨⟨-, -⟩, hcalm⟩, -⟩, -⟩, -⟩, -⟩ := h
  exact hcalm

/-! ### FUSE and TEST_STRAP (R80) -/

/-- The opcodes of LOAD, APPLY, STOP and SLEEP, which R80 names. -/
abbrev NamedByR80 (op : Nat) : Prop := op = 0x01 ∨ op = 0x02 ∨ op = 0x06 ∨ op = 0x0D

/-- Each of the four is a known command and is aimed at no block. -/
theorem NamedByR80.known {op : Nat} (hop : NamedByR80 op) (s : State) (a0 : Nat) :
    op % 256 = op ∧ op ≠ 0x04 ∧ opKnown op = true ∧ argAbsent s op a0 = false := by
  rcases hop with rfl | rfl | rfl | rfl <;> exact ⟨rfl, by decide, rfl, rfl⟩

/-- FUSE and TEST_STRAP refuse the four in every mode, before Table 4-11 is read. -/
theorem modeVerdict_of_fuseOrTest {s : State} {op : Nat} (hop : NamedByR80 op)
    (hcause : bit s.cmd.safeCause scFUSE = true ∨ bit s.cmd.safeCause scTEST = true) : modeVerdict s op = .r := by
  have hcause' : (bit s.cmd.safeCause scFUSE || bit s.cmd.safeCause scTEST) = true := Bool.or_eq_true_iff.2 hcause
  have hop' : (op == 0x01 || op == 0x02 || op == 0x06 || op == 0x0D) = true := by
    rcases hop with rfl | rfl | rfl | rfl <;> rfl
  rw [modeVerdict, if_pos (Bool.and_eq_true_iff.2 ⟨hcause', hop'⟩)]

/-- A row of one of the four, with arguments in their ranges, is a refusal of the command that it names and no more. -/
theorem command_of_fuseOrTest {s : State} {t op a0 a1 : Nat} {src : CmdSrc} (tag : Nat) (nodefer : Bool) (htakes : (s.at t).takesNow src = true)
    (hcause : bit s.cmd.safeCause scFUSE = true ∨ bit s.cmd.safeCause scTEST = true) (hop : NamedByR80 op)
    (harg : argBad (s.at t).numbered op (a0 % 2 ^ 32) (a1 % 2 ^ 32) = false) :
    command t src op tag nodefer a0 a1 s = reject (s.at t).numbered ((s.at t).cmdOf src op tag nodefer a0 a1) cILLEGAL := by
  obtain ⟨hmod, habort, hknown, hhere⟩ := hop.known (s.at t).numbered (a0 % 2 ^ 32)
  have hcmd : ((s.at t).cmdOf src op tag nodefer a0 a1).op = op := hmod
  obtain ⟨hdirty, hqueue, -⟩ := (State.calm_iff _).1 (State.calm_of_takesNow htakes)
  rw [command_takesNow t src op tag nodefer a0 a1 s htakes (by rw [hmod]; exact habort),
    judge_of_modeVerdict_r _ _ (by rw [hcmd]; exact hknown) (by rw [hcmd]; exact harg) (by rw [hcmd]; exact hhere)
      (by rw [hcmd]; exact modeVerdict_of_fuseOrTest hop hcause)]
  exact pump_reject 39 _ _ _ hdirty hqueue

/-! ### The ranges of Table 4-10 for LOAD -/

/-- A LOAD of CFG_A, CFG_B or BOOT takes no length. -/
theorem argBad_load_partition (s : State) {a0 : Nat} (h1 : 1 ≤ a0) (h4 : a0 < 4) : argBad s 0x01 (a0 % 2 ^ 32) (0 % 2 ^ 32) = false := by
  rw [Nat.mod_eq_of_lt (a := a0) (by omega)]
  simp [argBad, Nat.le_of_lt h4, Nat.ne_of_gt h1]

/-- A LOAD of the memory window takes a length of at most 24 MiB. -/
theorem argBad_load_window (s : State) {a1 : Nat} (h : a1 ≤ 25165824) : argBad s 0x01 (4 % 2 ^ 32) (a1 % 2 ^ 32) = false := by
  rw [Nat.mod_eq_of_lt (a := a1) (by omega)]
  simp [argBad, h]

/-- Settles O5: R80 is read before Table 4-11, so each of the four is refused as it arrives, and a refusal leaves the sequencer nothing to do. -/
theorem fuseAndTestStrapRefuse : Obligations.FuseAndTestStrapRefuse := by
  intro t tag a0 a1 nd src s htakes hcause
  refine ⟨fun h1 h4 => ?load, fun h => ?loadWindow, ?apply, ?stop, ?sleep⟩
  case load => exact congrArg Host.Outcome.next (command_of_fuseOrTest tag nd htakes hcause (by decide) (argBad_load_partition _ h1 h4))
  case loadWindow => exact congrArg Host.Outcome.next (command_of_fuseOrTest tag nd htakes hcause (by decide) (argBad_load_window _ h))
  case apply => exact congrArg Host.Outcome.next (command_of_fuseOrTest tag nd htakes hcause (by decide) rfl)
  case stop => exact congrArg Host.Outcome.next (command_of_fuseOrTest tag nd htakes hcause (by decide) rfl)
  case sleep => exact congrArg Host.Outcome.next (command_of_fuseOrTest tag nd htakes hcause (by decide) rfl)

end Sys2Proof.Machine
end
